-- ==== Sys2Proof/Word.lean ====
section
/-! DEFINITION. The word types: bytes, 32-bit register and FP32 words, and sparse tables of them. -/

namespace Sys2Proof

/-- A byte (R8). -/
abbrev Byte := BitVec 8

/-- A register word (R462) or the encoding of an FP32 value (R87). -/
abbrev Word := BitVec 32

/-- A counter of two register words. -/
abbrev DWord := BitVec 64

/-- One 16-byte unit of a link (R291). -/
abbrev Unit16 := BitVec 128

/-- A sparse table: pairs of a key and a value, keys strictly rising, no pair whose value is the one that an unlisted
key has. `Machine/Table.lean` reads and writes it. -/
abbrev Tbl (α : Type) := List (Nat × α)

end Sys2Proof
end

