-- ==== Sys2Proof/Syntax.lean ====
section
/-! DEFINITION. The commands: one constructor of `Instr` per row of the table of operations and events. A command that
is a register write carries the writing agent and the word written, a packet carries the port it arrived on and the
packet, a descriptor's command the core and queue, and an event what the module senses at that event. -/

namespace Sys2Proof

/-- The agents that reach registers (R457): the management SMBus, or a fabric packet of the module `src`, which came
in on `port` (8 for none: a COPY of this module). -/
inductive Agent where
  | mgmt
  | fabric (src : BitVec 13) (port : Fin 9)
deriving DecidableEq, Repr

/-- A packet: the header fields of R300 and the payload bytes, 16 for each unit of LEN. -/
structure Pkt where
  dest : BitVec 13
  src : BitVec 13
  gen : BitVec 16
  seq : BitVec 24
  len : BitVec 5
  cls : BitVec 3
  typ : BitVec 4
  replay : Bool
  marked : Bool
  info : BitVec 48
  payload : List Byte
deriving DecidableEq, Repr

/-- Physical upsets that strike while a command runs: symbol errors of HBM access units (unit address, data pins hit,
R262), bits flipped in local-store bytes (module-local address, bits hit, R159), access units whose next HBM access meets
data-bus parity errors, each with how many follow one another (R267), and the receiving domain whose next datapath crossing meets a parity error (R437). -/
structure Noise where
  hbm : List (Nat × List Nat)
  ls : List (Nat × Nat)
  bus : List (Nat × Nat)
  parity : Option Nat
deriving DecidableEq, Repr

/-- Nothing strikes. -/
def Noise.quiet : Noise := ⟨[], [], [], none⟩

/-- How an accumulator read meets the passes that run: whether its handshake falls together with the opening of the row, and how many
folds of those passes are still outstanding (R128). -/
structure ReadMoment where
  coincide : Bool
  lag : Nat
deriving DecidableEq, Repr

/-- The result of the slice-wide scan of a DISPATCH (R146): prefix and total by expert and choice, flattened as
expert × K + choice, and whether the signatures agreed. -/
structure ScanResult where
  prefixes : List Nat
  totals : List Nat
  agree : Bool
deriving DecidableEq, Repr

/-- The commands (opcode_table.json). -/
inductive Instr where
  -- start-up and supplies
  | powerOnStart
  | idReconstructDone (ok : Bool)
  | imageVerifyDone
  | powerInputsReady (cv : BitVec 16)
  | railRampDone
  | dieLinkTrainDone
  | hbmTrainDone (repaired : List Nat)
  | seedSetVerify (slot : Fin 4)
  | inLow (cv : BitVec 16)
  | pwrEnFall
  | auxLost
  | inrushDone (cv : BitVec 16)
  | inputOvervoltage (cv : BitVec 16)
  | unmateSwitchOpen (cv : BitVec 16)
  | resetNLow
  | thermtrip (die : Fin 3)
  | dieCooled
  | resonatorFail
  | railLow (rail : Fin 3) (mv : BitVec 10)
  | dieLinkFail (link : Fin 3)
  | powerTrimStep (watts : BitVec 16)
  | powerTrimRestore (watts : BitVec 16)
  | railSet (a : Agent) (rail : Fin 3) (v : Word)
  | railSetStep (rail : Fin 3)
  -- management connector
  | smbBlockWrite (addr : BitVec 24) (data : Word) (pec : Byte)
  | smbBlockRead (addr : BitVec 24)
  | smbAlertResponse
  | page (p : Byte) (pec : Byte)
  | clearFaults (pec : Byte)
  | statusWord
  | readVin
  | readIin
  | readVout
  | readIout
  | readTemperature1
  | readPin
  | pmbusNack (cmd : Byte)
  | idcode
  | bypass
  | scanInstruction (ir : Nat)
  -- registers
  | registerWrite (a : Agent) (off : BitVec 24) (v : Word)
  | evtClear (a : Agent) (block : BitVec 12) (v : Word)
  | lockSet (a : Agent) (v : Word)
  | take (a : Agent) (v : Word)
  | snapshotDone (spread : BitVec 16) (coinc : List Nat)
  | rstWarm (a : Agent) (v : Word)
  | rstCold (a : Agent) (v : Word)
  | spSel (a : Agent) (v : Word)
  -- recovery
  | sprout (domain : Nat)
  | quiesceAck (domain : Nat)
  | quiesceWaitExpiry
  | selfRefreshEntered
  | resetHoldEnd
  | warmDone
  | recovStall
  | parsnipKeepaliveTimeout
  -- array
  | arrayPass (core : Fin 128) (q : Fin 4)
  | weightLoadDone (core : Fin 128)
  | arrayPassComplete (core : Fin 128)
  | arrayDrainDone (core : Fin 128)
  | arrData (core : Fin 128) (off : BitVec 22)
  | rampDownDone (core : Fin 128)
  | accSelGo (a : Agent) (v : Word)
  | accReadTaken (seen : ReadMoment)
  -- queues and control descriptors
  | qTailWrite (a : Agent) (core : Fin 128) (q : Fin 4) (v : Word)
  | qEnable (a : Agent) (core : Fin 128) (q : Fin 4) (v : Word)
  | resume (a : Agent) (core : Fin 128) (q : Fin 4) (v : Word)
  | descriptorStart (core : Fin 128) (q : Fin 4)
  | descriptorComplete (core : Fin 128) (q : Fin 4)
  | nop (core : Fin 128) (q : Fin 4)
  | sync (core : Fin 128) (q : Fin 4)
  | syncPoll (core : Fin 128) (q : Fin 4)
  | enqueue (core : Fin 128) (q : Fin 4)
  | enqueueSpace (core : Fin 128) (q : Fin 4)
  | stepMark (core : Fin 128) (q : Fin 4)
  -- DMA and vector engines
  | copy (core : Fin 128) (q : Fin 4) (noise : Noise)
  | skew (core : Fin 128) (q : Fin 4)
  | weight (core : Fin 128) (q : Fin 4)
  | scatterAdd (core : Fin 128) (q : Fin 4)
  | elt (core : Fin 128) (q : Fin 4)
  | quant (core : Fin 128) (q : Fin 4)
  | amax (core : Fin 128) (q : Fin 4)
  | ranksum (core : Fin 128) (q : Fin 4)
  | rowred (core : Fin 128) (q : Fin 4)
  -- contexts
  | ctxOpen (a : Agent) (core : Fin 128) (ctx : Fin 16) (v : Word)
  | ctxTeardown (a : Agent) (core : Fin 128) (ctx : Fin 16) (v : Word)
  | ctxDone (core : Fin 128) (ctx : Fin 16)
  | requestReply (core : Fin 128) (ctx : Fin 16) (inst : Byte) (gen : BitVec 16) (count : Nat)
  -- Fennel
  | dispatch (core : Fin 128) (q : Fin 4)
  | fennelScanResult (op : Fin 4) (r : ScanResult)
  | combine (core : Fin 128) (q : Fin 4)
  | dispatchBwd (core : Fin 128) (q : Fin 4)
  | combineBwd (core : Fin 128) (q : Fin 4)
  | fenOpOpen (core : Fin 128) (q : Fin 4)
  | row (port : Fin 8) (p : Pkt)
  | fenEnable (a : Agent) (v : Word)
  -- Stalk and update engines
  | stalkWriteRelease (core : Fin 128) (q : Fin 4)
  | stkClear (a : Agent) (v : Word)
  | updEnable (a : Agent) (v : Word)
  | twGo (a : Agent) (v : Word)
  | updateStageStart
  | precheckEnd
  | vote1Result (word : BitVec 8) (mask : BitVec 4096)
  | ownPassEnd
  | vote2Result (word : BitVec 8)
  | mirrorPassEnd
  | lossResult (sum : Word) (tokens : DWord)
  | tileCheckDone (core : Fin 128)
  | winSelGo (a : Agent) (v : Word)
  -- squash adders and memory
  | add (port : Fin 8) (p : Pkt)
  | waitingAddRelease (win : Fin 16)
  | sqEnClear (a : Agent) (v : Word)
  | winClear (a : Agent) (win : Fin 16) (v : Word)
  | hbmRefresh (stack : Fin 8) (bank : Nat)
  | hbmTempRead (stack : Fin 8) (temp : Byte)
  | remapCopyDone (stack : Fin 8)
  | remapReqGo (a : Agent) (v : Word)
  | scrubGo (a : Agent) (v : Word)
  | scrubSlice (noise : Noise) (dropped : Bool)
  | scrubAbort (a : Agent) (v : Word)
  | blockFetchDone (data : List Byte)
  -- ports
  | portEnable (a : Agent) (port : Fin 8) (v : Word)
  | baseTrainingEnd (port : Fin 8)
  | candidateQualifyEnd (port : Fin 8) (fibres : BitVec 4)
  | negotiationRestart (port : Fin 8)
  | caps (port : Fin 8) (fibre : Fin 4) (payload : List Byte)
  | frameReceive (port : Fin 8) (fseq : BitVec 16) (units : List Unit16) (fcrc : Word) (fecCe fecUe : Nat)
  | lcu (port : Fin 8) (u : Unit16)
  | packetSend (port : Fin 8) (cls : Fin 8)
  | lcuTimeout (port : Fin 8)
  | linkLost (port : Fin 8)
  | retrain (a : Agent) (port : Fin 8) (v : Word)
  | portFence (a : Agent) (port : Fin 8) (v : Word)
  | unfence (a : Agent) (port : Fin 8) (v : Word)
  -- fabric requests and responses
  | write (port : Fin 8) (p : Pkt)
  | read (port : Fin 8) (p : Pkt)
  | ack (port : Fin 8) (p : Pkt)
  | readData (port : Fin 8) (p : Pkt)
  | refused (port : Fin 8) (p : Pkt)
  -- control packets
  | heartbeatSend
  | heartbeat (port : Fin 8) (p : Pkt)
  | hbMiss (port : Fin 8)
  | aliasPkt (port : Fin 8) (p : Pkt)
  | fence (port : Fin 8) (p : Pkt)
  | fenceAck (port : Fin 8) (p : Pkt)
  | fault (port : Fin 8) (p : Pkt)
  -- collectives
  | collEnable (a : Agent) (v : Word)
  | collResume (a : Agent) (v : Word)
  | collWaitPoll
  | collEntryDone
  | rs (port : Fin 8) (p : Pkt)
  | ag (port : Fin 8) (p : Pkt)
  | small (port : Fin 8) (p : Pkt)
  -- Vine
  | vineSyncTimer (t1 : DWord)
  | vineSyncReq (port : Fin 8) (p : Pkt) (t2 t3 : DWord)
  | vineSyncResp (port : Fin 8) (p : Pkt) (t4 : DWord)
  | holdover
  | vineUpTimer
  | vineUp (port : Fin 8) (p : Pkt)
  | vineAnn (port : Fin 8) (p : Pkt)
  | stepBoundary
  -- duplex pairs
  | pair (port : Fin 8) (p : Pkt)
  | digest (port : Fin 8) (p : Pkt)
  | recheckDone
  | shard (port : Fin 8) (p : Pkt)
  | tw (port : Fin 8) (p : Pkt)
  | dupAck (port : Fin 8) (p : Pkt)
  | podCopy (port : Fin 8) (p : Pkt)
  | rmData (port : Fin 8) (p : Pkt)
  | rmSend
  | rmReq (port : Fin 8) (p : Pkt)
  | probe (port : Fin 8) (p : Pkt)
  | probeReply (port : Fin 8) (p : Pkt)
  | probeWaitExpiry
  | fenceAckWaitExpiry
  | arm (a : Agent) (v : Word)
  | disarm (a : Agent) (v : Word)
  | confirm (a : Agent) (v : Word)
  | reverse (a : Agent) (v : Word)
  | swapGo (a : Agent) (v : Word)
  | mfillGo (a : Agent) (v : Word)
  | roleReq (a : Agent) (v : Word)
  -- checkpoints
  | ckptNow (a : Agent) (v : Word)
  | ckptStartResult (c : Word) (want hold drain0 drain1 : Bool)
  | ckptCopyStart
  | ckptCopyDone
  | sha (port : Fin 8) (p : Pkt)
  | paritySlice (n : Nat)
  | pull (port : Fin 8) (p : Pkt)
  | part (port : Fin 8) (p : Pkt)
  | zero (port : Fin 8) (p : Pkt)
  | notReady (port : Fin 8) (p : Pkt)
  | commitResult (complete : Bool)
  | restoreGo (a : Agent) (v : Word)
  | restoreRoundResult (c : Word) (seen stepsEqual : Bool) (groupTotals : List Nat) (lacking : Option (Fin 8))
  | restoreCopyDone (manifest : List Byte)
  | drGo (a : Agent) (v : Word)
  | drainSend
  | drAbort (a : Agent) (v : Word)
  | exportPkt (port : Fin 8) (p : Pkt)
  | imBegin (a : Agent) (v : Word)
  | importPkt (port : Fin 8) (p : Pkt)
  | imDone (a : Agent) (v : Word)
  | imAbort (a : Agent) (v : Word)
  -- field test
  | tstMode (a : Agent) (v : Word)
  | runGo (a : Agent) (v : Word)
  | runAbort (a : Agent) (v : Word)
  | heatTargetReached
  | noHeat
  | heaterTrip (tj : Byte)
  | pointEnd (fails : List (Nat × Nat))
  | classWindowExpiry (unit : Nat)
  | clsSelGo (a : Agent) (v : Word)
  | clsClear (a : Agent) (v : Word)
  | histSelGo (a : Agent) (v : Word)
  | historyRetry (ok : Bool)
  -- debug and trace
  | debugEnter (a : Agent) (v : Word)
  | debugLeave (a : Agent) (v : Word)
  | traceEnable (a : Agent) (v : Word)
  | flushItem (dropped : Bool)
  | trTailWrite (a : Agent) (v : Word)
  -- images and security
  | stageD (a : Agent) (i : Fin 256) (v : Word)
  | stageDone (a : Agent) (v : Word)
  | stageAbort (a : Agent) (v : Word)
  | serve (a : Agent) (v : Word)
  | attGo (a : Agent) (v : Word)
  | attestationDone
  -- continuous activity
  | frameSend (port : Fin 8)
  | keepAlive
  | replayOrder
deriving DecidableEq, Repr

end Sys2Proof
end

