-- ==== Sys2Proof/Machine/Table.lean ====
section
/-! DEFINITION. Sparse tables: lookup and update of lists of key and value pairs kept in one canonical form, and byte
strings stored in them, least significant byte first (R8). -/

namespace Sys2Proof.Machine

/-- The value a table holds at a key: an unlisted key holds `d key`. -/
def tget {α : Type} (d : Nat → α) : Tbl α → Nat → α
  | [], k => d k
  | (k', v) :: r, k => if k' = k then v else tget d r k

/-- The entries of a table without those whose key satisfies `p`. -/
def terase {α : Type} (p : Nat → Bool) (t : Tbl α) : Tbl α := t.filter (fun e => !p e.1)

/-- The table with `v` at `k`; a value that equals `d k` is not listed. In canonical form the key is at most once in the table, and
erasing it meets that entry alone; so a key holds what was last stored at it in any table. -/
def tset {α : Type} [DecidableEq α] (d : Nat → α) : Tbl α → Nat → α → Tbl α
  | [], k, v => if v = d k then [] else [(k, v)]
  | (k', v') :: r, k, v =>
    if k' = k then (if v = d k then terase (· == k) r else (k, v) :: r)
    else if k < k' then (if v = d k then (k', v') :: terase (· == k) r else (k, v) :: (k', v') :: r)
    else (k', v') :: tset d r k v

/-- The keys of a table rise strictly from above `lo` and no listed value is the one an unlisted key has. -/
def twfFrom {α : Type} [DecidableEq α] (d : Nat → α) : Option Nat → Tbl α → Bool
  | _, [] => true
  | lo, (k, v) :: r =>
    (match lo with | none => true | some l => decide (l < k)) && !decide (v = d k) && twfFrom d (some k) r

/-- The canonical form of a table. -/
def twf {α : Type} [DecidableEq α] (d : Nat → α) (t : Tbl α) : Bool := twfFrom d none t

/-- The byte of an address that nothing has written: zero. DESIGN CHOICE (log entry 4): the manual gives memory no
reset contents. -/
def byte0 : Nat → Byte := fun _ => 0

/-- The canonical form of a memory: addresses rise strictly and no listed byte is the one an unlisted address reads as. -/
def Memory.wf (t : Tbl Byte) : Bool := twf byte0 t

/-- `n` bytes from address `a` upward. -/
def getBytes (d : Nat → Byte) (t : Tbl Byte) (a : Nat) : Nat → List Byte
  | 0 => []
  | n + 1 => tget d t a :: getBytes d t (a + 1) n

/-- The table with `bs` from address `a` upward. -/
def putBytes (d : Nat → Byte) (t : Tbl Byte) (a : Nat) : List Byte → Tbl Byte
  | [] => t
  | b :: bs => putBytes d (tset d t a b) (a + 1) bs

/-- The number a byte string spells, least significant byte first (R8). -/
def leNat : List Byte → Nat
  | [] => 0
  | b :: bs => b.toNat + 256 * leNat bs

/-- `n` bytes that spell `x`, least significant first (R8). -/
def leBytes (n x : Nat) : List Byte :=
  match n with
  | 0 => []
  | n + 1 => BitVec.ofNat 8 x :: leBytes n (x / 256)

end Sys2Proof.Machine
end

