-- ==== Sys2Proof/Machine/Digest.lean ====
section
/-! DEFINITION. Digests and check codes: SHA-384 (R444, R504), the CRC-32 of IEEE 802.3 (R292, R449), the SMBus packet
error code (R458), the state digest of R213 and the pattern generator of R445. -/

namespace Sys2Proof.Machine

/-- The first primes: 80 of them lie below 410. FIPS 180-4 draws its constants from their roots. -/
def shaPrimes : List Nat := (List.range 410).filter fun n => decide (2 ≤ n) && (List.range n).all fun d => d < 2 || n % d != 0

/-- The integer cube root of a number below 2^(3 × 68), found bit by bit from the top. -/
def cubeRoot (n : Nat) : Nat :=
  (List.range 68).foldl (fun r i => let c := r + 2 ^ (67 - i); if c * c * c ≤ n then c else r) 0

/-- Round constants: the first 64 bits of the fractions of the primes' cube roots. -/
def shaK : List (BitVec 64) := shaPrimes.map fun p => BitVec.ofNat 64 (cubeRoot (p * 2 ^ 192))

/-- Initial hash value of SHA-384: the first 64 bits of the fractions of the square roots of the ninth to sixteenth primes. -/
def shaInit : List (BitVec 64) := ((shaPrimes.drop 8).take 8).map fun p => BitVec.ofNat 64 (Nat.sqrt (p * 2 ^ 128))

/-- The number that bytes spell, most significant first, and its inverse. -/
def beNat (bs : List Byte) : Nat := bs.foldl (fun a b => 256 * a + b.toNat) 0
def beBytes (n x : Nat) : List Byte := (leBytes n x).reverse

/-- A message padded for SHA-384: a one bit, zeros and the 128-bit length in bits. -/
def shaPad (bs : List Byte) : List Byte :=
  let n := bs.length
  bs ++ [0x80] ++ List.replicate ((111 + 128 - n % 128) % 128) 0 ++ beBytes 16 (8 * n)

/-- A list cut into pieces of `k` items. -/
def pieces {α : Type} (k : Nat) : Nat → List α → List (List α)
  | 0, _ => []
  | n + 1, l => l.take k :: pieces k n (l.drop k)

/-- Rotations of a word, and its shift by the last amount given, joined by exclusive or: the six functions of FIPS 180-4 are of this form. -/
def shaMix (rots : List Nat) (shift : Option Nat) (w : BitVec 64) : BitVec 64 :=
  rots.foldl (fun a r => a ^^^ w.rotateRight r) (match shift with | some k => w >>> k | none => 0)

/-- The words of the schedule that follow a window of sixteen, oldest first. -/
def shaMore : Nat → List (BitVec 64) → List (BitVec 64)
  | 0, _ => []
  | k + 1, win =>
    let at_ := fun i => win.getD i 0
    let next := [at_ 0, shaMix [1, 8] (some 7) (at_ 1), at_ 9, shaMix [19, 61] (some 6) (at_ 14)].sum
    next :: shaMore k (win.drop 1 ++ [next])

/-- One round. The working variables a to h are two halves of four, each of which moves down by one place: the new head of the second half
takes what leaves the first. -/
def shaRound (v : List (BitVec 64) × List (BitVec 64)) (kw : BitVec 64) : List (BitVec 64) × List (BitVec 64) :=
  match v with
  | ([a, b, c, d], [e, f, g, h]) =>
    let choose := g ^^^ (e &&& (f ^^^ g))
    let most := (a &&& (b ||| c)) ||| (b &&& c)
    let step := [h, shaMix [41, 18, 14] none e, choose, kw].sum
    ([step + shaMix [39, 34, 28] none a + most, a, b, c], [d + step, e, f, g])
  | _ => v

/-- One 128-byte block. -/
def shaBlock (h : List (BitVec 64)) (blk : List Byte) : List (BitVec 64) :=
  let first := (pieces 8 16 blk).map fun b => BitVec.ofNat 64 (beNat b)
  let out := (List.zipWith (· + ·) shaK (first ++ shaMore 64 first)).foldl shaRound (h.take 4, h.drop 4)
  List.zipWith (· + ·) h (out.1 ++ out.2)

/-- The SHA-384 digest, 48 bytes. -/
def sha384 (bs : List Byte) : List Byte :=
  let p := shaPad bs
  let h := (pieces 128 (p.length / 128) p).foldl shaBlock shaInit
  (h.take 6).flatMap fun x => beBytes 8 x.toNat

/-- One bit step of the reflected CRC-32. -/
def crcStep (c : BitVec 32) : BitVec 32 := if c.getLsbD 0 then (c >>> 1) ^^^ 0xEDB88320 else c >>> 1

/-- The IEEE 802.3 CRC-32 of a byte string. -/
def crc32 (bs : List Byte) : BitVec 32 :=
  ~~~(bs.foldl (fun c b => (List.range 8).foldl (fun c _ => crcStep c) (c ^^^ b.zeroExtend 32)) 0xFFFFFFFF)

/-- The SMBus packet error code: CRC-8 by x⁸ + x² + x + 1, most significant bit first, from 0 (R458). -/
def pec8 (bs : List Byte) : Byte :=
  bs.foldl (fun c b => (List.range 8).foldl
    (fun (c : Byte) _ => if c.getLsbD 7 then (c <<< 1) ^^^ 0x07 else c <<< 1) (c ^^^ b)) 0

/-- Multiplication by x modulo x¹²⁸ + x⁷ + x² + x + 1 (R213). -/
def gfTimesX (a : BitVec 128) : BitVec 128 := if a.getLsbD 127 then (a <<< 1) ^^^ 0x87 else a <<< 1

/-- Multiplication by x¹²⁸ = x⁷ + x² + x + 1 (R213). -/
def gfTimesX128 (a : BitVec 128) : BitVec 128 :=
  let a1 := gfTimesX a
  let a2 := gfTimesX a1
  let a7 := (List.range 5).foldl (fun c _ => gfTimesX c) a2
  a ^^^ a1 ^^^ a2 ^^^ a7

/-- The state digest over words w₀, w₁, … (R213), by Horner's rule from the last word. -/
def stateDigest : List (BitVec 128) → BitVec 128
  | [] => 0
  | w :: ws => gfTimesX128 (w ^^^ stateDigest ws)

/-- The state digest of a region of `n` 16-byte words of which `nz` lists those that are not zero, by index rising:
the words between are zero. -/
def stateDigestSparse (nz : List (Nat × BitVec 128)) : BitVec 128 :=
  let r := nz.reverse
  let s := r.foldl (fun (acc : BitVec 128 × Nat) e =>
    let a := (List.range (acc.2 - e.1)).foldl (fun c _ => gfTimesX128 c) acc.1
    (a ^^^ e.2, e.1)) ((0 : BitVec 128), (match r with | [] => 0 | e :: _ => e.1))
  (List.range (s.2 + 1)).foldl (fun c _ => gfTimesX128 c) s.1

/-- One step of the generator of R445. -/
def xorshift (x : BitVec 64) : BitVec 64 :=
  let x := x ^^^ (x <<< 13)
  let x := x ^^^ (x >>> 7)
  x ^^^ (x <<< 17)

/-- `n` operand bytes from a seed (R445). -/
def patternBytes (seed : BitVec 64) (n : Nat) : List Byte :=
  let go := (List.range ((n + 7) / 8)).foldl (fun (acc : BitVec 64 × List (List Byte)) _ =>
    let x := xorshift acc.1
    (x, leBytes 8 x.toNat :: acc.2)) (seed, [])
  (go.2.reverse.flatten).take n

end Sys2Proof.Machine
end

