-- ==== Sys2Proof/Machine/RegMap.lean ====
section
/-! DEFINITION. The register map: for every register of the manual's block tables, its offset in its block, how often
it is repeated, and the bit masks of its access types (R462). One list per block of R461; the rule of each list is the
block's own register table. -/

namespace Sys2Proof.Machine

/-- One register of a block table: offset in the block, number of copies, distance between copies, and the masks of its
RW, RO, WO and W1S bits (R462). Every other bit is reserved (R11). `reset` is the reset column; a value that the table
names by copy (CORE.ID, LNK shares) or takes from flash, HBM or silicon is 0 here. -/
structure RegDef where
  off : Nat
  copies : Nat
  stride : Nat
  rw : Nat
  ro : Nat
  wo : Nat
  w1s : Nat
  reset : Nat
deriving DecidableEq, Repr

/-- GEN registers (R479). -/
def regMapGEN : List RegDef := [
  ⟨0x0, 1, 0x4, 0x0, 0xFFFFF, 0x0, 0x0, 0x8812⟩,
  ⟨0x8, 1, 0x4, 0x0, 0x0, 0x0, 0x3F, 0x0⟩,
  ⟨0x10, 1, 0x4, 0x0, 0x7FFFF, 0x0, 0x0, 0x0⟩,
  ⟨0x14, 4, 0x4, 0x0, 0xFFFFFFFF, 0x0, 0x0, 0x0⟩,
  ⟨0x24, 1, 0x4, 0xFFFFF, 0x0, 0x0, 0x0, 0xFFFFF⟩,
  ⟨0x30, 1, 0x4, 0xFFFF, 0x1FF0000, 0x0, 0x0, 0x0⟩,
  ⟨0x34, 1, 0x4, 0x0, 0xFFFFFF, 0x0, 0x0, 0x0⟩,
  ⟨0x38, 1, 0x4, 0x0, 0x1FFF, 0x0, 0x0, 0x0⟩,
  ⟨0x40, 4, 0x4, 0xFFFFFFFF, 0x0, 0x0, 0x0, 0x0⟩]

/-- CFG registers (R480). -/
def regMapCFG : List RegDef := [
  ⟨0x0, 1, 0x4, 0x0, 0xFFFFFFFF, 0x0, 0x0, 0x0⟩,
  ⟨0x4, 1, 0x4, 0x1F7F, 0x0, 0x0, 0x0, 0x0⟩,
  ⟨0x8, 1, 0x4, 0xFFFFFFFF, 0x0, 0x0, 0x0, 0x0⟩,
  ⟨0xC, 1, 0x4, 0xFFFFFFFF, 0x0, 0x0, 0x0, 0x0⟩]

/-- SNAP registers (R482). -/
def regMapSNAP : List RegDef := [
  ⟨0x0, 1, 0x4, 0x0, 0x0, 0x1, 0x0, 0x0⟩,
  ⟨0x4, 1, 0x4, 0x0, 0xFFFF0001, 0x0, 0x0, 0x0⟩,
  ⟨0x8, 1, 0x4, 0x0, 0xFFFF, 0x0, 0x0, 0x0⟩,
  ⟨0x10, 1, 0x4, 0x0, 0x7FFFF, 0x0, 0x0, 0x0⟩,
  ⟨0x14, 4, 0x4, 0x0, 0xFFFFFFFF, 0x0, 0x0, 0x0⟩,
  ⟨0x30, 1, 0x4, 0x0, 0x7, 0x0, 0x0, 0x0⟩,
  ⟨0x40, 1, 0x4, 0x0, 0xFFFFFFFF, 0x0, 0x0, 0x0⟩,
  ⟨0x44, 1, 0x4, 0x0, 0xFFFF, 0x0, 0x0, 0x0⟩,
  ⟨0x48, 1, 0x4, 0x0, 0x3FFFFFF, 0x0, 0x0, 0x0⟩,
  ⟨0x100, 16, 0x4, 0x0, 0xFFFFFFFF, 0x0, 0x0, 0x0⟩,
  ⟨0x800, 512, 0x4, 0x0, 0xFFFFFFFF, 0x0, 0x0, 0x0⟩]

/-- RST registers (R435), part 0. -/
def regMapRST0 : List RegDef := [
  ⟨0x0, 1, 0x4, 0x1, 0x0, 0x0, 0x0, 0x0⟩,
  ⟨0x4, 1, 0x4, 0x0, 0xF, 0x0, 0x0, 0x0⟩,
  ⟨0x8, 1, 0x4, 0x0, 0x0, 0x3, 0x0, 0x0⟩,
  ⟨0x10, 1, 0x4, 0xFFFF, 0xFF0000, 0x0, 0x0, 0x0⟩,
  ⟨0x14, 1, 0x4, 0x0, 0xFFFF, 0x0, 0x0, 0x0⟩,
  ⟨0x18, 1, 0x4, 0x3FFF, 0x0, 0x0, 0x0, 0x1F4⟩,
  ⟨0x1C, 1, 0x4, 0x3F, 0x0, 0x0, 0x0, 0x5⟩,
  ⟨0x20, 1, 0x4, 0xFFFFFF, 0x0, 0x0, 0x0, 0x186A0⟩,
  ⟨0x24, 1, 0x4, 0xFFFFFF, 0x0, 0x0, 0x0, 0x2710⟩,
  ⟨0x28, 1, 0x4, 0xFFFFFF, 0x0, 0x0, 0x0, 0x4E20⟩,
  ⟨0x2C, 1, 0x4, 0xFFFFFF, 0x0, 0x0, 0x0, 0x186A0⟩,
  ⟨0x30, 1, 0x4, 0xFF, 0x0, 0x0, 0x0, 0x0⟩,
  ⟨0x34, 1, 0x4, 0x0, 0xFFFFFFFF, 0x0, 0x0, 0x0⟩,
  ⟨0x38, 1, 0x4, 0x0, 0xFFFFFFFF, 0x0, 0x0, 0x0⟩,
  ⟨0x40, 5, 0x4, 0x0, 0xFFFFFFFF, 0x0, 0x0, 0x0⟩,
  ⟨0x100, 1, 0x4, 0x0, 0xFFFFFFFF, 0x0, 0x0, 0x0⟩,
  ⟨0x104, 1, 0x4, 0x0, 0xFFFFFFFF, 0x0, 0x0, 0x0⟩,
  ⟨0x108, 1, 0x4, 0x0, 0xFFFFFFFF, 0x0, 0x0, 0x0⟩,
  ⟨0x10C, 1, 0x4, 0x0, 0xFFFFFFFF, 0x0, 0x0, 0x0⟩,
  ⟨0x110, 1, 0x4, 0x0, 0xFFFFFFFF, 0x0, 0x0, 0x0⟩,
  ⟨0x114, 1, 0x4, 0x0, 0xFFFFFFFF, 0x0, 0x0, 0x0⟩,
  ⟨0x118, 1, 0x4, 0x0, 0xFFFFFFFF, 0x0, 0x0, 0x0⟩,
  ⟨0x11C, 1, 0x4, 0x0, 0xFFFFFFFF, 0x0, 0x0, 0x0⟩,
  ⟨0x120, 1, 0x4, 0x0, 0xFFFFFFFF, 0x0, 0x0, 0x0⟩]

/-- RST registers (R435), part 1. -/
def regMapRST1 : List RegDef := [
  ⟨0x124, 1, 0x4, 0x0, 0xFFFFFFFF, 0x0, 0x0, 0x0⟩]

/-- RST registers (R435). -/
def regMapRST : List RegDef := regMapRST0 ++ regMapRST1

/-- PWR registers (R515). -/
def regMapPWR : List RegDef := [
  ⟨0x0, 1, 0x4, 0x0, 0xF, 0x0, 0x0, 0x1⟩,
  ⟨0x10, 1, 0x4, 0xFFFF, 0xFF0000, 0x0, 0x0, 0x0⟩,
  ⟨0x20, 3, 0x4, 0x3FF, 0x0, 0x0, 0x0, 0x0⟩,
  ⟨0x30, 3, 0x4, 0x0, 0xFF03FF, 0x0, 0x0, 0x0⟩,
  ⟨0x40, 1, 0x4, 0x0, 0xFFFFFFFF, 0x0, 0x0, 0x0⟩,
  ⟨0x100, 1, 0x4, 0x0, 0xFFFFFFFF, 0x0, 0x0, 0x0⟩,
  ⟨0x104, 1, 0x4, 0x0, 0xFFFFFFFF, 0x0, 0x0, 0x0⟩,
  ⟨0x108, 1, 0x4, 0x0, 0xFFFFFFFF, 0x0, 0x0, 0x0⟩,
  ⟨0x10C, 1, 0x4, 0x0, 0xFFFFFFFF, 0x0, 0x0, 0x0⟩]

/-- SEC registers (R516). -/
def regMapSEC : List RegDef := [
  ⟨0x0, 1, 0x4, 0x0, 0x3F, 0x0, 0x0, 0x0⟩,
  ⟨0x4, 1, 0x4, 0x0, 0xFFFFFFFF, 0x0, 0x0, 0x0⟩,
  ⟨0x10, 1, 0x4, 0xFFFF, 0xFF0000, 0x0, 0x0, 0x0⟩,
  ⟨0x14, 1, 0x4, 0x0, 0x1F, 0x0, 0x0, 0x0⟩,
  ⟨0x20, 1, 0x4, 0x1D, 0x0, 0x2, 0x0, 0x19⟩,
  ⟨0x24, 1, 0x4, 0x0, 0x1FFFFFF, 0x0, 0x0, 0x0⟩,
  ⟨0x28, 1, 0x4, 0x0, 0x0, 0x3F, 0x0, 0x0⟩,
  ⟨0x40, 8, 0x4, 0xFFFFFFFF, 0x0, 0x0, 0x0, 0x0⟩,
  ⟨0x60, 1, 0x4, 0x0, 0x0, 0x1, 0x0, 0x0⟩,
  ⟨0x64, 1, 0x4, 0x0, 0x3, 0x0, 0x0, 0x0⟩,
  ⟨0x100, 64, 0x4, 0x0, 0xFFFFFFFF, 0x0, 0x0, 0x0⟩,
  ⟨0x800, 256, 0x4, 0x0, 0x0, 0xFFFFFFFF, 0x0, 0x0⟩]

/-- TST registers (R455), part 0. -/
def regMapTST0 : List RegDef := [
  ⟨0x0, 1, 0x4, 0x1, 0x0, 0x0, 0x0, 0x0⟩,
  ⟨0x4, 1, 0x4, 0x0, 0xFFFF, 0x0, 0x0, 0x0⟩,
  ⟨0x10, 1, 0x4, 0xFFFF, 0xFF0000, 0x0, 0x0, 0x0⟩,
  ⟨0x14, 1, 0x4, 0x0, 0x71FFF, 0x0, 0x0, 0x0⟩,
  ⟨0x20, 1, 0x4, 0xFF7F, 0x0, 0x0, 0x0, 0x100⟩,
  ⟨0x24, 1, 0x4, 0x3FF, 0x0, 0x0, 0x0, 0x2BC⟩,
  ⟨0x28, 1, 0x4, 0xFF, 0x0, 0x0, 0x0, 0x0⟩,
  ⟨0x2C, 5, 0x4, 0xFFFFFFFF, 0x0, 0x0, 0x0, 0x0⟩,
  ⟨0x40, 1, 0x4, 0x0, 0x0, 0x3, 0x0, 0x0⟩,
  ⟨0x44, 1, 0x4, 0xFF, 0x0, 0x0, 0x0, 0x0⟩,
  ⟨0x48, 1, 0x4, 0x0, 0xFFFFFFFF, 0x0, 0x0, 0x0⟩,
  ⟨0x50, 4, 0x4, 0x0, 0xFFFFFFFF, 0x0, 0x0, 0x0⟩,
  ⟨0x60, 1, 0x4, 0xFFFF, 0x0, 0x0, 0x0, 0x1E3⟩,
  ⟨0x64, 1, 0x4, 0x0, 0xFFFFFF, 0x0, 0x0, 0x0⟩,
  ⟨0x68, 1, 0x4, 0xFF, 0x0, 0x80000000, 0x0, 0x0⟩,
  ⟨0x6C, 1, 0x4, 0x0, 0xFF07, 0x0, 0x0, 0x0⟩,
  ⟨0x70, 1, 0x4, 0x0, 0x0, 0x1, 0x0, 0x0⟩,
  ⟨0x74, 1, 0x4, 0x0, 0xFFFFFFFF, 0x0, 0x0, 0x0⟩,
  ⟨0x80, 1, 0x4, 0x7FFFFFFF, 0x0, 0x80000000, 0x0, 0x0⟩,
  ⟨0x84, 1, 0x4, 0x0, 0xFFFFFFFF, 0x0, 0x0, 0x0⟩,
  ⟨0x90, 8, 0x4, 0x0, 0xFFFFFFFF, 0x0, 0x0, 0x0⟩,
  ⟨0x100, 1, 0x4, 0x0, 0xFFFFFFFF, 0x0, 0x0, 0x0⟩,
  ⟨0x104, 1, 0x4, 0x0, 0xFFFFFFFF, 0x0, 0x0, 0x0⟩,
  ⟨0x108, 1, 0x4, 0x0, 0xFFFFFFFF, 0x0, 0x0, 0x0⟩]

/-- TST registers (R455), part 1. -/
def regMapTST1 : List RegDef := [
  ⟨0x10C, 1, 0x4, 0x0, 0xFFFFFFFF, 0x0, 0x0, 0x0⟩,
  ⟨0x110, 1, 0x4, 0x0, 0xFFFFFFFF, 0x0, 0x0, 0x0⟩,
  ⟨0x114, 1, 0x4, 0x0, 0xFFFFFFFF, 0x0, 0x0, 0x0⟩,
  ⟨0x118, 1, 0x4, 0x0, 0xFFFFFFFF, 0x0, 0x0, 0x0⟩,
  ⟨0x11C, 1, 0x4, 0x0, 0xFFFFFFFF, 0x0, 0x0, 0x0⟩,
  ⟨0x120, 1, 0x4, 0x0, 0xFFFFFFFF, 0x0, 0x0, 0x0⟩,
  ⟨0x124, 1, 0x4, 0x0, 0xFFFFFFFF, 0x0, 0x0, 0x0⟩]

/-- TST registers (R455). -/
def regMapTST : List RegDef := regMapTST0 ++ regMapTST1

/-- DBG registers (R126, R495), part 0. -/
def regMapDBG0 : List RegDef := [
  ⟨0x0, 1, 0x4, 0x0, 0x0, 0x3, 0x0, 0x0⟩,
  ⟨0x4, 1, 0x4, 0x0, 0x1, 0x0, 0x0, 0x0⟩,
  ⟨0x10, 1, 0x4, 0xFFFF, 0xFF0000, 0x0, 0x0, 0x0⟩,
  ⟨0x20, 1, 0x4, 0x3, 0x0, 0x0, 0x0, 0x0⟩,
  ⟨0x24, 1, 0x4, 0xFE, 0x0, 0x0, 0x0, 0x0⟩,
  ⟨0x28, 1, 0x4, 0xFFF, 0x0, 0x0, 0x0, 0x0⟩,
  ⟨0x30, 4, 0x4, 0xFFFFFFFF, 0x0, 0x0, 0x0, 0x0⟩,
  ⟨0x40, 1, 0x4, 0xFFFF0000, 0x0, 0x0, 0x0, 0x0⟩,
  ⟨0x44, 1, 0x4, 0xFFFF, 0x0, 0x0, 0x0, 0x0⟩,
  ⟨0x48, 1, 0x4, 0xFFFF, 0x0, 0x0, 0x0, 0x0⟩,
  ⟨0x4C, 1, 0x4, 0x0, 0xFFFFFFFF, 0x0, 0x0, 0x0⟩,
  ⟨0x50, 1, 0x4, 0xFFFFFFFF, 0x0, 0x0, 0x0, 0x0⟩,
  ⟨0x54, 1, 0x4, 0xFFFFFFFC, 0x0, 0x0, 0x0, 0x0⟩,
  ⟨0x58, 1, 0x4, 0x1FFFF, 0x0, 0x0, 0x0, 0x0⟩,
  ⟨0x5C, 1, 0x4, 0x0, 0xFFFF, 0x0, 0x0, 0x0⟩,
  ⟨0x60, 1, 0x4, 0x0, 0x7FFFFFF, 0x0, 0x0, 0x0⟩,
  ⟨0x100, 1, 0x4, 0x0, 0xFFFFFFFF, 0x0, 0x0, 0x0⟩,
  ⟨0x104, 1, 0x4, 0x0, 0xFFFFFFFF, 0x0, 0x0, 0x0⟩,
  ⟨0x108, 1, 0x4, 0x0, 0xFFFFFFFF, 0x0, 0x0, 0x0⟩,
  ⟨0x10C, 1, 0x4, 0x0, 0xFFFFFFFF, 0x0, 0x0, 0x0⟩,
  ⟨0x110, 1, 0x4, 0x0, 0xFFFFFFFF, 0x0, 0x0, 0x0⟩,
  ⟨0x114, 1, 0x4, 0x0, 0xFFFFFFFF, 0x0, 0x0, 0x0⟩,
  ⟨0x118, 1, 0x4, 0x0, 0xFFFFFFFF, 0x0, 0x0, 0x0⟩,
  ⟨0x11C, 1, 0x4, 0x0, 0xFFFFFFFF, 0x0, 0x0, 0x0⟩]

/-- DBG registers (R126, R495), part 1. -/
def regMapDBG1 : List RegDef := [
  ⟨0x120, 1, 0x4, 0x0, 0xFFFFFFFF, 0x0, 0x0, 0x0⟩,
  ⟨0x124, 1, 0x4, 0x0, 0xFFFFFFFF, 0x0, 0x0, 0x0⟩,
  ⟨0x128, 1, 0x4, 0x0, 0xFFFFFFFF, 0x0, 0x0, 0x0⟩,
  ⟨0x12C, 1, 0x4, 0x0, 0xFFFFFFFF, 0x0, 0x0, 0x0⟩,
  ⟨0x130, 1, 0x4, 0x0, 0xFFFFFFFF, 0x0, 0x0, 0x0⟩,
  ⟨0x134, 1, 0x4, 0x0, 0xFFFFFFFF, 0x0, 0x0, 0x0⟩,
  ⟨0x200, 1, 0x4, 0x701FF7F, 0x0, 0x80000000, 0x0, 0x0⟩,
  ⟨0x204, 1, 0x4, 0x0, 0xFF1F07, 0x0, 0x0, 0x0⟩,
  ⟨0x208, 1, 0x4, 0x0, 0x7FFF, 0x0, 0x0, 0x0⟩,
  ⟨0x210, 16, 0x4, 0x0, 0xFFFFFFFF, 0x0, 0x0, 0x0⟩,
  ⟨0x400, 128, 0x18, 0x0, 0xFFFFFFFF, 0x0, 0x0, 0x0⟩,
  ⟨0x404, 128, 0x18, 0x0, 0xFFFFFFFF, 0x0, 0x0, 0x0⟩,
  ⟨0x408, 128, 0x18, 0x0, 0xFFFFFFFF, 0x0, 0x0, 0x0⟩,
  ⟨0x40C, 128, 0x18, 0x0, 0xFFFFFFFF, 0x0, 0x0, 0x0⟩,
  ⟨0x410, 128, 0x18, 0x0, 0xFFFFFFFF, 0x0, 0x0, 0x0⟩,
  ⟨0x414, 128, 0x18, 0x0, 0xFFFFFFFF, 0x0, 0x0, 0x0⟩]

/-- DBG registers (R126, R495). -/
def regMapDBG : List RegDef := regMapDBG0 ++ regMapDBG1

/-- VIN registers (R342). -/
def regMapVIN : List RegDef := [
  ⟨0x0, 1, 0x4, 0x1, 0x0, 0x0, 0x0, 0x0⟩,
  ⟨0x4, 1, 0x4, 0x0, 0x7F, 0x0, 0x0, 0x40⟩,
  ⟨0x10, 1, 0x4, 0xFFFF, 0xFF0000, 0x0, 0x0, 0x0⟩,
  ⟨0x100, 1, 0x4, 0x0, 0xFFFFFFFF, 0x0, 0x0, 0x0⟩,
  ⟨0x104, 1, 0x4, 0x0, 0xFFFFFFFF, 0x0, 0x0, 0x0⟩,
  ⟨0x108, 1, 0x4, 0x0, 0xFFFFFFFF, 0x0, 0x0, 0x0⟩,
  ⟨0x10C, 1, 0x4, 0x0, 0xFFFF, 0x0, 0x0, 0x0⟩,
  ⟨0x110, 1, 0x4, 0x0, 0xFFFFFFFF, 0x0, 0x0, 0x0⟩,
  ⟨0x114, 1, 0x4, 0x0, 0xFFFF, 0x0, 0x0, 0x0⟩,
  ⟨0x118, 1, 0x4, 0x0, 0xFFFFFFFF, 0x0, 0x0, 0x0⟩,
  ⟨0x11C, 1, 0x4, 0x0, 0xFFFFFFFF, 0x0, 0x0, 0x0⟩,
  ⟨0x120, 1, 0x4, 0x0, 0xFFFFFFFF, 0x0, 0x0, 0x0⟩]

/-- TOR registers (R340), part 0. -/
def regMapTOR0 : List RegDef := [
  ⟨0x0, 1, 0x4, 0x1, 0x0, 0x0, 0x0, 0x0⟩,
  ⟨0x4, 1, 0x4, 0x1FFF, 0x0, 0x0, 0x0, 0x0⟩,
  ⟨0x8, 1, 0x4, 0xFFFF, 0x0, 0x0, 0x0, 0x8420⟩,
  ⟨0xC, 1, 0x4, 0xF0F1F, 0x0, 0x0, 0x0, 0x0⟩,
  ⟨0x10, 1, 0x4, 0x1F1F3F, 0x0, 0x0, 0x0, 0x10101⟩,
  ⟨0x14, 1, 0x4, 0x0, 0xFFFF, 0x0, 0x0, 0x0⟩,
  ⟨0x20, 1, 0x4, 0xFFFF, 0xFF0000, 0x0, 0x0, 0x0⟩,
  ⟨0x24, 1, 0x4, 0x0, 0xFFFFFF, 0x0, 0x0, 0x0⟩,
  ⟨0x30, 1, 0x4, 0x1FFF1FFF, 0x0, 0x0, 0x0, 0x0⟩,
  ⟨0x34, 1, 0x4, 0x0, 0x1, 0x0, 0x0, 0x0⟩,
  ⟨0x38, 1, 0x4, 0xFFE00000, 0x0, 0x0, 0x0, 0x0⟩,
  ⟨0x3C, 1, 0x4, 0xFFFF, 0x0, 0x0, 0x0, 0x0⟩,
  ⟨0x40, 1, 0x4, 0xFFFF, 0x0, 0x0, 0x0, 0x0⟩,
  ⟨0x44, 1, 0x4, 0xFFFFFFE0, 0x0, 0x0, 0x0, 0x0⟩,
  ⟨0x48, 1, 0x4, 0xFFFFFFFF, 0x0, 0x0, 0x0, 0x0⟩,
  ⟨0x4C, 1, 0x4, 0x0, 0xFFFFFFFF, 0x0, 0x0, 0x0⟩,
  ⟨0x100, 32, 0x10, 0x0, 0x9FFF1FFF, 0x0, 0x0, 0x0⟩,
  ⟨0x104, 32, 0x10, 0x0, 0xFFFFFFFF, 0x0, 0x0, 0x0⟩,
  ⟨0x108, 32, 0x10, 0x0, 0xFFFFFFFF, 0x0, 0x0, 0x0⟩,
  ⟨0x300, 1, 0x4, 0x1, 0x0, 0x2, 0x0, 0x0⟩,
  ⟨0x304, 1, 0x4, 0xFFFFFFC0, 0x0, 0x0, 0x0, 0x0⟩,
  ⟨0x308, 1, 0x4, 0xFFFFFFFF, 0x0, 0x0, 0x0, 0x0⟩,
  ⟨0x30C, 1, 0x4, 0xFFFFFFFC, 0x0, 0x0, 0x0, 0x0⟩,
  ⟨0x310, 1, 0x4, 0x1FFFF, 0x0, 0x0, 0x0, 0x0⟩]

/-- TOR registers (R340), part 1. -/
def regMapTOR1 : List RegDef := [
  ⟨0x314, 1, 0x4, 0x0, 0x1FFFF, 0x0, 0x0, 0x0⟩,
  ⟨0x318, 1, 0x4, 0x0, 0xFFFFFFFF, 0x0, 0x0, 0x0⟩,
  ⟨0x400, 1, 0x4, 0x0, 0xFFFFFFFF, 0x0, 0x0, 0x0⟩,
  ⟨0x404, 1, 0x4, 0x0, 0xFFFFFFFF, 0x0, 0x0, 0x0⟩,
  ⟨0x408, 1, 0x4, 0x0, 0xFFFFFFFF, 0x0, 0x0, 0x0⟩,
  ⟨0x40C, 1, 0x4, 0x0, 0xFFFFFFFF, 0x0, 0x0, 0x0⟩,
  ⟨0x410, 1, 0x4, 0x0, 0xFFFFFFFF, 0x0, 0x0, 0x0⟩,
  ⟨0x414, 1, 0x4, 0x0, 0xFFFFFFFF, 0x0, 0x0, 0x0⟩,
  ⟨0x418, 1, 0x4, 0x0, 0xFFFFFFFF, 0x0, 0x0, 0x0⟩,
  ⟨0x41C, 1, 0x4, 0x0, 0xFFFFFFFF, 0x0, 0x0, 0x0⟩]

/-- TOR registers (R340). -/
def regMapTOR : List RegDef := regMapTOR0 ++ regMapTOR1

/-- LNK registers (R315), part 0. -/
def regMapLNK0 : List RegDef := [
  ⟨0x0, 1, 0x4, 0xF, 0x0, 0x0, 0x0, 0xF⟩,
  ⟨0x10, 1, 0x4, 0xFFFF, 0xFF0000, 0x0, 0x0, 0x0⟩,
  ⟨0x14, 1, 0x4, 0x0, 0x1FFF07, 0x0, 0x0, 0x0⟩,
  ⟨0x100, 8, 0x80, 0x7F03, 0x0, 0x1C, 0x0, 0x4900⟩,
  ⟨0x104, 8, 0x80, 0x0, 0x3FFFFFFF, 0x0, 0x0, 0x0⟩,
  ⟨0x108, 8, 0x80, 0x0, 0xFF, 0x0, 0x0, 0x0⟩,
  ⟨0x110, 8, 0x80, 0x3FF03FF, 0x0, 0x0, 0x0, 0x0⟩,
  ⟨0x114, 8, 0x80, 0x3FF03FF, 0x0, 0x0, 0x0, 0x0⟩,
  ⟨0x118, 8, 0x80, 0x3FF03FF, 0x0, 0x0, 0x0, 0x0⟩,
  ⟨0x11C, 8, 0x80, 0x3FF03FF, 0x0, 0x0, 0x0, 0x0⟩,
  ⟨0x120, 8, 0x80, 0x0, 0xFFFF, 0x0, 0x0, 0x0⟩,
  ⟨0x140, 8, 0x80, 0x0, 0xFFFFFFFF, 0x0, 0x0, 0x0⟩,
  ⟨0x144, 8, 0x80, 0x0, 0xFFFFFFFF, 0x0, 0x0, 0x0⟩,
  ⟨0x148, 8, 0x80, 0x0, 0xFFFFFFFF, 0x0, 0x0, 0x0⟩,
  ⟨0x14C, 8, 0x80, 0x0, 0xFFFFFFFF, 0x0, 0x0, 0x0⟩,
  ⟨0x150, 8, 0x80, 0x0, 0xFFFFFFFF, 0x0, 0x0, 0x0⟩,
  ⟨0x154, 8, 0x80, 0x0, 0xFFFFFFFF, 0x0, 0x0, 0x0⟩,
  ⟨0x158, 8, 0x80, 0x0, 0xFFFFFFFF, 0x0, 0x0, 0x0⟩,
  ⟨0x15C, 8, 0x80, 0x0, 0xFFFFFFFF, 0x0, 0x0, 0x0⟩,
  ⟨0x160, 8, 0x80, 0x0, 0xFFFFFFFF, 0x0, 0x0, 0x0⟩,
  ⟨0x164, 8, 0x80, 0x0, 0xFFFFFFFF, 0x0, 0x0, 0x0⟩,
  ⟨0x168, 8, 0x80, 0x0, 0xFFFFFFFF, 0x0, 0x0, 0x0⟩,
  ⟨0x16C, 8, 0x80, 0x0, 0xFFFFFFFF, 0x0, 0x0, 0x0⟩,
  ⟨0x170, 8, 0x80, 0x0, 0xFFFFFFFF, 0x0, 0x0, 0x0⟩]

/-- LNK registers (R315), part 1. -/
def regMapLNK1 : List RegDef := [
  ⟨0x174, 8, 0x80, 0x0, 0xFFFFFFFF, 0x0, 0x0, 0x0⟩,
  ⟨0x178, 8, 0x80, 0x0, 0xFFFFFFFF, 0x0, 0x0, 0x0⟩,
  ⟨0x17C, 8, 0x80, 0x0, 0xFFFFFFFF, 0x0, 0x0, 0x0⟩]

/-- LNK registers (R315). -/
def regMapLNK : List RegDef := regMapLNK0 ++ regMapLNK1

/-- DUP registers (R387), part 0. -/
def regMapDUP0 : List RegDef := [
  ⟨0x0, 1, 0x4, 0x3, 0x0, 0x1C, 0x0, 0x0⟩,
  ⟨0x4, 1, 0x4, 0x0, 0x7F, 0x0, 0x0, 0x0⟩,
  ⟨0x8, 1, 0x4, 0x1FFF, 0x0, 0x0, 0x0, 0x0⟩,
  ⟨0xC, 1, 0x4, 0xFFFF, 0x0, 0x0, 0x0, 0x0⟩,
  ⟨0x10, 1, 0x4, 0xFFFF, 0xFF0000, 0x0, 0x0, 0x0⟩,
  ⟨0x14, 1, 0x4, 0x0, 0xF1FFF, 0x0, 0x0, 0x0⟩,
  ⟨0x18, 1, 0x4, 0x0, 0xFFFFFFFF, 0x0, 0x0, 0x0⟩,
  ⟨0x1C, 1, 0x4, 0x0, 0xFFFF, 0x0, 0x0, 0x0⟩,
  ⟨0x20, 1, 0x4, 0x0, 0x0, 0x3F, 0x0, 0x0⟩,
  ⟨0x24, 1, 0x4, 0xFFFF, 0x0, 0x0, 0x0, 0x0⟩,
  ⟨0x28, 1, 0x4, 0xFFE00000, 0x0, 0x0, 0x0, 0x0⟩,
  ⟨0x2C, 1, 0x4, 0xFFFF, 0x0, 0x0, 0x0, 0x0⟩,
  ⟨0x30, 1, 0x4, 0x7F, 0x0, 0x0, 0x0, 0x0⟩,
  ⟨0x34, 1, 0x4, 0xFFFFFFC0, 0x0, 0x0, 0x0, 0x0⟩,
  ⟨0x38, 1, 0x4, 0xFFFF, 0x0, 0x0, 0x0, 0x0⟩,
  ⟨0x3C, 1, 0x4, 0xFFFFFFC0, 0x0, 0x0, 0x0, 0x0⟩,
  ⟨0x40, 1, 0x4, 0xFFFF, 0x0, 0x0, 0x0, 0x0⟩,
  ⟨0x44, 1, 0x4, 0xFFFFFFC0, 0x0, 0x0, 0x0, 0x0⟩,
  ⟨0x48, 1, 0x4, 0xFFFFFFFF, 0x0, 0x0, 0x0, 0x0⟩,
  ⟨0x4C, 1, 0x4, 0x3FF, 0x0, 0x0, 0x0, 0x64⟩,
  ⟨0x50, 1, 0x4, 0x1FFF, 0x0, 0x0, 0x0, 0x0⟩,
  ⟨0x54, 1, 0x4, 0xFFFFFFFF, 0x0, 0x0, 0x0, 0x0⟩,
  ⟨0x58, 1, 0x4, 0xFFFF, 0x0, 0x0, 0x0, 0x0⟩,
  ⟨0x5C, 1, 0x4, 0x1FF, 0x0, 0x0, 0x0, 0x50⟩]

/-- DUP registers (R387), part 1. -/
def regMapDUP1 : List RegDef := [
  ⟨0x60, 1, 0x4, 0x0, 0x3FFFFFF, 0x0, 0x0, 0x0⟩,
  ⟨0x64, 1, 0x4, 0xFFE00000, 0x0, 0x0, 0x0, 0x0⟩,
  ⟨0x68, 1, 0x4, 0xFFFF, 0x0, 0x0, 0x0, 0x0⟩,
  ⟨0x6C, 1, 0x4, 0x3FFFF, 0x0, 0x0, 0x0, 0x0⟩,
  ⟨0x100, 1, 0x4, 0x0, 0xFFFFFFFF, 0x0, 0x0, 0x0⟩,
  ⟨0x104, 1, 0x4, 0x0, 0xFFFFFFFF, 0x0, 0x0, 0x0⟩,
  ⟨0x108, 1, 0x4, 0x0, 0xFFFFFFFF, 0x0, 0x0, 0x0⟩,
  ⟨0x10C, 1, 0x4, 0x0, 0xFFFFFFFF, 0x0, 0x0, 0x0⟩,
  ⟨0x110, 1, 0x4, 0x0, 0xFFFFFFFF, 0x0, 0x0, 0x0⟩,
  ⟨0x114, 1, 0x4, 0x0, 0xFFFFFFFF, 0x0, 0x0, 0x0⟩,
  ⟨0x118, 1, 0x4, 0x0, 0xFFFFFFFF, 0x0, 0x0, 0x0⟩,
  ⟨0x11C, 1, 0x4, 0x0, 0xFFFFFFFF, 0x0, 0x0, 0x0⟩,
  ⟨0x120, 1, 0x4, 0x0, 0xFFFFFFFF, 0x0, 0x0, 0x0⟩,
  ⟨0x124, 1, 0x4, 0x0, 0xFFFFFFFF, 0x0, 0x0, 0x0⟩,
  ⟨0x128, 1, 0x4, 0x0, 0xFFFFFFFF, 0x0, 0x0, 0x0⟩,
  ⟨0x12C, 1, 0x4, 0x0, 0xFFFFFFFF, 0x0, 0x0, 0x0⟩,
  ⟨0x130, 1, 0x4, 0x0, 0xFFFFFFFF, 0x0, 0x0, 0x0⟩,
  ⟨0x134, 1, 0x4, 0x0, 0xFFFFFFFF, 0x0, 0x0, 0x0⟩]

/-- DUP registers (R387). -/
def regMapDUP : List RegDef := regMapDUP0 ++ regMapDUP1

/-- LDG registers (R389). -/
def regMapLDG : List RegDef := [
  ⟨0x0, 1, 0x4, 0x1, 0x0, 0x0, 0x0, 0x0⟩,
  ⟨0x4, 1, 0x4, 0x7FF, 0x0, 0x0, 0x0, 0x0⟩,
  ⟨0x8, 1, 0x4, 0xFF, 0x0, 0x0, 0x0, 0x2⟩,
  ⟨0x10, 1, 0x4, 0xFFFF, 0xFF0000, 0x0, 0x0, 0x0⟩,
  ⟨0x14, 1, 0x4, 0x0, 0xFFFFFFFF, 0x0, 0x0, 0x0⟩,
  ⟨0x18, 1, 0x4, 0x0, 0xFFFF, 0x0, 0x0, 0x0⟩,
  ⟨0x20, 1, 0x4, 0x0, 0x3, 0x0, 0x0, 0x0⟩,
  ⟨0x24, 1, 0x4, 0x0, 0x1FFFFFFF, 0x0, 0x0, 0x0⟩,
  ⟨0x28, 1, 0x4, 0x0, 0x1FFFFFFF, 0x0, 0x0, 0x0⟩,
  ⟨0x100, 1, 0x4, 0x0, 0xFFFFFFFF, 0x0, 0x0, 0x0⟩,
  ⟨0x104, 1, 0x4, 0x0, 0xFFFFFFFF, 0x0, 0x0, 0x0⟩,
  ⟨0x108, 1, 0x4, 0x0, 0xFFFFFFFF, 0x0, 0x0, 0x0⟩,
  ⟨0x10C, 1, 0x4, 0x0, 0xFFFFFFFF, 0x0, 0x0, 0x0⟩,
  ⟨0x110, 1, 0x4, 0x0, 0xFFFFFFFF, 0x0, 0x0, 0x0⟩,
  ⟨0x114, 1, 0x4, 0x0, 0xFFFFFFFF, 0x0, 0x0, 0x0⟩,
  ⟨0x118, 1, 0x4, 0x0, 0xFFFFFFFF, 0x0, 0x0, 0x0⟩,
  ⟨0x11C, 1, 0x4, 0x0, 0xFFFFFFFF, 0x0, 0x0, 0x0⟩]

/-- BLB registers (R411), part 0. -/
def regMapBLB0 : List RegDef := [
  ⟨0x0, 1, 0x4, 0x3, 0x0, 0x0, 0x0, 0x0⟩,
  ⟨0x4, 1, 0x4, 0x0, 0x1F, 0x0, 0x0, 0x0⟩,
  ⟨0x8, 1, 0x4, 0xFFFFFF, 0x0, 0x0, 0x0, 0x0⟩,
  ⟨0xC, 1, 0x4, 0xFFFFFF, 0x0, 0x0, 0x0, 0x0⟩,
  ⟨0x10, 1, 0x4, 0xFFFF, 0xFF0000, 0x0, 0x0, 0x0⟩,
  ⟨0x14, 1, 0x4, 0x0, 0xFFFFFFFF, 0x0, 0x0, 0x0⟩,
  ⟨0x18, 1, 0x4, 0x0, 0x1FF, 0x0, 0x0, 0x0⟩,
  ⟨0x1C, 1, 0x4, 0x0, 0xFFFFFFFF, 0x0, 0x0, 0x0⟩,
  ⟨0x20, 1, 0x4, 0x0, 0xFFFF, 0x0, 0x0, 0x0⟩,
  ⟨0x24, 1, 0x4, 0xFFFFFFFF, 0x0, 0x0, 0x0, 0x0⟩,
  ⟨0x28, 1, 0x4, 0xFFFFFFFF, 0x0, 0x0, 0x0, 0x0⟩,
  ⟨0x2C, 1, 0x4, 0x1FFF, 0x0, 0x0, 0x0, 0x0⟩,
  ⟨0x30, 4, 0x4, 0x1FFF1FFF, 0x0, 0x0, 0x0, 0x0⟩,
  ⟨0x40, 1, 0x4, 0x1FFF, 0x0, 0x0, 0x0, 0x0⟩,
  ⟨0x44, 1, 0x4, 0x0, 0x0, 0x1, 0x0, 0x0⟩,
  ⟨0x48, 2, 0x4, 0x0, 0x1F, 0x0, 0x0, 0x0⟩,
  ⟨0x50, 2, 0x4, 0x0, 0xFFFFFFFF, 0x0, 0x0, 0x0⟩,
  ⟨0x60, 1, 0x4, 0x0, 0x0, 0x1, 0x0, 0x0⟩,
  ⟨0x64, 1, 0x4, 0xFFFFFFFF, 0x0, 0x0, 0x0, 0x0⟩,
  ⟨0x68, 1, 0x4, 0x0, 0x3, 0x0, 0x0, 0x0⟩,
  ⟨0x6C, 1, 0x4, 0x0, 0xFFFFFFFF, 0x0, 0x0, 0x0⟩,
  ⟨0x70, 1, 0x4, 0x6, 0x0, 0x9, 0x0, 0x0⟩,
  ⟨0x74, 1, 0x4, 0x1FF, 0x0, 0x0, 0x0, 0x14⟩,
  ⟨0x78, 1, 0x4, 0x0, 0x0, 0x7, 0x0, 0x0⟩]

/-- BLB registers (R411), part 1. -/
def regMapBLB1 : List RegDef := [
  ⟨0x7C, 1, 0x4, 0xFFFFFFFF, 0x0, 0x0, 0x0, 0x0⟩,
  ⟨0x80, 1, 0x4, 0xFFFFFFFF, 0x0, 0x0, 0x0, 0x0⟩,
  ⟨0x84, 1, 0x4, 0xFFFF, 0x0, 0x0, 0x0, 0x0⟩,
  ⟨0x100, 1, 0x4, 0x0, 0xFFFFFFFF, 0x0, 0x0, 0x0⟩,
  ⟨0x104, 1, 0x4, 0x0, 0xFFFFFFFF, 0x0, 0x0, 0x0⟩,
  ⟨0x108, 1, 0x4, 0x0, 0xFFFFFFFF, 0x0, 0x0, 0x0⟩,
  ⟨0x10C, 1, 0x4, 0x0, 0xFFFFFFFF, 0x0, 0x0, 0x0⟩,
  ⟨0x110, 1, 0x4, 0x0, 0xFFFFFFFF, 0x0, 0x0, 0x0⟩,
  ⟨0x114, 1, 0x4, 0x0, 0xFFFFFFFF, 0x0, 0x0, 0x0⟩,
  ⟨0x118, 1, 0x4, 0x0, 0xFFFFFFFF, 0x0, 0x0, 0x0⟩,
  ⟨0x11C, 1, 0x4, 0x0, 0xFFFFFFFF, 0x0, 0x0, 0x0⟩,
  ⟨0x120, 1, 0x4, 0x0, 0xFFFFFFFF, 0x0, 0x0, 0x0⟩,
  ⟨0x124, 1, 0x4, 0x0, 0xFFFFFFFF, 0x0, 0x0, 0x0⟩,
  ⟨0x128, 1, 0x4, 0x0, 0xFFFFFFFF, 0x0, 0x0, 0x0⟩,
  ⟨0x12C, 1, 0x4, 0x0, 0xFFFFFFFF, 0x0, 0x0, 0x0⟩,
  ⟨0x130, 1, 0x4, 0x0, 0xFFFFFFFF, 0x0, 0x0, 0x0⟩,
  ⟨0x134, 1, 0x4, 0x0, 0xFFFFFFFF, 0x0, 0x0, 0x0⟩]

/-- BLB registers (R411). -/
def regMapBLB : List RegDef := regMapBLB0 ++ regMapBLB1

/-- FEN registers (R157). -/
def regMapFEN : List RegDef := [
  ⟨0x0, 1, 0x4, 0x1, 0x0, 0x0, 0x0, 0x0⟩,
  ⟨0x4, 1, 0x4, 0x0, 0xF, 0x0, 0x0, 0x0⟩,
  ⟨0x8, 1, 0x4, 0x0, 0x3FFF, 0x0, 0x0, 0x0⟩,
  ⟨0x10, 1, 0x4, 0xFFFF, 0xFF0000, 0x0, 0x0, 0x0⟩,
  ⟨0x14, 1, 0x4, 0x0, 0xFFFFFF, 0x0, 0x0, 0x0⟩,
  ⟨0x18, 1, 0x4, 0x0, 0x1FFF, 0x0, 0x0, 0x0⟩,
  ⟨0x100, 1, 0x4, 0x0, 0xFFFFFFFF, 0x0, 0x0, 0x0⟩,
  ⟨0x104, 1, 0x4, 0x0, 0xFFFFFFFF, 0x0, 0x0, 0x0⟩,
  ⟨0x108, 1, 0x4, 0x0, 0xFFFFFFFF, 0x0, 0x0, 0x0⟩,
  ⟨0x10C, 1, 0x4, 0x0, 0xFFFFFFFF, 0x0, 0x0, 0x0⟩,
  ⟨0x110, 1, 0x4, 0x0, 0xFFFFFFFF, 0x0, 0x0, 0x0⟩,
  ⟨0x114, 1, 0x4, 0x0, 0xFFFFFFFF, 0x0, 0x0, 0x0⟩,
  ⟨0x118, 1, 0x4, 0x0, 0xFFFFFFFF, 0x0, 0x0, 0x0⟩,
  ⟨0x11C, 1, 0x4, 0x0, 0xFFFFFFFF, 0x0, 0x0, 0x0⟩,
  ⟨0x120, 1, 0x4, 0x0, 0xFFFFFFFF, 0x0, 0x0, 0x0⟩,
  ⟨0x124, 1, 0x4, 0x0, 0xFFFFFFFF, 0x0, 0x0, 0x0⟩]

/-- UPD registers (R217), part 0. -/
def regMapUPD0 : List RegDef := [
  ⟨0x0, 1, 0x4, 0x1, 0x0, 0x0, 0x0, 0x0⟩,
  ⟨0x4, 1, 0x4, 0x0, 0x7F07, 0x0, 0x0, 0x0⟩,
  ⟨0x8, 1, 0x4, 0x0, 0xFFFFFFFF, 0x0, 0x0, 0x0⟩,
  ⟨0xC, 1, 0x4, 0x0, 0x1FFFF, 0x0, 0x0, 0x0⟩,
  ⟨0x10, 1, 0x4, 0xFFFF, 0xFF0000, 0x0, 0x0, 0x0⟩,
  ⟨0x14, 1, 0x4, 0x0, 0x3FFFF, 0x0, 0x0, 0x0⟩,
  ⟨0x20, 1, 0x4, 0xFFFFFF, 0x0, 0x0, 0x0, 0x0⟩,
  ⟨0x24, 1, 0x4, 0xFFFF, 0x0, 0x0, 0x0, 0x0⟩,
  ⟨0x28, 1, 0x4, 0xFFFFFF, 0x0, 0x0, 0x0, 0x0⟩,
  ⟨0x2C, 1, 0x4, 0x1FFF, 0x0, 0x0, 0x0, 0x0⟩,
  ⟨0x30, 1, 0x4, 0xFFFFFF, 0x0, 0x0, 0x0, 0x0⟩,
  ⟨0x34, 1, 0x4, 0xFFFFFF, 0x0, 0x0, 0x0, 0x0⟩,
  ⟨0x38, 1, 0x4, 0x1FFFFFF, 0x0, 0x0, 0x0, 0x0⟩,
  ⟨0x40, 1, 0x4, 0xFFE00000, 0x0, 0x0, 0x0, 0x0⟩,
  ⟨0x44, 1, 0x4, 0xFFFF, 0x0, 0x0, 0x0, 0x0⟩,
  ⟨0x48, 1, 0x4, 0x7FFFF, 0x0, 0x0, 0x0, 0x0⟩,
  ⟨0x4C, 1, 0x4, 0x0, 0x7FFFF, 0x0, 0x0, 0x0⟩,
  ⟨0x50, 1, 0x4, 0x0, 0x0, 0x1, 0x0, 0x0⟩,
  ⟨0x60, 1, 0x4, 0xFFFFFFF0, 0x0, 0x0, 0x0, 0x0⟩,
  ⟨0x64, 1, 0x4, 0xFFFF, 0x0, 0x0, 0x0, 0x0⟩,
  ⟨0x80, 1, 0x4, 0xFFFFFFFF, 0x0, 0x0, 0x0, 0x0⟩,
  ⟨0x84, 1, 0x4, 0xFFFF, 0x0, 0x0, 0x0, 0x0⟩,
  ⟨0x88, 1, 0x4, 0xFFFF07, 0x0, 0x0, 0x0, 0x0⟩,
  ⟨0x8C, 1, 0x4, 0x3FFFFFF, 0x0, 0x0, 0x0, 0x0⟩]

/-- UPD registers (R217), part 1. -/
def regMapUPD1 : List RegDef := [
  ⟨0x90, 4, 0x4, 0xFFFFFFFF, 0x0, 0x0, 0x0, 0x0⟩,
  ⟨0xA0, 1, 0x4, 0x0, 0x0, 0x1, 0x0, 0x0⟩,
  ⟨0x100, 4, 0x4, 0x0, 0xFFFFFFFF, 0x0, 0x0, 0x0⟩,
  ⟨0x110, 4, 0x4, 0x0, 0xFFFFFFFF, 0x0, 0x0, 0x0⟩,
  ⟨0x120, 1, 0x4, 0x0, 0xFFFFFFFF, 0x0, 0x0, 0x0⟩,
  ⟨0x124, 1, 0x4, 0x0, 0xFFFF, 0x0, 0x0, 0x0⟩,
  ⟨0x128, 1, 0x4, 0x0, 0xFFFFFFFF, 0x0, 0x0, 0x0⟩,
  ⟨0x12C, 1, 0x4, 0x0, 0xFFFFFFFF, 0x0, 0x0, 0x0⟩,
  ⟨0x130, 1, 0x4, 0x0, 0xFFFFFFFF, 0x0, 0x0, 0x0⟩,
  ⟨0x134, 1, 0x4, 0x0, 0xFFFFFFFF, 0x0, 0x0, 0x0⟩,
  ⟨0x138, 1, 0x4, 0x0, 0x1FFFF, 0x0, 0x0, 0x0⟩,
  ⟨0x140, 1, 0x4, 0x0, 0xFFFFFFFF, 0x0, 0x0, 0x0⟩,
  ⟨0x144, 1, 0x4, 0x0, 0xFFFFFFFF, 0x0, 0x0, 0x0⟩,
  ⟨0x148, 1, 0x4, 0x0, 0xFFFFFFFF, 0x0, 0x0, 0x0⟩,
  ⟨0x14C, 1, 0x4, 0x0, 0xFFFFFFFF, 0x0, 0x0, 0x0⟩]

/-- UPD registers (R217). -/
def regMapUPD : List RegDef := regMapUPD0 ++ regMapUPD1

/-- HLT registers (R236), part 0. -/
def regMapHLT0 : List RegDef := [
  ⟨0x0, 1, 0x4, 0xF1, 0x0, 0x0, 0x0, 0x40⟩,
  ⟨0x4, 1, 0x4, 0x0, 0x1, 0x0, 0x0, 0x0⟩,
  ⟨0x8, 1, 0x4, 0x0, 0xFFFF, 0x0, 0x0, 0x0⟩,
  ⟨0xC, 1, 0x4, 0x0, 0xFFFFFFFF, 0x0, 0x0, 0x0⟩,
  ⟨0x10, 1, 0x4, 0x0, 0xFFFFF, 0x0, 0x0, 0x0⟩,
  ⟨0x14, 1, 0x4, 0xFFFF, 0xFF0000, 0x0, 0x0, 0x0⟩,
  ⟨0x18, 1, 0x4, 0x0, 0x7FFFFFFF, 0x0, 0x0, 0x0⟩,
  ⟨0x20, 1, 0x4, 0xFFFF, 0x0, 0x0, 0x0, 0xF333⟩,
  ⟨0x24, 1, 0x4, 0xFFFF, 0x0, 0x0, 0x0, 0x3E8⟩,
  ⟨0x30, 1, 0x4, 0xFFFFFFF1, 0x0, 0x0, 0x0, 0x100400⟩,
  ⟨0x34, 1, 0x4, 0x0, 0x1, 0x0, 0x0, 0x0⟩,
  ⟨0x40, 1, 0x4, 0xFFF7, 0x0, 0x80000000, 0x0, 0x0⟩,
  ⟨0x44, 1, 0x4, 0x0, 0x3, 0x0, 0x0, 0x0⟩,
  ⟨0x48, 1, 0x4, 0x0, 0xFFFFFFFF, 0x0, 0x0, 0x0⟩,
  ⟨0x4C, 1, 0x4, 0x0, 0xFFFF, 0x0, 0x0, 0x0⟩,
  ⟨0x80, 16, 0x4, 0x0, 0xFFFFFFFF, 0x0, 0x0, 0x0⟩,
  ⟨0x100, 1, 0x4, 0x0, 0xFFFFFFFF, 0x0, 0x0, 0x0⟩,
  ⟨0x104, 1, 0x4, 0x0, 0xFFFFFFFF, 0x0, 0x0, 0x0⟩,
  ⟨0x108, 1, 0x4, 0x0, 0xFFFFFFFF, 0x0, 0x0, 0x0⟩,
  ⟨0x10C, 1, 0x4, 0x0, 0xFFFFFFFF, 0x0, 0x0, 0x0⟩,
  ⟨0x110, 1, 0x4, 0x0, 0xFFFFFFFF, 0x0, 0x0, 0x0⟩,
  ⟨0x114, 1, 0x4, 0x0, 0xFFFFFFFF, 0x0, 0x0, 0x0⟩,
  ⟨0x118, 1, 0x4, 0x0, 0xFFFFFFFF, 0x0, 0x0, 0x0⟩,
  ⟨0x11C, 1, 0x4, 0x0, 0xFFFFFFFF, 0x0, 0x0, 0x0⟩]

/-- HLT registers (R236), part 1. -/
def regMapHLT1 : List RegDef := [
  ⟨0x120, 1, 0x4, 0x0, 0xFFFFFFFF, 0x0, 0x0, 0x0⟩,
  ⟨0x124, 1, 0x4, 0x0, 0xFFFFFFFF, 0x0, 0x0, 0x0⟩,
  ⟨0x128, 1, 0x4, 0x0, 0xFFFFFFFF, 0x0, 0x0, 0x0⟩,
  ⟨0x12C, 1, 0x4, 0x0, 0xFFFFFFFF, 0x0, 0x0, 0x0⟩,
  ⟨0x130, 1, 0x4, 0x0, 0xFFFFFFFF, 0x0, 0x0, 0x0⟩,
  ⟨0x134, 1, 0x4, 0x0, 0xFFFFFFFF, 0x0, 0x0, 0x0⟩,
  ⟨0x138, 1, 0x4, 0x0, 0xFFFFFFFF, 0x0, 0x0, 0x0⟩,
  ⟨0x13C, 1, 0x4, 0x0, 0xFFFFFFFF, 0x0, 0x0, 0x0⟩]

/-- HLT registers (R236). -/
def regMapHLT : List RegDef := regMapHLT0 ++ regMapHLT1

/-- MEM registers (R259), part 0. -/
def regMapMEM0 : List RegDef := [
  ⟨0x0, 1, 0x4, 0x1, 0x0, 0x0, 0x0, 0x0⟩,
  ⟨0x4, 1, 0x4, 0x0, 0x1FF, 0x0, 0x0, 0x0⟩,
  ⟨0x10, 1, 0x4, 0xFFFF, 0xFF0000, 0x0, 0x0, 0x0⟩,
  ⟨0x14, 1, 0x4, 0x0, 0x1FFF000F, 0x0, 0x0, 0x0⟩,
  ⟨0x40, 8, 0x4, 0x0, 0x1FF, 0x0, 0x0, 0x0⟩,
  ⟨0x100, 16, 0x20, 0xFFE00000, 0x0, 0x0, 0x0, 0x0⟩,
  ⟨0x104, 16, 0x20, 0xFFFF, 0x0, 0x0, 0x0, 0x0⟩,
  ⟨0x108, 16, 0x20, 0x3FFFF, 0x0, 0x0, 0x0, 0x0⟩,
  ⟨0x10C, 16, 0x20, 0x1FF3F, 0x0, 0x0, 0x0, 0x0⟩,
  ⟨0x110, 16, 0x20, 0x0, 0xFFFF0001, 0x0, 0x0, 0x0⟩,
  ⟨0x114, 16, 0x20, 0x0, 0x0, 0x1, 0x0, 0x0⟩,
  ⟨0x400, 1, 0x4, 0x0, 0xFFFFFFFF, 0x0, 0x0, 0x0⟩,
  ⟨0x404, 1, 0x4, 0x0, 0xFFFFFFFF, 0x0, 0x0, 0x0⟩,
  ⟨0x408, 1, 0x4, 0x0, 0xFFFFFFFF, 0x0, 0x0, 0x0⟩,
  ⟨0x40C, 1, 0x4, 0x0, 0xFFFFFFFF, 0x0, 0x0, 0x0⟩,
  ⟨0x410, 1, 0x4, 0x0, 0xFFFFFFFF, 0x0, 0x0, 0x0⟩,
  ⟨0x414, 1, 0x4, 0x0, 0xFFFFFFFF, 0x0, 0x0, 0x0⟩,
  ⟨0x418, 1, 0x4, 0x0, 0xFFFFFFFF, 0x0, 0x0, 0x0⟩,
  ⟨0x41C, 1, 0x4, 0x0, 0xFFFFFFFF, 0x0, 0x0, 0x0⟩,
  ⟨0x420, 1, 0x4, 0x0, 0xFFFFFFFF, 0x0, 0x0, 0x0⟩,
  ⟨0x424, 1, 0x4, 0x0, 0xFFFFFFFF, 0x0, 0x0, 0x0⟩,
  ⟨0x428, 1, 0x4, 0x0, 0xFFFFFFFF, 0x0, 0x0, 0x0⟩,
  ⟨0x42C, 1, 0x4, 0x0, 0xFFFFFFFF, 0x0, 0x0, 0x0⟩,
  ⟨0x430, 1, 0x4, 0x0, 0xFFFFFFFF, 0x0, 0x0, 0x0⟩]

/-- MEM registers (R259), part 1. -/
def regMapMEM1 : List RegDef := [
  ⟨0x434, 1, 0x4, 0x0, 0xFFFFFFFF, 0x0, 0x0, 0x0⟩,
  ⟨0x438, 1, 0x4, 0x0, 0xFFFFFFFF, 0x0, 0x0, 0x0⟩,
  ⟨0x43C, 1, 0x4, 0x0, 0xFFFFFFFF, 0x0, 0x0, 0x0⟩,
  ⟨0x440, 1, 0x4, 0x0, 0xFFFFFFFF, 0x0, 0x0, 0x0⟩,
  ⟨0x444, 1, 0x4, 0x0, 0xFFFFFFFF, 0x0, 0x0, 0x0⟩]

/-- MEM registers (R259). -/
def regMapMEM : List RegDef := regMapMEM0 ++ regMapMEM1

/-- MPR registers (R281), part 0. -/
def regMapMPR0 : List RegDef := [
  ⟨0x0, 1, 0x4, 0xFFF1, 0x0, 0x0, 0x0, 0x1041⟩,
  ⟨0x4, 1, 0x4, 0x0, 0x1FFFF, 0x0, 0x0, 0x0⟩,
  ⟨0x10, 1, 0x4, 0xFFFF, 0xFF0000, 0x0, 0x0, 0x0⟩,
  ⟨0x14, 1, 0x4, 0x0, 0xF73FFF, 0x0, 0x0, 0x0⟩,
  ⟨0x18, 1, 0x4, 0x0, 0xFFFFFFFF, 0x0, 0x0, 0x0⟩,
  ⟨0x1C, 1, 0x4, 0x0, 0xFFFF, 0x0, 0x0, 0x0⟩,
  ⟨0x40, 1, 0x4, 0xFF000000, 0x0, 0x0, 0x0, 0x0⟩,
  ⟨0x44, 1, 0x4, 0xFFFF, 0x0, 0x0, 0x0, 0x0⟩,
  ⟨0x48, 1, 0x4, 0xFFFF, 0x0, 0x0, 0x0, 0x0⟩,
  ⟨0x4C, 1, 0x4, 0xFFFFFFC0, 0x0, 0x0, 0x0, 0x0⟩,
  ⟨0x50, 1, 0x4, 0xFFFF, 0x0, 0x0, 0x0, 0x0⟩,
  ⟨0x54, 1, 0x4, 0x0, 0x0, 0x3, 0x0, 0x0⟩,
  ⟨0x58, 1, 0x4, 0x0, 0xFFFF, 0x0, 0x0, 0x0⟩,
  ⟨0x60, 1, 0x4, 0xFFFFFFC0, 0x0, 0x0, 0x0, 0x0⟩,
  ⟨0x64, 1, 0x4, 0x1FFFF, 0x0, 0x80000000, 0x0, 0x0⟩,
  ⟨0x100, 128, 0x8, 0x0, 0xFFFFFFFF, 0x0, 0x0, 0x0⟩,
  ⟨0x104, 128, 0x8, 0x0, 0xFFFFFFFF, 0x0, 0x0, 0x0⟩,
  ⟨0x600, 256, 0x4, 0x0, 0xFF, 0x0, 0x0, 0x0⟩,
  ⟨0xA00, 1, 0x4, 0x0, 0xFFFFFFFF, 0x0, 0x0, 0x0⟩,
  ⟨0xA04, 1, 0x4, 0x0, 0xFFFFFFFF, 0x0, 0x0, 0x0⟩,
  ⟨0xA08, 1, 0x4, 0x0, 0xFFFFFFFF, 0x0, 0x0, 0x0⟩,
  ⟨0xA0C, 1, 0x4, 0x0, 0xFFFFFFFF, 0x0, 0x0, 0x0⟩,
  ⟨0xA10, 1, 0x4, 0x0, 0xFFFFFFFF, 0x0, 0x0, 0x0⟩,
  ⟨0xA14, 1, 0x4, 0x0, 0xFFFFFFFF, 0x0, 0x0, 0x0⟩]

/-- MPR registers (R281), part 1. -/
def regMapMPR1 : List RegDef := [
  ⟨0xA18, 1, 0x4, 0x0, 0xFFFFFFFF, 0x0, 0x0, 0x0⟩,
  ⟨0xA1C, 1, 0x4, 0x0, 0xFFFFFFFF, 0x0, 0x0, 0x0⟩,
  ⟨0xA20, 1, 0x4, 0x0, 0xFFFFFFFF, 0x0, 0x0, 0x0⟩,
  ⟨0xA24, 1, 0x4, 0x0, 0xFFFFFFFF, 0x0, 0x0, 0x0⟩]

/-- MPR registers (R281). -/
def regMapMPR : List RegDef := regMapMPR0 ++ regMapMPR1

/-- CORE registers (R191), part 0. -/
def regMapCORE0 : List RegDef := [
  ⟨0x0, 1, 0x4, 0x0, 0x7FF, 0x0, 0x0, 0x0⟩,
  ⟨0x4, 1, 0x4, 0x0, 0xFF, 0x0, 0x0, 0x0⟩,
  ⟨0x10, 1, 0x4, 0xFFFF, 0xFF0000, 0x0, 0x0, 0x0⟩,
  ⟨0x14, 1, 0x4, 0x0, 0xFFF03, 0x0, 0x0, 0x0⟩,
  ⟨0x18, 1, 0x4, 0x0, 0x3FFFFF, 0x0, 0x0, 0x0⟩,
  ⟨0x100, 4, 0x40, 0xFFFFFFC0, 0x0, 0x0, 0x0, 0x0⟩,
  ⟨0x104, 4, 0x40, 0xFFFF, 0x0, 0x0, 0x0, 0x0⟩,
  ⟨0x108, 4, 0x40, 0x7FFFF, 0x0, 0x0, 0x0, 0x0⟩,
  ⟨0x10C, 4, 0x40, 0x3FFFF, 0x0, 0x0, 0x0, 0x0⟩,
  ⟨0x110, 4, 0x40, 0x0, 0x3FFFF, 0x0, 0x0, 0x0⟩,
  ⟨0x114, 4, 0x40, 0x5, 0x0, 0x2, 0x0, 0x0⟩,
  ⟨0x118, 4, 0x40, 0x0, 0xFFFFFF03, 0x0, 0x0, 0x0⟩,
  ⟨0x11C, 4, 0x40, 0x0, 0xFFFFFFFF, 0x0, 0x0, 0x0⟩,
  ⟨0x120, 4, 0x40, 0xFFFFFFF0, 0x0, 0x0, 0x0, 0x0⟩,
  ⟨0x124, 4, 0x40, 0xFFFF, 0x0, 0x0, 0x0, 0x0⟩,
  ⟨0x128, 4, 0x40, 0xFFFF, 0x0, 0x0, 0x0, 0x0⟩,
  ⟨0x12C, 4, 0x40, 0xFFFFFFFC, 0x0, 0x0, 0x0, 0x0⟩,
  ⟨0x130, 4, 0x40, 0x1FFFF, 0x0, 0x0, 0x0, 0x0⟩,
  ⟨0x300, 16, 0x10, 0x0, 0x0, 0x3, 0x0, 0x0⟩,
  ⟨0x304, 16, 0x10, 0x0, 0xFF03, 0x0, 0x0, 0x0⟩,
  ⟨0x308, 16, 0x10, 0x0, 0xFFFFFF, 0x0, 0x0, 0x0⟩,
  ⟨0x400, 1, 0x4, 0x0, 0xFFFFFFFF, 0x0, 0x0, 0x0⟩,
  ⟨0x404, 1, 0x4, 0x0, 0xFFFFFFFF, 0x0, 0x0, 0x0⟩,
  ⟨0x408, 1, 0x4, 0x0, 0xFFFFFFFF, 0x0, 0x0, 0x0⟩]

/-- CORE registers (R191), part 1. -/
def regMapCORE1 : List RegDef := [
  ⟨0x40C, 1, 0x4, 0x0, 0xFFFFFFFF, 0x0, 0x0, 0x0⟩,
  ⟨0x410, 1, 0x4, 0x0, 0xFFFFFFFF, 0x0, 0x0, 0x0⟩,
  ⟨0x414, 1, 0x4, 0x0, 0xFFFFFFFF, 0x0, 0x0, 0x0⟩]

/-- CORE registers (R191). -/
def regMapCORE : List RegDef := regMapCORE0 ++ regMapCORE1

/-- The registers of block number `b` (R461); none for an unassigned block. -/
def regMap (b : Nat) : List RegDef :=
  if 256 ≤ b ∧ b < 384 then regMapCORE else
  match b with
  | 0 => regMapGEN
  | 1 => regMapCFG
  | 2 => regMapSNAP
  | 3 => regMapRST
  | 4 => regMapPWR
  | 5 => regMapSEC
  | 6 => regMapTST
  | 7 => regMapDBG
  | 8 => regMapVIN
  | 9 => regMapTOR
  | 10 => regMapLNK
  | 11 => regMapDUP
  | 12 => regMapLDG
  | 13 => regMapBLB
  | 14 => regMapFEN
  | 15 => regMapUPD
  | 16 => regMapHLT
  | 17 => regMapMEM
  | 18 => regMapMPR
  | _ => []

end Sys2Proof.Machine
end

