-- ==== Sys2Proof/Machine/RegNames.lean ====
section
/-! DEFINITION. Names of the manual's registers and fields: `BLOCK.REGISTER.o` is a register's 24-bit offset (R461) and
`BLOCK.REGISTER.FIELD` a field of it (R10). Arguments: n core, q queue, ctx context, p port, w window, i copy. -/

namespace Sys2Proof.Machine

/-- A field of a register: the 24-bit offset of the register, its lowest bit and its width (R10). -/
structure Field where
  off : Nat
  lo : Nat
  w : Nat
deriving DecidableEq, Repr

/-- R126 -/
@[reducible] def DBG.ACC_SEL.o : Nat := 0x7200
def DBG.ACC_SEL.CORE : Field := ⟨DBG.ACC_SEL.o, 0, 7⟩
def DBG.ACC_SEL.ROW : Field := ⟨DBG.ACC_SEL.o, 8, 9⟩
def DBG.ACC_SEL.CB : Field := ⟨DBG.ACC_SEL.o, 24, 3⟩
def DBG.ACC_SEL.GO : Field := ⟨DBG.ACC_SEL.o, 31, 1⟩
/-- R126 -/
@[reducible] def DBG.ACC_STAT.o : Nat := 0x7204
def DBG.ACC_STAT.DONE : Field := ⟨DBG.ACC_STAT.o, 0, 1⟩
def DBG.ACC_STAT.OPEN : Field := ⟨DBG.ACC_STAT.o, 1, 1⟩
def DBG.ACC_STAT.COINCIDE : Field := ⟨DBG.ACC_STAT.o, 2, 1⟩
def DBG.ACC_STAT.MODE : Field := ⟨DBG.ACC_STAT.o, 8, 3⟩
def DBG.ACC_STAT.GROUP : Field := ⟨DBG.ACC_STAT.o, 11, 2⟩
def DBG.ACC_STAT.NC : Field := ⟨DBG.ACC_STAT.o, 16, 8⟩
/-- R126 -/
@[reducible] def DBG.ACC_CNT.o : Nat := 0x7208
def DBG.ACC_CNT.COUNT : Field := ⟨DBG.ACC_CNT.o, 0, 15⟩
/-- R126 -/
@[reducible] def DBG.ACC_D.o (i : Nat) : Nat := 0x7210 + 4 * i
def DBG.ACC_D.VAL (i : Nat) : Field := ⟨(DBG.ACC_D.o i), 0, 32⟩
/-- R157 -/
@[reducible] def FEN.CFG.o : Nat := 0xE000
def FEN.CFG.ENABLE : Field := ⟨FEN.CFG.o, 0, 1⟩
/-- R157 -/
@[reducible] def FEN.STAT.o : Nat := 0xE004
def FEN.STAT.OPEN : Field := ⟨FEN.STAT.o, 0, 3⟩
def FEN.STAT.EARLY_FULL : Field := ⟨FEN.STAT.o, 3, 1⟩
/-- R157 -/
@[reducible] def FEN.EARLY_USED.o : Nat := 0xE008
def FEN.EARLY_USED.UNITS : Field := ⟨FEN.EARLY_USED.o, 0, 14⟩
/-- R157 -/
@[reducible] def FEN.EVT.o : Nat := 0xE010
def FEN.EVT.SEQ : Field := ⟨FEN.EVT.o, 0, 16⟩
def FEN.EVT.CODE : Field := ⟨FEN.EVT.o, 16, 8⟩
/-- R157 -/
@[reducible] def FEN.EVT_OP.o : Nat := 0xE014
def FEN.EVT_OP.OPCODE : Field := ⟨FEN.EVT_OP.o, 0, 8⟩
def FEN.EVT_OP.LAYER : Field := ⟨FEN.EVT_OP.o, 8, 8⟩
def FEN.EVT_OP.MB : Field := ⟨FEN.EVT_OP.o, 16, 8⟩
/-- R157 -/
@[reducible] def FEN.EVT_SRC.o : Nat := 0xE018
def FEN.EVT_SRC.MODULE : Field := ⟨FEN.EVT_SRC.o, 0, 13⟩
/-- R157 -/
@[reducible] def FEN.SN_PLACED_LO.o : Nat := 0xE100
def FEN.SN_PLACED_LO.VAL : Field := ⟨FEN.SN_PLACED_LO.o, 0, 32⟩
/-- R157 -/
@[reducible] def FEN.SN_PLACED_HI.o : Nat := 0xE104
def FEN.SN_PLACED_HI.VAL : Field := ⟨FEN.SN_PLACED_HI.o, 0, 32⟩
/-- R157 -/
@[reducible] def FEN.SN_DROPPED_LO.o : Nat := 0xE108
def FEN.SN_DROPPED_LO.VAL : Field := ⟨FEN.SN_DROPPED_LO.o, 0, 32⟩
/-- R157 -/
@[reducible] def FEN.SN_DROPPED_HI.o : Nat := 0xE10C
def FEN.SN_DROPPED_HI.VAL : Field := ⟨FEN.SN_DROPPED_HI.o, 0, 32⟩
/-- R157 -/
@[reducible] def FEN.SN_FULLDROP_LO.o : Nat := 0xE110
def FEN.SN_FULLDROP_LO.VAL : Field := ⟨FEN.SN_FULLDROP_LO.o, 0, 32⟩
/-- R157 -/
@[reducible] def FEN.SN_FULLDROP_HI.o : Nat := 0xE114
def FEN.SN_FULLDROP_HI.VAL : Field := ⟨FEN.SN_FULLDROP_HI.o, 0, 32⟩
/-- R157 -/
@[reducible] def FEN.SN_NONFIN_LO.o : Nat := 0xE118
def FEN.SN_NONFIN_LO.VAL : Field := ⟨FEN.SN_NONFIN_LO.o, 0, 32⟩
/-- R157 -/
@[reducible] def FEN.SN_NONFIN_HI.o : Nat := 0xE11C
def FEN.SN_NONFIN_HI.VAL : Field := ⟨FEN.SN_NONFIN_HI.o, 0, 32⟩
/-- R157 -/
@[reducible] def FEN.SN_EARLY_LO.o : Nat := 0xE120
def FEN.SN_EARLY_LO.VAL : Field := ⟨FEN.SN_EARLY_LO.o, 0, 32⟩
/-- R157 -/
@[reducible] def FEN.SN_EARLY_HI.o : Nat := 0xE124
def FEN.SN_EARLY_HI.VAL : Field := ⟨FEN.SN_EARLY_HI.o, 0, 32⟩
/-- R191 -/
@[reducible] def CORE.ID.o (n : Nat) : Nat := 0x100000 + 0x1000 * n
def CORE.ID.CORE (n : Nat) : Field := ⟨(CORE.ID.o n), 0, 7⟩
def CORE.ID.DIE (n : Nat) : Field := ⟨(CORE.ID.o n), 7, 1⟩
def CORE.ID.CLUSTER (n : Nat) : Field := ⟨(CORE.ID.o n), 8, 3⟩
/-- R191 -/
@[reducible] def CORE.STAT.o (n : Nat) : Nat := 0x100004 + 0x1000 * n
def CORE.STAT.QHALT (n : Nat) : Field := ⟨(CORE.STAT.o n), 0, 4⟩
def CORE.STAT.QBUSY (n : Nat) : Field := ⟨(CORE.STAT.o n), 4, 4⟩
/-- R191 -/
@[reducible] def CORE.EVT.o (n : Nat) : Nat := 0x100010 + 0x1000 * n
def CORE.EVT.SEQ (n : Nat) : Field := ⟨(CORE.EVT.o n), 0, 16⟩
def CORE.EVT.CODE (n : Nat) : Field := ⟨(CORE.EVT.o n), 16, 8⟩
/-- R191 -/
@[reducible] def CORE.EVT_INFO.o (n : Nat) : Nat := 0x100014 + 0x1000 * n
def CORE.EVT_INFO.QUEUE (n : Nat) : Field := ⟨(CORE.EVT_INFO.o n), 0, 2⟩
def CORE.EVT_INFO.STATUS (n : Nat) : Field := ⟨(CORE.EVT_INFO.o n), 8, 8⟩
def CORE.EVT_INFO.CTX (n : Nat) : Field := ⟨(CORE.EVT_INFO.o n), 16, 4⟩
/-- R191 -/
@[reducible] def CORE.EVT_ADDR.o (n : Nat) : Nat := 0x100018 + 0x1000 * n
def CORE.EVT_ADDR.OFFSET (n : Nat) : Field := ⟨(CORE.EVT_ADDR.o n), 0, 22⟩
/-- R191 -/
@[reducible] def CORE.Q_BASE_LO.o (n q : Nat) : Nat := 0x100100 + 0x1000 * n + 0x40 * q
def CORE.Q_BASE_LO.ADDR (n q : Nat) : Field := ⟨(CORE.Q_BASE_LO.o n q), 6, 26⟩
/-- R191 -/
@[reducible] def CORE.Q_BASE_HI.o (n q : Nat) : Nat := 0x100104 + 0x1000 * n + 0x40 * q
def CORE.Q_BASE_HI.ADDR (n q : Nat) : Field := ⟨(CORE.Q_BASE_HI.o n q), 0, 16⟩
/-- R191 -/
@[reducible] def CORE.Q_SIZE.o (n q : Nat) : Nat := 0x100108 + 0x1000 * n + 0x40 * q
def CORE.Q_SIZE.UNITS (n q : Nat) : Field := ⟨(CORE.Q_SIZE.o n q), 0, 19⟩
/-- R191 -/
@[reducible] def CORE.Q_TAIL.o (n q : Nat) : Nat := 0x10010C + 0x1000 * n + 0x40 * q
def CORE.Q_TAIL.OFFSET (n q : Nat) : Field := ⟨(CORE.Q_TAIL.o n q), 0, 18⟩
/-- R191 -/
@[reducible] def CORE.Q_HEAD.o (n q : Nat) : Nat := 0x100110 + 0x1000 * n + 0x40 * q
def CORE.Q_HEAD.OFFSET (n q : Nat) : Field := ⟨(CORE.Q_HEAD.o n q), 0, 18⟩
/-- R191 -/
@[reducible] def CORE.Q_CTL.o (n q : Nat) : Nat := 0x100114 + 0x1000 * n + 0x40 * q
def CORE.Q_CTL.ENABLE (n q : Nat) : Field := ⟨(CORE.Q_CTL.o n q), 0, 1⟩
def CORE.Q_CTL.RESUME (n q : Nat) : Field := ⟨(CORE.Q_CTL.o n q), 1, 1⟩
def CORE.Q_CTL.FEED (n q : Nat) : Field := ⟨(CORE.Q_CTL.o n q), 2, 1⟩
/-- R191 -/
@[reducible] def CORE.Q_STAT.o (n q : Nat) : Nat := 0x100118 + 0x1000 * n + 0x40 * q
def CORE.Q_STAT.HALTED (n q : Nat) : Field := ⟨(CORE.Q_STAT.o n q), 0, 1⟩
def CORE.Q_STAT.WAITING (n q : Nat) : Field := ⟨(CORE.Q_STAT.o n q), 1, 1⟩
def CORE.Q_STAT.STATUS (n q : Nat) : Field := ⟨(CORE.Q_STAT.o n q), 8, 8⟩
def CORE.Q_STAT.GEN (n q : Nat) : Field := ⟨(CORE.Q_STAT.o n q), 16, 16⟩
/-- R191 -/
@[reducible] def CORE.Q_DONE.o (n q : Nat) : Nat := 0x10011C + 0x1000 * n + 0x40 * q
def CORE.Q_DONE.COUNT (n q : Nat) : Field := ⟨(CORE.Q_DONE.o n q), 0, 32⟩
/-- R191 -/
@[reducible] def CORE.CQ_BASE_LO.o (n q : Nat) : Nat := 0x100120 + 0x1000 * n + 0x40 * q
def CORE.CQ_BASE_LO.ADDR (n q : Nat) : Field := ⟨(CORE.CQ_BASE_LO.o n q), 4, 28⟩
/-- R191 -/
@[reducible] def CORE.CQ_BASE_HI.o (n q : Nat) : Nat := 0x100124 + 0x1000 * n + 0x40 * q
def CORE.CQ_BASE_HI.ADDR (n q : Nat) : Field := ⟨(CORE.CQ_BASE_HI.o n q), 0, 16⟩
/-- R191 -/
@[reducible] def CORE.CQ_SIZE.o (n q : Nat) : Nat := 0x100128 + 0x1000 * n + 0x40 * q
def CORE.CQ_SIZE.RECORDS (n q : Nat) : Field := ⟨(CORE.CQ_SIZE.o n q), 0, 16⟩
/-- R191 -/
@[reducible] def CORE.CNT_LO.o (n q : Nat) : Nat := 0x10012C + 0x1000 * n + 0x40 * q
def CORE.CNT_LO.ADDR (n q : Nat) : Field := ⟨(CORE.CNT_LO.o n q), 2, 30⟩
/-- R191 -/
@[reducible] def CORE.CNT_HI.o (n q : Nat) : Nat := 0x100130 + 0x1000 * n + 0x40 * q
def CORE.CNT_HI.ADDR (n q : Nat) : Field := ⟨(CORE.CNT_HI.o n q), 0, 16⟩
def CORE.CNT_HI.EN (n q : Nat) : Field := ⟨(CORE.CNT_HI.o n q), 16, 1⟩
/-- R191 -/
@[reducible] def CORE.CTX_CTL.o (n ctx : Nat) : Nat := 0x100300 + 0x1000 * n + 0x10 * ctx
def CORE.CTX_CTL.OPEN (n ctx : Nat) : Field := ⟨(CORE.CTX_CTL.o n ctx), 0, 1⟩
def CORE.CTX_CTL.TEARDOWN (n ctx : Nat) : Field := ⟨(CORE.CTX_CTL.o n ctx), 1, 1⟩
/-- R191 -/
@[reducible] def CORE.CTX_STAT.o (n ctx : Nat) : Nat := 0x100304 + 0x1000 * n + 0x10 * ctx
def CORE.CTX_STAT.STATE (n ctx : Nat) : Field := ⟨(CORE.CTX_STAT.o n ctx), 0, 2⟩
def CORE.CTX_STAT.INSTANCE (n ctx : Nat) : Field := ⟨(CORE.CTX_STAT.o n ctx), 8, 8⟩
/-- R191 -/
@[reducible] def CORE.CTX_OUT.o (n ctx : Nat) : Nat := 0x100308 + 0x1000 * n + 0x10 * ctx
def CORE.CTX_OUT.COUNT (n ctx : Nat) : Field := ⟨(CORE.CTX_OUT.o n ctx), 0, 24⟩
/-- R191 -/
@[reducible] def CORE.SN_LS_CE_LO.o (n : Nat) : Nat := 0x100400 + 0x1000 * n
def CORE.SN_LS_CE_LO.VAL (n : Nat) : Field := ⟨(CORE.SN_LS_CE_LO.o n), 0, 32⟩
/-- R191 -/
@[reducible] def CORE.SN_LS_CE_HI.o (n : Nat) : Nat := 0x100404 + 0x1000 * n
def CORE.SN_LS_CE_HI.VAL (n : Nat) : Field := ⟨(CORE.SN_LS_CE_HI.o n), 0, 32⟩
/-- R191 -/
@[reducible] def CORE.SN_LATE_LO.o (n : Nat) : Nat := 0x100408 + 0x1000 * n
def CORE.SN_LATE_LO.VAL (n : Nat) : Field := ⟨(CORE.SN_LATE_LO.o n), 0, 32⟩
/-- R191 -/
@[reducible] def CORE.SN_LATE_HI.o (n : Nat) : Nat := 0x10040C + 0x1000 * n
def CORE.SN_LATE_HI.VAL (n : Nat) : Field := ⟨(CORE.SN_LATE_HI.o n), 0, 32⟩
/-- R191 -/
@[reducible] def CORE.SN_DMA_BYTES_LO.o (n : Nat) : Nat := 0x100410 + 0x1000 * n
def CORE.SN_DMA_BYTES_LO.VAL (n : Nat) : Field := ⟨(CORE.SN_DMA_BYTES_LO.o n), 0, 32⟩
/-- R191 -/
@[reducible] def CORE.SN_DMA_BYTES_HI.o (n : Nat) : Nat := 0x100414 + 0x1000 * n
def CORE.SN_DMA_BYTES_HI.VAL (n : Nat) : Field := ⟨(CORE.SN_DMA_BYTES_HI.o n), 0, 32⟩
/-- R217 -/
@[reducible] def UPD.CFG.o : Nat := 0xF000
def UPD.CFG.ENABLE : Field := ⟨UPD.CFG.o, 0, 1⟩
/-- R217 -/
@[reducible] def UPD.STAT.o : Nat := 0xF004
def UPD.STAT.PHASE : Field := ⟨UPD.STAT.o, 0, 3⟩
def UPD.STAT.PENDING : Field := ⟨UPD.STAT.o, 8, 7⟩
/-- R217 -/
@[reducible] def UPD.STEP_LO.o : Nat := 0xF008
def UPD.STEP_LO.VAL : Field := ⟨UPD.STEP_LO.o, 0, 32⟩
/-- R217 -/
@[reducible] def UPD.STEP_HI.o : Nat := 0xF00C
def UPD.STEP_HI.VAL : Field := ⟨UPD.STEP_HI.o, 0, 16⟩
def UPD.STEP_HI.SKIP : Field := ⟨UPD.STEP_HI.o, 16, 1⟩
/-- R217 -/
@[reducible] def UPD.EVT.o : Nat := 0xF010
def UPD.EVT.SEQ : Field := ⟨UPD.EVT.o, 0, 16⟩
def UPD.EVT.CODE : Field := ⟨UPD.EVT.o, 16, 8⟩
/-- R217 -/
@[reducible] def UPD.EVT_INFO.o : Nat := 0xF014
def UPD.EVT_INFO.INDEX : Field := ⟨UPD.EVT_INFO.o, 0, 18⟩
/-- R217 -/
@[reducible] def UPD.LIST.o : Nat := 0xF020
def UPD.LIST.OFF : Field := ⟨UPD.LIST.o, 0, 24⟩
/-- R217 -/
@[reducible] def UPD.LIST_N.o : Nat := 0xF024
def UPD.LIST_N.COUNT : Field := ⟨UPD.LIST_N.o, 0, 16⟩
/-- R217 -/
@[reducible] def UPD.LAYER_TBL.o : Nat := 0xF028
def UPD.LAYER_TBL.OFF : Field := ⟨UPD.LAYER_TBL.o, 0, 24⟩
/-- R217 -/
@[reducible] def UPD.LAYER_N.o : Nat := 0xF02C
def UPD.LAYER_N.COUNT : Field := ⟨UPD.LAYER_N.o, 0, 13⟩
/-- R217 -/
@[reducible] def UPD.REC_TBL.o : Nat := 0xF030
def UPD.REC_TBL.OFF : Field := ⟨UPD.REC_TBL.o, 0, 24⟩
/-- R217 -/
@[reducible] def UPD.HDR.o : Nat := 0xF034
def UPD.HDR.OFF : Field := ⟨UPD.HDR.o, 0, 24⟩
/-- R217 -/
@[reducible] def UPD.EXTENT.o : Nat := 0xF038
def UPD.EXTENT.UNITS : Field := ⟨UPD.EXTENT.o, 0, 25⟩
/-- R217 -/
@[reducible] def UPD.STK_BASE_LO.o : Nat := 0xF040
def UPD.STK_BASE_LO.ADDR : Field := ⟨UPD.STK_BASE_LO.o, 21, 11⟩
/-- R217 -/
@[reducible] def UPD.STK_BASE_HI.o : Nat := 0xF044
def UPD.STK_BASE_HI.ADDR : Field := ⟨UPD.STK_BASE_HI.o, 0, 16⟩
/-- R217 -/
@[reducible] def UPD.STK_GRAN.o : Nat := 0xF048
def UPD.STK_GRAN.COUNT : Field := ⟨UPD.STK_GRAN.o, 0, 19⟩
/-- R217 -/
@[reducible] def UPD.STK_HIGH.o : Nat := 0xF04C
def UPD.STK_HIGH.COUNT : Field := ⟨UPD.STK_HIGH.o, 0, 19⟩
/-- R217 -/
@[reducible] def UPD.STK_CTL.o : Nat := 0xF050
def UPD.STK_CTL.CLEAR : Field := ⟨UPD.STK_CTL.o, 0, 1⟩
/-- R217 -/
@[reducible] def UPD.LOSS_LO.o : Nat := 0xF060
def UPD.LOSS_LO.ADDR : Field := ⟨UPD.LOSS_LO.o, 4, 28⟩
/-- R217 -/
@[reducible] def UPD.LOSS_HI.o : Nat := 0xF064
def UPD.LOSS_HI.ADDR : Field := ⟨UPD.LOSS_HI.o, 0, 16⟩
/-- R217 -/
@[reducible] def UPD.TW_STEP_LO.o : Nat := 0xF080
def UPD.TW_STEP_LO.VAL : Field := ⟨UPD.TW_STEP_LO.o, 0, 32⟩
/-- R217 -/
@[reducible] def UPD.TW_STEP_HI.o : Nat := 0xF084
def UPD.TW_STEP_HI.VAL : Field := ⟨UPD.TW_STEP_HI.o, 0, 16⟩
/-- R217 -/
@[reducible] def UPD.TW_TGT.o : Nat := 0xF088
def UPD.TW_TGT.TABLE : Field := ⟨UPD.TW_TGT.o, 0, 3⟩
def UPD.TW_TGT.INDEX : Field := ⟨UPD.TW_TGT.o, 8, 16⟩
/-- R217 -/
@[reducible] def UPD.TW_WORD.o : Nat := 0xF08C
def UPD.TW_WORD.VAL : Field := ⟨UPD.TW_WORD.o, 0, 26⟩
/-- R217 -/
@[reducible] def UPD.TW_DATA.o (i : Nat) : Nat := 0xF090 + 4 * i
def UPD.TW_DATA.VAL (i : Nat) : Field := ⟨(UPD.TW_DATA.o i), 0, 32⟩
/-- R217 -/
@[reducible] def UPD.TW_GO.o : Nat := 0xF0A0
def UPD.TW_GO.GO : Field := ⟨UPD.TW_GO.o, 0, 1⟩
/-- R217 -/
@[reducible] def UPD.SN_DIG_OWN.o (i : Nat) : Nat := 0xF100 + 4 * i
def UPD.SN_DIG_OWN.VAL (i : Nat) : Field := ⟨(UPD.SN_DIG_OWN.o i), 0, 32⟩
/-- R217 -/
@[reducible] def UPD.SN_DIG_MIR.o (i : Nat) : Nat := 0xF110 + 4 * i
def UPD.SN_DIG_MIR.VAL (i : Nat) : Field := ⟨(UPD.SN_DIG_MIR.o i), 0, 32⟩
/-- R217 -/
@[reducible] def UPD.SN_DIG_STEP_LO.o : Nat := 0xF120
def UPD.SN_DIG_STEP_LO.VAL : Field := ⟨UPD.SN_DIG_STEP_LO.o, 0, 32⟩
/-- R217 -/
@[reducible] def UPD.SN_DIG_STEP_HI.o : Nat := 0xF124
def UPD.SN_DIG_STEP_HI.VAL : Field := ⟨UPD.SN_DIG_STEP_HI.o, 0, 16⟩
/-- R217 -/
@[reducible] def UPD.SN_LOSS_SUM.o : Nat := 0xF128
def UPD.SN_LOSS_SUM.VAL : Field := ⟨UPD.SN_LOSS_SUM.o, 0, 32⟩
/-- R217 -/
@[reducible] def UPD.SN_LOSS_TOK_LO.o : Nat := 0xF12C
def UPD.SN_LOSS_TOK_LO.VAL : Field := ⟨UPD.SN_LOSS_TOK_LO.o, 0, 32⟩
/-- R217 -/
@[reducible] def UPD.SN_LOSS_TOK_HI.o : Nat := 0xF130
def UPD.SN_LOSS_TOK_HI.VAL : Field := ⟨UPD.SN_LOSS_TOK_HI.o, 0, 32⟩
/-- R217 -/
@[reducible] def UPD.SN_LOSS_STEP_LO.o : Nat := 0xF134
def UPD.SN_LOSS_STEP_LO.VAL : Field := ⟨UPD.SN_LOSS_STEP_LO.o, 0, 32⟩
/-- R217 -/
@[reducible] def UPD.SN_LOSS_STEP_HI.o : Nat := 0xF138
def UPD.SN_LOSS_STEP_HI.VAL : Field := ⟨UPD.SN_LOSS_STEP_HI.o, 0, 16⟩
def UPD.SN_LOSS_STEP_HI.SKIP : Field := ⟨UPD.SN_LOSS_STEP_HI.o, 16, 1⟩
/-- R217 -/
@[reducible] def UPD.SN_UPD_ELEM_LO.o : Nat := 0xF140
def UPD.SN_UPD_ELEM_LO.VAL : Field := ⟨UPD.SN_UPD_ELEM_LO.o, 0, 32⟩
/-- R217 -/
@[reducible] def UPD.SN_UPD_ELEM_HI.o : Nat := 0xF144
def UPD.SN_UPD_ELEM_HI.VAL : Field := ⟨UPD.SN_UPD_ELEM_HI.o, 0, 32⟩
/-- R217 -/
@[reducible] def UPD.SN_SKIP_LO.o : Nat := 0xF148
def UPD.SN_SKIP_LO.VAL : Field := ⟨UPD.SN_SKIP_LO.o, 0, 32⟩
/-- R217 -/
@[reducible] def UPD.SN_SKIP_HI.o : Nat := 0xF14C
def UPD.SN_SKIP_HI.VAL : Field := ⟨UPD.SN_SKIP_HI.o, 0, 32⟩
/-- R236 -/
@[reducible] def HLT.CFG.o : Nat := 0x10000
def HLT.CFG.ENABLE : Field := ⟨HLT.CFG.o, 0, 1⟩
def HLT.CFG.SKIP_MAX : Field := ⟨HLT.CFG.o, 4, 4⟩
/-- R236 -/
@[reducible] def HLT.STAT.o : Nat := 0x10004
def HLT.STAT.VOTING : Field := ⟨HLT.STAT.o, 0, 1⟩
/-- R236 -/
@[reducible] def HLT.VERDICT.o : Nat := 0x10008
def HLT.VERDICT.WORD : Field := ⟨HLT.VERDICT.o, 0, 16⟩
/-- R236 -/
@[reducible] def HLT.VSTEP_LO.o : Nat := 0x1000C
def HLT.VSTEP_LO.VAL : Field := ⟨HLT.VSTEP_LO.o, 0, 32⟩
/-- R236 -/
@[reducible] def HLT.VSTEP_HI.o : Nat := 0x10010
def HLT.VSTEP_HI.VAL : Field := ⟨HLT.VSTEP_HI.o, 0, 16⟩
def HLT.VSTEP_HI.SKIPS : Field := ⟨HLT.VSTEP_HI.o, 16, 4⟩
/-- R236 -/
@[reducible] def HLT.EVT.o : Nat := 0x10014
def HLT.EVT.SEQ : Field := ⟨HLT.EVT.o, 0, 16⟩
def HLT.EVT.CODE : Field := ⟨HLT.EVT.o, 16, 8⟩
/-- R236 -/
@[reducible] def HLT.EVT_INFO.o : Nat := 0x10018
def HLT.EVT_INFO.WORD : Field := ⟨HLT.EVT_INFO.o, 0, 16⟩
def HLT.EVT_INFO.INDEX : Field := ⟨HLT.EVT_INFO.o, 16, 12⟩
def HLT.EVT_INFO.CAUSE : Field := ⟨HLT.EVT_INFO.o, 28, 2⟩
def HLT.EVT_INFO.IDENT : Field := ⟨HLT.EVT_INFO.o, 30, 1⟩
/-- R236 -/
@[reducible] def HLT.QUIET_SHARE.o : Nat := 0x10020
def HLT.QUIET_SHARE.SHARE : Field := ⟨HLT.QUIET_SHARE.o, 0, 16⟩
/-- R236 -/
@[reducible] def HLT.QUIET_STEPS.o : Nat := 0x10024
def HLT.QUIET_STEPS.STEPS : Field := ⟨HLT.QUIET_STEPS.o, 0, 16⟩
/-- R236 -/
@[reducible] def HLT.TC_CTL.o : Nat := 0x10030
def HLT.TC_CTL.EN : Field := ⟨HLT.TC_CTL.o, 0, 1⟩
def HLT.TC_CTL.EVERY : Field := ⟨HLT.TC_CTL.o, 4, 12⟩
def HLT.TC_CTL.RECOV : Field := ⟨HLT.TC_CTL.o, 16, 16⟩
/-- R236 -/
@[reducible] def HLT.TC_STAT.o : Nat := 0x10034
def HLT.TC_STAT.WINDOW : Field := ⟨HLT.TC_STAT.o, 0, 1⟩
/-- R236 -/
@[reducible] def HLT.WIN_SEL.o : Nat := 0x10040
def HLT.WIN_SEL.BANK : Field := ⟨HLT.WIN_SEL.o, 0, 1⟩
def HLT.WIN_SEL.TABLE : Field := ⟨HLT.WIN_SEL.o, 1, 2⟩
def HLT.WIN_SEL.INDEX : Field := ⟨HLT.WIN_SEL.o, 4, 12⟩
def HLT.WIN_SEL.GO : Field := ⟨HLT.WIN_SEL.o, 31, 1⟩
/-- R236 -/
@[reducible] def HLT.WIN_STAT.o : Nat := 0x10044
def HLT.WIN_STAT.DONE : Field := ⟨HLT.WIN_STAT.o, 0, 1⟩
def HLT.WIN_STAT.FINAL : Field := ⟨HLT.WIN_STAT.o, 1, 1⟩
/-- R236 -/
@[reducible] def HLT.WIN_STEP_LO.o : Nat := 0x10048
def HLT.WIN_STEP_LO.VAL : Field := ⟨HLT.WIN_STEP_LO.o, 0, 32⟩
/-- R236 -/
@[reducible] def HLT.WIN_STEP_HI.o : Nat := 0x1004C
def HLT.WIN_STEP_HI.VAL : Field := ⟨HLT.WIN_STEP_HI.o, 0, 16⟩
/-- R236 -/
@[reducible] def HLT.WIN_D.o (i : Nat) : Nat := 0x10080 + 4 * i
def HLT.WIN_D.VAL (i : Nat) : Field := ⟨(HLT.WIN_D.o i), 0, 32⟩
/-- R236 -/
@[reducible] def HLT.SN_ELEM_LO.o : Nat := 0x10100
def HLT.SN_ELEM_LO.VAL : Field := ⟨HLT.SN_ELEM_LO.o, 0, 32⟩
/-- R236 -/
@[reducible] def HLT.SN_ELEM_HI.o : Nat := 0x10104
def HLT.SN_ELEM_HI.VAL : Field := ⟨HLT.SN_ELEM_HI.o, 0, 32⟩
/-- R236 -/
@[reducible] def HLT.SN_ZERO_LO.o : Nat := 0x10108
def HLT.SN_ZERO_LO.VAL : Field := ⟨HLT.SN_ZERO_LO.o, 0, 32⟩
/-- R236 -/
@[reducible] def HLT.SN_ZERO_HI.o : Nat := 0x1010C
def HLT.SN_ZERO_HI.VAL : Field := ⟨HLT.SN_ZERO_HI.o, 0, 32⟩
/-- R236 -/
@[reducible] def HLT.SN_SAT_LO.o : Nat := 0x10110
def HLT.SN_SAT_LO.VAL : Field := ⟨HLT.SN_SAT_LO.o, 0, 32⟩
/-- R236 -/
@[reducible] def HLT.SN_SAT_HI.o : Nat := 0x10114
def HLT.SN_SAT_HI.VAL : Field := ⟨HLT.SN_SAT_HI.o, 0, 32⟩
/-- R236 -/
@[reducible] def HLT.SN_NONFIN_LO.o : Nat := 0x10118
def HLT.SN_NONFIN_LO.VAL : Field := ⟨HLT.SN_NONFIN_LO.o, 0, 32⟩
/-- R236 -/
@[reducible] def HLT.SN_NONFIN_HI.o : Nat := 0x1011C
def HLT.SN_NONFIN_HI.VAL : Field := ⟨HLT.SN_NONFIN_HI.o, 0, 32⟩
/-- R236 -/
@[reducible] def HLT.SN_SKIP_LO.o : Nat := 0x10120
def HLT.SN_SKIP_LO.VAL : Field := ⟨HLT.SN_SKIP_LO.o, 0, 32⟩
/-- R236 -/
@[reducible] def HLT.SN_SKIP_HI.o : Nat := 0x10124
def HLT.SN_SKIP_HI.VAL : Field := ⟨HLT.SN_SKIP_HI.o, 0, 32⟩
/-- R236 -/
@[reducible] def HLT.SN_FAIL_LO.o : Nat := 0x10128
def HLT.SN_FAIL_LO.VAL : Field := ⟨HLT.SN_FAIL_LO.o, 0, 32⟩
/-- R236 -/
@[reducible] def HLT.SN_FAIL_HI.o : Nat := 0x1012C
def HLT.SN_FAIL_HI.VAL : Field := ⟨HLT.SN_FAIL_HI.o, 0, 32⟩
/-- R236 -/
@[reducible] def HLT.SN_TC_RUN_LO.o : Nat := 0x10130
def HLT.SN_TC_RUN_LO.VAL : Field := ⟨HLT.SN_TC_RUN_LO.o, 0, 32⟩
/-- R236 -/
@[reducible] def HLT.SN_TC_RUN_HI.o : Nat := 0x10134
def HLT.SN_TC_RUN_HI.VAL : Field := ⟨HLT.SN_TC_RUN_HI.o, 0, 32⟩
/-- R236 -/
@[reducible] def HLT.SN_TC_BAD_LO.o : Nat := 0x10138
def HLT.SN_TC_BAD_LO.VAL : Field := ⟨HLT.SN_TC_BAD_LO.o, 0, 32⟩
/-- R236 -/
@[reducible] def HLT.SN_TC_BAD_HI.o : Nat := 0x1013C
def HLT.SN_TC_BAD_HI.VAL : Field := ⟨HLT.SN_TC_BAD_HI.o, 0, 32⟩
/-- R259 -/
@[reducible] def MEM.CFG.o : Nat := 0x11000
def MEM.CFG.SQ_EN : Field := ⟨MEM.CFG.o, 0, 1⟩
/-- R259 -/
@[reducible] def MEM.STAT.o : Nat := 0x11004
def MEM.STAT.TRAINED : Field := ⟨MEM.STAT.o, 0, 8⟩
def MEM.STAT.HOLD_FULL : Field := ⟨MEM.STAT.o, 8, 1⟩
/-- R259 -/
@[reducible] def MEM.EVT.o : Nat := 0x11010
def MEM.EVT.SEQ : Field := ⟨MEM.EVT.o, 0, 16⟩
def MEM.EVT.CODE : Field := ⟨MEM.EVT.o, 16, 8⟩
/-- R259 -/
@[reducible] def MEM.EVT_INFO.o : Nat := 0x11014
def MEM.EVT_INFO.WIN : Field := ⟨MEM.EVT_INFO.o, 0, 4⟩
def MEM.EVT_INFO.MODULE : Field := ⟨MEM.EVT_INFO.o, 16, 13⟩
/-- R259 -/
@[reducible] def MEM.STK_STAT.o (i : Nat) : Nat := 0x11040 + 4 * i
def MEM.STK_STAT.TEMP (i : Nat) : Field := ⟨(MEM.STK_STAT.o i), 0, 8⟩
def MEM.STK_STAT.HOT (i : Nat) : Field := ⟨(MEM.STK_STAT.o i), 8, 1⟩
/-- R259 -/
@[reducible] def MEM.WIN_BASE_LO.o (w : Nat) : Nat := 0x11100 + 0x20 * w
def MEM.WIN_BASE_LO.ADDR (w : Nat) : Field := ⟨(MEM.WIN_BASE_LO.o w), 21, 11⟩
/-- R259 -/
@[reducible] def MEM.WIN_BASE_HI.o (w : Nat) : Nat := 0x11104 + 0x20 * w
def MEM.WIN_BASE_HI.ADDR (w : Nat) : Field := ⟨(MEM.WIN_BASE_HI.o w), 0, 16⟩
/-- R259 -/
@[reducible] def MEM.WIN_SIZE.o (w : Nat) : Nat := 0x11108 + 0x20 * w
def MEM.WIN_SIZE.UNITS (w : Nat) : Field := ⟨(MEM.WIN_SIZE.o w), 0, 18⟩
/-- R259 -/
@[reducible] def MEM.WIN_ATTR.o (w : Nat) : Nat := 0x1110C + 0x20 * w
def MEM.WIN_ATTR.VALID (w : Nat) : Field := ⟨(MEM.WIN_ATTR.o w), 0, 1⟩
def MEM.WIN_ATTR.VIEW (w : Nat) : Field := ⟨(MEM.WIN_ATTR.o w), 1, 2⟩
def MEM.WIN_ATTR.SQUASH (w : Nat) : Field := ⟨(MEM.WIN_ATTR.o w), 3, 2⟩
def MEM.WIN_ATTR.STEPTAG (w : Nat) : Field := ⟨(MEM.WIN_ATTR.o w), 5, 1⟩
def MEM.WIN_ATTR.WLSB (w : Nat) : Field := ⟨(MEM.WIN_ATTR.o w), 8, 9⟩
/-- R259 -/
@[reducible] def MEM.WIN_STAT.o (w : Nat) : Nat := 0x11110 + 0x20 * w
def MEM.WIN_STAT.OPEN (w : Nat) : Field := ⟨(MEM.WIN_STAT.o w), 0, 1⟩
def MEM.WIN_STAT.TAG (w : Nat) : Field := ⟨(MEM.WIN_STAT.o w), 16, 16⟩
/-- R259 -/
@[reducible] def MEM.WIN_CTL.o (w : Nat) : Nat := 0x11114 + 0x20 * w
def MEM.WIN_CTL.CLEAR (w : Nat) : Field := ⟨(MEM.WIN_CTL.o w), 0, 1⟩
/-- R259 -/
@[reducible] def MEM.SN_RD_BYTES_LO.o : Nat := 0x11400
def MEM.SN_RD_BYTES_LO.VAL : Field := ⟨MEM.SN_RD_BYTES_LO.o, 0, 32⟩
/-- R259 -/
@[reducible] def MEM.SN_RD_BYTES_HI.o : Nat := 0x11404
def MEM.SN_RD_BYTES_HI.VAL : Field := ⟨MEM.SN_RD_BYTES_HI.o, 0, 32⟩
/-- R259 -/
@[reducible] def MEM.SN_WR_BYTES_LO.o : Nat := 0x11408
def MEM.SN_WR_BYTES_LO.VAL : Field := ⟨MEM.SN_WR_BYTES_LO.o, 0, 32⟩
/-- R259 -/
@[reducible] def MEM.SN_WR_BYTES_HI.o : Nat := 0x1140C
def MEM.SN_WR_BYTES_HI.VAL : Field := ⟨MEM.SN_WR_BYTES_HI.o, 0, 32⟩
/-- R259 -/
@[reducible] def MEM.SN_FAR_BYTES_LO.o : Nat := 0x11410
def MEM.SN_FAR_BYTES_LO.VAL : Field := ⟨MEM.SN_FAR_BYTES_LO.o, 0, 32⟩
/-- R259 -/
@[reducible] def MEM.SN_FAR_BYTES_HI.o : Nat := 0x11414
def MEM.SN_FAR_BYTES_HI.VAL : Field := ⟨MEM.SN_FAR_BYTES_HI.o, 0, 32⟩
/-- R259 -/
@[reducible] def MEM.SN_SQ_ADDS_LO.o : Nat := 0x11418
def MEM.SN_SQ_ADDS_LO.VAL : Field := ⟨MEM.SN_SQ_ADDS_LO.o, 0, 32⟩
/-- R259 -/
@[reducible] def MEM.SN_SQ_ADDS_HI.o : Nat := 0x1141C
def MEM.SN_SQ_ADDS_HI.VAL : Field := ⟨MEM.SN_SQ_ADDS_HI.o, 0, 32⟩
/-- R259 -/
@[reducible] def MEM.SN_SQ_ROUNDED_LO.o : Nat := 0x11420
def MEM.SN_SQ_ROUNDED_LO.VAL : Field := ⟨MEM.SN_SQ_ROUNDED_LO.o, 0, 32⟩
/-- R259 -/
@[reducible] def MEM.SN_SQ_ROUNDED_HI.o : Nat := 0x11424
def MEM.SN_SQ_ROUNDED_HI.VAL : Field := ⟨MEM.SN_SQ_ROUNDED_HI.o, 0, 32⟩
/-- R259 -/
@[reducible] def MEM.SN_SQ_OUT_LO.o : Nat := 0x11428
def MEM.SN_SQ_OUT_LO.VAL : Field := ⟨MEM.SN_SQ_OUT_LO.o, 0, 32⟩
/-- R259 -/
@[reducible] def MEM.SN_SQ_OUT_HI.o : Nat := 0x1142C
def MEM.SN_SQ_OUT_HI.VAL : Field := ⟨MEM.SN_SQ_OUT_HI.o, 0, 32⟩
/-- R259 -/
@[reducible] def MEM.SN_SQ_NONFIN_LO.o : Nat := 0x11430
def MEM.SN_SQ_NONFIN_LO.VAL : Field := ⟨MEM.SN_SQ_NONFIN_LO.o, 0, 32⟩
/-- R259 -/
@[reducible] def MEM.SN_SQ_NONFIN_HI.o : Nat := 0x11434
def MEM.SN_SQ_NONFIN_HI.VAL : Field := ⟨MEM.SN_SQ_NONFIN_HI.o, 0, 32⟩
/-- R259 -/
@[reducible] def MEM.SN_SQ_LATE_LO.o : Nat := 0x11438
def MEM.SN_SQ_LATE_LO.VAL : Field := ⟨MEM.SN_SQ_LATE_LO.o, 0, 32⟩
/-- R259 -/
@[reducible] def MEM.SN_SQ_LATE_HI.o : Nat := 0x1143C
def MEM.SN_SQ_LATE_HI.VAL : Field := ⟨MEM.SN_SQ_LATE_HI.o, 0, 32⟩
/-- R259 -/
@[reducible] def MEM.SN_SQ_MISS_LO.o : Nat := 0x11440
def MEM.SN_SQ_MISS_LO.VAL : Field := ⟨MEM.SN_SQ_MISS_LO.o, 0, 32⟩
/-- R259 -/
@[reducible] def MEM.SN_SQ_MISS_HI.o : Nat := 0x11444
def MEM.SN_SQ_MISS_HI.VAL : Field := ⟨MEM.SN_SQ_MISS_HI.o, 0, 32⟩
/-- R281 -/
@[reducible] def MPR.CFG.o : Nat := 0x12000
def MPR.CFG.AUTO : Field := ⟨MPR.CFG.o, 0, 1⟩
def MPR.CFG.CE_REMAP : Field := ⟨MPR.CFG.o, 4, 4⟩
def MPR.CFG.PIN_MARK : Field := ⟨MPR.CFG.o, 8, 8⟩
/-- R281 -/
@[reducible] def MPR.STAT.o : Nat := 0x12004
def MPR.STAT.MARKED : Field := ⟨MPR.STAT.o, 0, 8⟩
def MPR.STAT.DEGRADED : Field := ⟨MPR.STAT.o, 8, 8⟩
def MPR.STAT.SCRUB_BUSY : Field := ⟨MPR.STAT.o, 16, 1⟩
/-- R281 -/
@[reducible] def MPR.EVT.o : Nat := 0x12010
def MPR.EVT.SEQ : Field := ⟨MPR.EVT.o, 0, 16⟩
def MPR.EVT.CODE : Field := ⟨MPR.EVT.o, 16, 8⟩
/-- R281 -/
@[reducible] def MPR.EVT_INFO.o : Nat := 0x12014
def MPR.EVT_INFO.STACK : Field := ⟨MPR.EVT_INFO.o, 0, 3⟩
def MPR.EVT_INFO.CHANNEL : Field := ⟨MPR.EVT_INFO.o, 3, 5⟩
def MPR.EVT_INFO.PIN : Field := ⟨MPR.EVT_INFO.o, 8, 6⟩
def MPR.EVT_INFO.REGION : Field := ⟨MPR.EVT_INFO.o, 16, 3⟩
def MPR.EVT_INFO.ENTRY : Field := ⟨MPR.EVT_INFO.o, 20, 4⟩
/-- R281 -/
@[reducible] def MPR.EVT_ADDR_LO.o : Nat := 0x12018
def MPR.EVT_ADDR_LO.ADDR : Field := ⟨MPR.EVT_ADDR_LO.o, 0, 32⟩
/-- R281 -/
@[reducible] def MPR.EVT_ADDR_HI.o : Nat := 0x1201C
def MPR.EVT_ADDR_HI.ADDR : Field := ⟨MPR.EVT_ADDR_HI.o, 0, 16⟩
/-- R281 -/
@[reducible] def MPR.SCRUB_BASE_LO.o : Nat := 0x12040
def MPR.SCRUB_BASE_LO.ADDR : Field := ⟨MPR.SCRUB_BASE_LO.o, 24, 8⟩
/-- R281 -/
@[reducible] def MPR.SCRUB_BASE_HI.o : Nat := 0x12044
def MPR.SCRUB_BASE_HI.ADDR : Field := ⟨MPR.SCRUB_BASE_HI.o, 0, 16⟩
/-- R281 -/
@[reducible] def MPR.SCRUB_LEN.o : Nat := 0x12048
def MPR.SCRUB_LEN.UNITS : Field := ⟨MPR.SCRUB_LEN.o, 0, 16⟩
/-- R281 -/
@[reducible] def MPR.SCRUB_SUM_LO.o : Nat := 0x1204C
def MPR.SCRUB_SUM_LO.ADDR : Field := ⟨MPR.SCRUB_SUM_LO.o, 6, 26⟩
/-- R281 -/
@[reducible] def MPR.SCRUB_SUM_HI.o : Nat := 0x12050
def MPR.SCRUB_SUM_HI.ADDR : Field := ⟨MPR.SCRUB_SUM_HI.o, 0, 16⟩
/-- R281 -/
@[reducible] def MPR.SCRUB_CTL.o : Nat := 0x12054
def MPR.SCRUB_CTL.GO : Field := ⟨MPR.SCRUB_CTL.o, 0, 1⟩
def MPR.SCRUB_CTL.ABORT : Field := ⟨MPR.SCRUB_CTL.o, 1, 1⟩
/-- R281 -/
@[reducible] def MPR.SCRUB_STAT.o : Nat := 0x12058
def MPR.SCRUB_STAT.SLICES : Field := ⟨MPR.SCRUB_STAT.o, 0, 16⟩
/-- R281 -/
@[reducible] def MPR.REMAP_REQ_LO.o : Nat := 0x12060
def MPR.REMAP_REQ_LO.ADDR : Field := ⟨MPR.REMAP_REQ_LO.o, 6, 26⟩
/-- R281 -/
@[reducible] def MPR.REMAP_REQ_HI.o : Nat := 0x12064
def MPR.REMAP_REQ_HI.ADDR : Field := ⟨MPR.REMAP_REQ_HI.o, 0, 16⟩
def MPR.REMAP_REQ_HI.GRAN : Field := ⟨MPR.REMAP_REQ_HI.o, 16, 1⟩
def MPR.REMAP_REQ_HI.GO : Field := ⟨MPR.REMAP_REQ_HI.o, 31, 1⟩
/-- R281 -/
@[reducible] def MPR.REMAP_LO.o (i : Nat) : Nat := 0x12100 + 8 * i
def MPR.REMAP_LO.VAL (i : Nat) : Field := ⟨(MPR.REMAP_LO.o i), 0, 32⟩
/-- R281 -/
@[reducible] def MPR.REMAP_HI.o (i : Nat) : Nat := 0x12104 + 8 * i
def MPR.REMAP_HI.VAL (i : Nat) : Field := ⟨(MPR.REMAP_HI.o i), 0, 32⟩
/-- R281 -/
@[reducible] def MPR.PIN.o (i : Nat) : Nat := 0x12600 + 4 * i
def MPR.PIN.PIN (i : Nat) : Field := ⟨(MPR.PIN.o i), 0, 6⟩
def MPR.PIN.VALID (i : Nat) : Field := ⟨(MPR.PIN.o i), 6, 1⟩
def MPR.PIN.DEGRADED (i : Nat) : Field := ⟨(MPR.PIN.o i), 7, 1⟩
/-- R281 -/
@[reducible] def MPR.SN_CE_LO.o : Nat := 0x12A00
def MPR.SN_CE_LO.VAL : Field := ⟨MPR.SN_CE_LO.o, 0, 32⟩
/-- R281 -/
@[reducible] def MPR.SN_CE_HI.o : Nat := 0x12A04
def MPR.SN_CE_HI.VAL : Field := ⟨MPR.SN_CE_HI.o, 0, 32⟩
/-- R281 -/
@[reducible] def MPR.SN_UE_LO.o : Nat := 0x12A08
def MPR.SN_UE_LO.VAL : Field := ⟨MPR.SN_UE_LO.o, 0, 32⟩
/-- R281 -/
@[reducible] def MPR.SN_UE_HI.o : Nat := 0x12A0C
def MPR.SN_UE_HI.VAL : Field := ⟨MPR.SN_UE_HI.o, 0, 32⟩
/-- R281 -/
@[reducible] def MPR.SN_MERGE_LO.o : Nat := 0x12A10
def MPR.SN_MERGE_LO.VAL : Field := ⟨MPR.SN_MERGE_LO.o, 0, 32⟩
/-- R281 -/
@[reducible] def MPR.SN_MERGE_HI.o : Nat := 0x12A14
def MPR.SN_MERGE_HI.VAL : Field := ⟨MPR.SN_MERGE_HI.o, 0, 32⟩
/-- R281 -/
@[reducible] def MPR.SN_PARITY_LO.o : Nat := 0x12A18
def MPR.SN_PARITY_LO.VAL : Field := ⟨MPR.SN_PARITY_LO.o, 0, 32⟩
/-- R281 -/
@[reducible] def MPR.SN_PARITY_HI.o : Nat := 0x12A1C
def MPR.SN_PARITY_HI.VAL : Field := ⟨MPR.SN_PARITY_HI.o, 0, 32⟩
/-- R281 -/
@[reducible] def MPR.SN_SCRUB_LO.o : Nat := 0x12A20
def MPR.SN_SCRUB_LO.VAL : Field := ⟨MPR.SN_SCRUB_LO.o, 0, 32⟩
/-- R281 -/
@[reducible] def MPR.SN_SCRUB_HI.o : Nat := 0x12A24
def MPR.SN_SCRUB_HI.VAL : Field := ⟨MPR.SN_SCRUB_HI.o, 0, 32⟩
/-- R315 -/
@[reducible] def LNK.CAPS.o : Nat := 0xA000
def LNK.CAPS.RATES : Field := ⟨LNK.CAPS.o, 0, 3⟩
def LNK.CAPS.IL : Field := ⟨LNK.CAPS.o, 3, 1⟩
/-- R315 -/
@[reducible] def LNK.EVT.o : Nat := 0xA010
def LNK.EVT.SEQ : Field := ⟨LNK.EVT.o, 0, 16⟩
def LNK.EVT.CODE : Field := ⟨LNK.EVT.o, 16, 8⟩
/-- R315 -/
@[reducible] def LNK.EVT_INFO.o : Nat := 0xA014
def LNK.EVT_INFO.PORT : Field := ⟨LNK.EVT_INFO.o, 0, 3⟩
def LNK.EVT_INFO.MODULE : Field := ⟨LNK.EVT_INFO.o, 8, 13⟩
/-- R315 -/
@[reducible] def LNK.PORT_CTL.o (p : Nat) : Nat := 0xA100 + 0x80 * p
def LNK.PORT_CTL.ENABLE (p : Nat) : Field := ⟨(LNK.PORT_CTL.o p), 0, 1⟩
def LNK.PORT_CTL.HB_EN (p : Nat) : Field := ⟨(LNK.PORT_CTL.o p), 1, 1⟩
def LNK.PORT_CTL.RETRAIN (p : Nat) : Field := ⟨(LNK.PORT_CTL.o p), 2, 1⟩
def LNK.PORT_CTL.FENCE (p : Nat) : Field := ⟨(LNK.PORT_CTL.o p), 3, 1⟩
def LNK.PORT_CTL.UNFENCE (p : Nat) : Field := ⟨(LNK.PORT_CTL.o p), 4, 1⟩
def LNK.PORT_CTL.FLOOR (p : Nat) : Field := ⟨(LNK.PORT_CTL.o p), 8, 4⟩
def LNK.PORT_CTL.HB_MISS (p : Nat) : Field := ⟨(LNK.PORT_CTL.o p), 12, 3⟩
/-- R315 -/
@[reducible] def LNK.PORT_STAT.o (p : Nat) : Nat := 0xA104 + 0x80 * p
def LNK.PORT_STAT.STATE (p : Nat) : Field := ⟨(LNK.PORT_STAT.o p), 0, 3⟩
def LNK.PORT_STAT.BY_PEER (p : Nat) : Field := ⟨(LNK.PORT_STAT.o p), 3, 1⟩
def LNK.PORT_STAT.RANK (p : Nat) : Field := ⟨(LNK.PORT_STAT.o p), 4, 4⟩
def LNK.PORT_STAT.FIBRES (p : Nat) : Field := ⟨(LNK.PORT_STAT.o p), 8, 4⟩
def LNK.PORT_STAT.IL (p : Nat) : Field := ⟨(LNK.PORT_STAT.o p), 12, 1⟩
def LNK.PORT_STAT.PEER_PORT (p : Nat) : Field := ⟨(LNK.PORT_STAT.o p), 13, 4⟩
def LNK.PORT_STAT.PEER (p : Nat) : Field := ⟨(LNK.PORT_STAT.o p), 17, 13⟩
/-- R315 -/
@[reducible] def LNK.PORT_VER.o (p : Nat) : Nat := 0xA108 + 0x80 * p
def LNK.PORT_VER.VERSION (p : Nat) : Field := ⟨(LNK.PORT_VER.o p), 0, 8⟩
/-- R315 -/
@[reducible] def LNK.CRED.o (p i : Nat) : Nat := 0xA110 + 0x80 * p + 4 * i
def LNK.CRED.SHARE_A (p i : Nat) : Field := ⟨(LNK.CRED.o p i), 0, 10⟩
def LNK.CRED.SHARE_B (p i : Nat) : Field := ⟨(LNK.CRED.o p i), 16, 10⟩
/-- R315 -/
@[reducible] def LNK.HB_LAST.o (p : Nat) : Nat := 0xA120 + 0x80 * p
def LNK.HB_LAST.COUNT (p : Nat) : Field := ⟨(LNK.HB_LAST.o p), 0, 16⟩
/-- R315 -/
@[reducible] def LNK.SN_FEC_CE_LO.o (p : Nat) : Nat := 0xA140 + 0x80 * p
def LNK.SN_FEC_CE_LO.VAL (p : Nat) : Field := ⟨(LNK.SN_FEC_CE_LO.o p), 0, 32⟩
/-- R315 -/
@[reducible] def LNK.SN_FEC_CE_HI.o (p : Nat) : Nat := 0xA144 + 0x80 * p
def LNK.SN_FEC_CE_HI.VAL (p : Nat) : Field := ⟨(LNK.SN_FEC_CE_HI.o p), 0, 32⟩
/-- R315 -/
@[reducible] def LNK.SN_FEC_UE_LO.o (p : Nat) : Nat := 0xA148 + 0x80 * p
def LNK.SN_FEC_UE_LO.VAL (p : Nat) : Field := ⟨(LNK.SN_FEC_UE_LO.o p), 0, 32⟩
/-- R315 -/
@[reducible] def LNK.SN_FEC_UE_HI.o (p : Nat) : Nat := 0xA14C + 0x80 * p
def LNK.SN_FEC_UE_HI.VAL (p : Nat) : Field := ⟨(LNK.SN_FEC_UE_HI.o p), 0, 32⟩
/-- R315 -/
@[reducible] def LNK.SN_RESENT_LO.o (p : Nat) : Nat := 0xA150 + 0x80 * p
def LNK.SN_RESENT_LO.VAL (p : Nat) : Field := ⟨(LNK.SN_RESENT_LO.o p), 0, 32⟩
/-- R315 -/
@[reducible] def LNK.SN_RESENT_HI.o (p : Nat) : Nat := 0xA154 + 0x80 * p
def LNK.SN_RESENT_HI.VAL (p : Nat) : Field := ⟨(LNK.SN_RESENT_HI.o p), 0, 32⟩
/-- R315 -/
@[reducible] def LNK.SN_TX_UNITS_LO.o (p : Nat) : Nat := 0xA158 + 0x80 * p
def LNK.SN_TX_UNITS_LO.VAL (p : Nat) : Field := ⟨(LNK.SN_TX_UNITS_LO.o p), 0, 32⟩
/-- R315 -/
@[reducible] def LNK.SN_TX_UNITS_HI.o (p : Nat) : Nat := 0xA15C + 0x80 * p
def LNK.SN_TX_UNITS_HI.VAL (p : Nat) : Field := ⟨(LNK.SN_TX_UNITS_HI.o p), 0, 32⟩
/-- R315 -/
@[reducible] def LNK.SN_RX_UNITS_LO.o (p : Nat) : Nat := 0xA160 + 0x80 * p
def LNK.SN_RX_UNITS_LO.VAL (p : Nat) : Field := ⟨(LNK.SN_RX_UNITS_LO.o p), 0, 32⟩
/-- R315 -/
@[reducible] def LNK.SN_RX_UNITS_HI.o (p : Nat) : Nat := 0xA164 + 0x80 * p
def LNK.SN_RX_UNITS_HI.VAL (p : Nat) : Field := ⟨(LNK.SN_RX_UNITS_HI.o p), 0, 32⟩
/-- R315 -/
@[reducible] def LNK.SN_PKT_BAD_LO.o (p : Nat) : Nat := 0xA168 + 0x80 * p
def LNK.SN_PKT_BAD_LO.VAL (p : Nat) : Field := ⟨(LNK.SN_PKT_BAD_LO.o p), 0, 32⟩
/-- R315 -/
@[reducible] def LNK.SN_PKT_BAD_HI.o (p : Nat) : Nat := 0xA16C + 0x80 * p
def LNK.SN_PKT_BAD_HI.VAL (p : Nat) : Field := ⟨(LNK.SN_PKT_BAD_HI.o p), 0, 32⟩
/-- R315 -/
@[reducible] def LNK.SN_RETRAIN_LO.o (p : Nat) : Nat := 0xA170 + 0x80 * p
def LNK.SN_RETRAIN_LO.VAL (p : Nat) : Field := ⟨(LNK.SN_RETRAIN_LO.o p), 0, 32⟩
/-- R315 -/
@[reducible] def LNK.SN_RETRAIN_HI.o (p : Nat) : Nat := 0xA174 + 0x80 * p
def LNK.SN_RETRAIN_HI.VAL (p : Nat) : Field := ⟨(LNK.SN_RETRAIN_HI.o p), 0, 32⟩
/-- R315 -/
@[reducible] def LNK.SN_HB_RX_LO.o (p : Nat) : Nat := 0xA178 + 0x80 * p
def LNK.SN_HB_RX_LO.VAL (p : Nat) : Field := ⟨(LNK.SN_HB_RX_LO.o p), 0, 32⟩
/-- R315 -/
@[reducible] def LNK.SN_HB_RX_HI.o (p : Nat) : Nat := 0xA17C + 0x80 * p
def LNK.SN_HB_RX_HI.VAL (p : Nat) : Field := ⟨(LNK.SN_HB_RX_HI.o p), 0, 32⟩
/-- R340 -/
@[reducible] def TOR.CFG.o : Nat := 0x9000
def TOR.CFG.ENABLE : Field := ⟨TOR.CFG.o, 0, 1⟩
/-- R340 -/
@[reducible] def TOR.ID.o : Nat := 0x9004
def TOR.ID.MODULE : Field := ⟨TOR.ID.o, 0, 13⟩
/-- R340 -/
@[reducible] def TOR.TORUS.o : Nat := 0x9008
def TOR.TORUS.TX : Field := ⟨TOR.TORUS.o, 0, 6⟩
def TOR.TORUS.TY : Field := ⟨TOR.TORUS.o, 6, 5⟩
def TOR.TORUS.TZ : Field := ⟨TOR.TORUS.o, 11, 5⟩
/-- R340 -/
@[reducible] def TOR.ORIGIN.o : Nat := 0x900C
def TOR.ORIGIN.X0 : Field := ⟨TOR.ORIGIN.o, 0, 5⟩
def TOR.ORIGIN.Y0 : Field := ⟨TOR.ORIGIN.o, 8, 4⟩
def TOR.ORIGIN.Z0 : Field := ⟨TOR.ORIGIN.o, 16, 4⟩
/-- R340 -/
@[reducible] def TOR.SIZE.o : Nat := 0x9010
def TOR.SIZE.SX : Field := ⟨TOR.SIZE.o, 0, 6⟩
def TOR.SIZE.SY : Field := ⟨TOR.SIZE.o, 8, 5⟩
def TOR.SIZE.SZ : Field := ⟨TOR.SIZE.o, 16, 5⟩
/-- R340 -/
@[reducible] def TOR.RANK.o : Nat := 0x9014
def TOR.RANK.Q : Field := ⟨TOR.RANK.o, 0, 13⟩
def TOR.RANK.WRAP : Field := ⟨TOR.RANK.o, 13, 3⟩
/-- R340 -/
@[reducible] def TOR.EVT.o : Nat := 0x9020
def TOR.EVT.SEQ : Field := ⟨TOR.EVT.o, 0, 16⟩
def TOR.EVT.CODE : Field := ⟨TOR.EVT.o, 16, 8⟩
/-- R340 -/
@[reducible] def TOR.EVT_INFO.o : Nat := 0x9024
def TOR.EVT_INFO.MODULE : Field := ⟨TOR.EVT_INFO.o, 0, 13⟩
def TOR.EVT_INFO.PORT : Field := ⟨TOR.EVT_INFO.o, 13, 3⟩
def TOR.EVT_INFO.REASON : Field := ⟨TOR.EVT_INFO.o, 16, 8⟩
/-- R340 -/
@[reducible] def TOR.BRIDGE.o : Nat := 0x9030
def TOR.BRIDGE.ID : Field := ⟨TOR.BRIDGE.o, 0, 13⟩
def TOR.BRIDGE.BACKUP : Field := ⟨TOR.BRIDGE.o, 16, 13⟩
/-- R340 -/
@[reducible] def TOR.BRIDGE_STAT.o : Nat := 0x9034
def TOR.BRIDGE_STAT.ACTIVE : Field := ⟨TOR.BRIDGE_STAT.o, 0, 1⟩
/-- R340 -/
@[reducible] def TOR.IN_BASE_LO.o : Nat := 0x9038
def TOR.IN_BASE_LO.ADDR : Field := ⟨TOR.IN_BASE_LO.o, 21, 11⟩
/-- R340 -/
@[reducible] def TOR.IN_BASE_HI.o : Nat := 0x903C
def TOR.IN_BASE_HI.ADDR : Field := ⟨TOR.IN_BASE_HI.o, 0, 16⟩
/-- R340 -/
@[reducible] def TOR.IN_SIZE.o : Nat := 0x9040
def TOR.IN_SIZE.UNITS : Field := ⟨TOR.IN_SIZE.o, 0, 16⟩
/-- R340 -/
@[reducible] def TOR.LR_BASE_LO.o : Nat := 0x9044
def TOR.LR_BASE_LO.ADDR : Field := ⟨TOR.LR_BASE_LO.o, 5, 27⟩
/-- R340 -/
@[reducible] def TOR.LR_BASE_HI.o : Nat := 0x9048
def TOR.LR_BASE_HI.ADDR : Field := ⟨TOR.LR_BASE_HI.o, 0, 16⟩
def TOR.LR_BASE_HI.RECORDS : Field := ⟨TOR.LR_BASE_HI.o, 16, 16⟩
/-- R340 -/
@[reducible] def TOR.LR_HEAD.o : Nat := 0x904C
def TOR.LR_HEAD.COUNT : Field := ⟨TOR.LR_HEAD.o, 0, 32⟩
/-- R340 -/
@[reducible] def TOR.AL_ID.o (i : Nat) : Nat := 0x9100 + 16 * i
def TOR.AL_ID.LOST (i : Nat) : Field := ⟨(TOR.AL_ID.o i), 0, 13⟩
def TOR.AL_ID.STANDIN (i : Nat) : Field := ⟨(TOR.AL_ID.o i), 16, 13⟩
def TOR.AL_ID.VALID (i : Nat) : Field := ⟨(TOR.AL_ID.o i), 31, 1⟩
/-- R340 -/
@[reducible] def TOR.AL_STEP_LO.o (i : Nat) : Nat := 0x9104 + 16 * i
def TOR.AL_STEP_LO.VAL (i : Nat) : Field := ⟨(TOR.AL_STEP_LO.o i), 0, 32⟩
/-- R340 -/
@[reducible] def TOR.AL_STEP_HI.o (i : Nat) : Nat := 0x9108 + 16 * i
def TOR.AL_STEP_HI.VAL (i : Nat) : Field := ⟨(TOR.AL_STEP_HI.o i), 0, 16⟩
def TOR.AL_STEP_HI.EPOCH (i : Nat) : Field := ⟨(TOR.AL_STEP_HI.o i), 16, 16⟩
/-- R340 -/
@[reducible] def TOR.COLL_CTL.o : Nat := 0x9300
def TOR.COLL_CTL.ENABLE : Field := ⟨TOR.COLL_CTL.o, 0, 1⟩
def TOR.COLL_CTL.RESUME : Field := ⟨TOR.COLL_CTL.o, 1, 1⟩
/-- R340 -/
@[reducible] def TOR.COLL_PROG_LO.o : Nat := 0x9304
def TOR.COLL_PROG_LO.ADDR : Field := ⟨TOR.COLL_PROG_LO.o, 6, 26⟩
/-- R340 -/
@[reducible] def TOR.COLL_PROG_HI.o : Nat := 0x9308
def TOR.COLL_PROG_HI.ADDR : Field := ⟨TOR.COLL_PROG_HI.o, 0, 16⟩
def TOR.COLL_PROG_HI.COLL_N : Field := ⟨TOR.COLL_PROG_HI.o, 16, 16⟩
/-- R340 -/
@[reducible] def TOR.COLL_CNT_LO.o : Nat := 0x930C
def TOR.COLL_CNT_LO.ADDR : Field := ⟨TOR.COLL_CNT_LO.o, 2, 30⟩
/-- R340 -/
@[reducible] def TOR.COLL_CNT_HI.o : Nat := 0x9310
def TOR.COLL_CNT_HI.ADDR : Field := ⟨TOR.COLL_CNT_HI.o, 0, 16⟩
def TOR.COLL_CNT_HI.EN : Field := ⟨TOR.COLL_CNT_HI.o, 16, 1⟩
/-- R340 -/
@[reducible] def TOR.COLL_STAT.o : Nat := 0x9314
def TOR.COLL_STAT.ENTRY : Field := ⟨TOR.COLL_STAT.o, 0, 16⟩
def TOR.COLL_STAT.STOPPED : Field := ⟨TOR.COLL_STAT.o, 16, 1⟩
/-- R340 -/
@[reducible] def TOR.COLL_DONE.o : Nat := 0x9318
def TOR.COLL_DONE.COUNT : Field := ⟨TOR.COLL_DONE.o, 0, 32⟩
/-- R340 -/
@[reducible] def TOR.SN_FWD_LO.o : Nat := 0x9400
def TOR.SN_FWD_LO.VAL : Field := ⟨TOR.SN_FWD_LO.o, 0, 32⟩
/-- R340 -/
@[reducible] def TOR.SN_FWD_HI.o : Nat := 0x9404
def TOR.SN_FWD_HI.VAL : Field := ⟨TOR.SN_FWD_HI.o, 0, 32⟩
/-- R340 -/
@[reducible] def TOR.SN_DETOUR_LO.o : Nat := 0x9408
def TOR.SN_DETOUR_LO.VAL : Field := ⟨TOR.SN_DETOUR_LO.o, 0, 32⟩
/-- R340 -/
@[reducible] def TOR.SN_DETOUR_HI.o : Nat := 0x940C
def TOR.SN_DETOUR_HI.VAL : Field := ⟨TOR.SN_DETOUR_HI.o, 0, 32⟩
/-- R340 -/
@[reducible] def TOR.SN_DROP_LO.o : Nat := 0x9410
def TOR.SN_DROP_LO.VAL : Field := ⟨TOR.SN_DROP_LO.o, 0, 32⟩
/-- R340 -/
@[reducible] def TOR.SN_DROP_HI.o : Nat := 0x9414
def TOR.SN_DROP_HI.VAL : Field := ⟨TOR.SN_DROP_HI.o, 0, 32⟩
/-- R340 -/
@[reducible] def TOR.SN_FOREIGN_LO.o : Nat := 0x9418
def TOR.SN_FOREIGN_LO.VAL : Field := ⟨TOR.SN_FOREIGN_LO.o, 0, 32⟩
/-- R340 -/
@[reducible] def TOR.SN_FOREIGN_HI.o : Nat := 0x941C
def TOR.SN_FOREIGN_HI.VAL : Field := ⟨TOR.SN_FOREIGN_HI.o, 0, 32⟩
/-- R342 -/
@[reducible] def VIN.CFG.o : Nat := 0x8000
def VIN.CFG.ENABLE : Field := ⟨VIN.CFG.o, 0, 1⟩
/-- R342 -/
@[reducible] def VIN.STAT.o : Nat := 0x8004
def VIN.STAT.LOCKED : Field := ⟨VIN.STAT.o, 0, 1⟩
def VIN.STAT.ROOT : Field := ⟨VIN.STAT.o, 1, 1⟩
def VIN.STAT.HOLDOVER : Field := ⟨VIN.STAT.o, 2, 1⟩
def VIN.STAT.PARENT : Field := ⟨VIN.STAT.o, 3, 4⟩
/-- R342 -/
@[reducible] def VIN.EVT.o : Nat := 0x8010
def VIN.EVT.SEQ : Field := ⟨VIN.EVT.o, 0, 16⟩
def VIN.EVT.CODE : Field := ⟨VIN.EVT.o, 16, 8⟩
/-- R342 -/
@[reducible] def VIN.SN_TIME_LO.o : Nat := 0x8100
def VIN.SN_TIME_LO.VAL : Field := ⟨VIN.SN_TIME_LO.o, 0, 32⟩
/-- R342 -/
@[reducible] def VIN.SN_TIME_HI.o : Nat := 0x8104
def VIN.SN_TIME_HI.VAL : Field := ⟨VIN.SN_TIME_HI.o, 0, 32⟩
/-- R342 -/
@[reducible] def VIN.SN_STEP_LO.o : Nat := 0x8108
def VIN.SN_STEP_LO.VAL : Field := ⟨VIN.SN_STEP_LO.o, 0, 32⟩
/-- R342 -/
@[reducible] def VIN.SN_STEP_HI.o : Nat := 0x810C
def VIN.SN_STEP_HI.VAL : Field := ⟨VIN.SN_STEP_HI.o, 0, 16⟩
/-- R342 -/
@[reducible] def VIN.SN_CHECKED_LO.o : Nat := 0x8110
def VIN.SN_CHECKED_LO.VAL : Field := ⟨VIN.SN_CHECKED_LO.o, 0, 32⟩
/-- R342 -/
@[reducible] def VIN.SN_CHECKED_HI.o : Nat := 0x8114
def VIN.SN_CHECKED_HI.VAL : Field := ⟨VIN.SN_CHECKED_HI.o, 0, 16⟩
/-- R342 -/
@[reducible] def VIN.SN_CORR.o : Nat := 0x8118
def VIN.SN_CORR.PS : Field := ⟨VIN.SN_CORR.o, 0, 32⟩
/-- R342 -/
@[reducible] def VIN.SN_SYNC_LO.o : Nat := 0x811C
def VIN.SN_SYNC_LO.VAL : Field := ⟨VIN.SN_SYNC_LO.o, 0, 32⟩
/-- R342 -/
@[reducible] def VIN.SN_SYNC_HI.o : Nat := 0x8120
def VIN.SN_SYNC_HI.VAL : Field := ⟨VIN.SN_SYNC_HI.o, 0, 32⟩
/-- R387 -/
@[reducible] def DUP.CFG.o : Nat := 0xB000
def DUP.CFG.ENABLE : Field := ⟨DUP.CFG.o, 0, 1⟩
def DUP.CFG.PPORT : Field := ⟨DUP.CFG.o, 1, 1⟩
def DUP.CFG.ROLE_REQ : Field := ⟨DUP.CFG.o, 2, 3⟩
/-- R387 -/
@[reducible] def DUP.ROLE.o : Nat := 0xB004
def DUP.ROLE.ROLE : Field := ⟨DUP.ROLE.o, 0, 3⟩
def DUP.ROLE.ARMED : Field := ⟨DUP.ROLE.o, 3, 1⟩
def DUP.ROLE.TKO_PENDING : Field := ⟨DUP.ROLE.o, 4, 1⟩
def DUP.ROLE.RM_BUSY : Field := ⟨DUP.ROLE.o, 5, 1⟩
def DUP.ROLE.DETOUR : Field := ⟨DUP.ROLE.o, 6, 1⟩
/-- R387 -/
@[reducible] def DUP.PARTNER.o : Nat := 0xB008
def DUP.PARTNER.ID : Field := ⟨DUP.PARTNER.o, 0, 13⟩
/-- R387 -/
@[reducible] def DUP.TRAY.o : Nat := 0xB00C
def DUP.TRAY.ID : Field := ⟨DUP.TRAY.o, 0, 16⟩
/-- R387 -/
@[reducible] def DUP.EVT.o : Nat := 0xB010
def DUP.EVT.SEQ : Field := ⟨DUP.EVT.o, 0, 16⟩
def DUP.EVT.CODE : Field := ⟨DUP.EVT.o, 16, 8⟩
/-- R387 -/
@[reducible] def DUP.EVT_INFO.o : Nat := 0xB014
def DUP.EVT_INFO.MODULE : Field := ⟨DUP.EVT_INFO.o, 0, 13⟩
def DUP.EVT_INFO.REASON : Field := ⟨DUP.EVT_INFO.o, 16, 4⟩
/-- R387 -/
@[reducible] def DUP.EVT_STEP_LO.o : Nat := 0xB018
def DUP.EVT_STEP_LO.VAL : Field := ⟨DUP.EVT_STEP_LO.o, 0, 32⟩
/-- R387 -/
@[reducible] def DUP.EVT_STEP_HI.o : Nat := 0xB01C
def DUP.EVT_STEP_HI.VAL : Field := ⟨DUP.EVT_STEP_HI.o, 0, 16⟩
/-- R387 -/
@[reducible] def DUP.TKO_CTL.o : Nat := 0xB020
def DUP.TKO_CTL.ARM : Field := ⟨DUP.TKO_CTL.o, 0, 1⟩
def DUP.TKO_CTL.DISARM : Field := ⟨DUP.TKO_CTL.o, 1, 1⟩
def DUP.TKO_CTL.CONFIRM : Field := ⟨DUP.TKO_CTL.o, 2, 1⟩
def DUP.TKO_CTL.REVERSE : Field := ⟨DUP.TKO_CTL.o, 3, 1⟩
def DUP.TKO_CTL.SWAP_GO : Field := ⟨DUP.TKO_CTL.o, 4, 1⟩
def DUP.TKO_CTL.MFILL_GO : Field := ⟨DUP.TKO_CTL.o, 5, 1⟩
/-- R387 -/
@[reducible] def DUP.TKO_EPOCH.o : Nat := 0xB024
def DUP.TKO_EPOCH.EPOCH : Field := ⟨DUP.TKO_EPOCH.o, 0, 16⟩
/-- R387 -/
@[reducible] def DUP.SW_WIN_LO.o : Nat := 0xB028
def DUP.SW_WIN_LO.ADDR : Field := ⟨DUP.SW_WIN_LO.o, 21, 11⟩
/-- R387 -/
@[reducible] def DUP.SW_WIN_HI.o : Nat := 0xB02C
def DUP.SW_WIN_HI.ADDR : Field := ⟨DUP.SW_WIN_HI.o, 0, 16⟩
/-- R387 -/
@[reducible] def DUP.LS_CORE.o : Nat := 0xB030
def DUP.LS_CORE.CORE : Field := ⟨DUP.LS_CORE.o, 0, 7⟩
/-- R387 -/
@[reducible] def DUP.RW_TBL_LO.o : Nat := 0xB034
def DUP.RW_TBL_LO.ADDR : Field := ⟨DUP.RW_TBL_LO.o, 6, 26⟩
/-- R387 -/
@[reducible] def DUP.RW_TBL_HI.o : Nat := 0xB038
def DUP.RW_TBL_HI.ADDR : Field := ⟨DUP.RW_TBL_HI.o, 0, 16⟩
/-- R387 -/
@[reducible] def DUP.SOLO_TBL_LO.o : Nat := 0xB03C
def DUP.SOLO_TBL_LO.ADDR : Field := ⟨DUP.SOLO_TBL_LO.o, 6, 26⟩
/-- R387 -/
@[reducible] def DUP.SOLO_TBL_HI.o : Nat := 0xB040
def DUP.SOLO_TBL_HI.ADDR : Field := ⟨DUP.SOLO_TBL_HI.o, 0, 16⟩
/-- R387 -/
@[reducible] def DUP.SOLO_COLL_LO.o : Nat := 0xB044
def DUP.SOLO_COLL_LO.ADDR : Field := ⟨DUP.SOLO_COLL_LO.o, 6, 26⟩
/-- R387 -/
@[reducible] def DUP.SOLO_COLL_HI.o : Nat := 0xB048
def DUP.SOLO_COLL_HI.ADDR : Field := ⟨DUP.SOLO_COLL_HI.o, 0, 16⟩
def DUP.SOLO_COLL_HI.COLL_N : Field := ⟨DUP.SOLO_COLL_HI.o, 16, 16⟩
/-- R387 -/
@[reducible] def DUP.PROBE_WAIT.o : Nat := 0xB04C
def DUP.PROBE_WAIT.US : Field := ⟨DUP.PROBE_WAIT.o, 0, 10⟩
/-- R387 -/
@[reducible] def DUP.SWAP.o : Nat := 0xB050
def DUP.SWAP.SPARE : Field := ⟨DUP.SWAP.o, 0, 13⟩
/-- R387 -/
@[reducible] def DUP.SWAP_STEP_LO.o : Nat := 0xB054
def DUP.SWAP_STEP_LO.VAL : Field := ⟨DUP.SWAP_STEP_LO.o, 0, 32⟩
/-- R387 -/
@[reducible] def DUP.SWAP_STEP_HI.o : Nat := 0xB058
def DUP.SWAP_STEP_HI.VAL : Field := ⟨DUP.SWAP_STEP_HI.o, 0, 16⟩
/-- R387 -/
@[reducible] def DUP.RM_RATE.o : Nat := 0xB05C
def DUP.RM_RATE.GBPS : Field := ⟨DUP.RM_RATE.o, 0, 9⟩
/-- R387 -/
@[reducible] def DUP.RM_STAT.o : Nat := 0xB060
def DUP.RM_STAT.UNITS : Field := ⟨DUP.RM_STAT.o, 0, 26⟩
/-- R387 -/
@[reducible] def DUP.SW_LOFF_LO.o : Nat := 0xB064
def DUP.SW_LOFF_LO.OFF : Field := ⟨DUP.SW_LOFF_LO.o, 21, 11⟩
/-- R387 -/
@[reducible] def DUP.SW_LOFF_HI.o : Nat := 0xB068
def DUP.SW_LOFF_HI.OFF : Field := ⟨DUP.SW_LOFF_HI.o, 0, 16⟩
/-- R387 -/
@[reducible] def DUP.SW_SIZE.o : Nat := 0xB06C
def DUP.SW_SIZE.UNITS : Field := ⟨DUP.SW_SIZE.o, 0, 18⟩
/-- R387 -/
@[reducible] def DUP.SN_CMP_LO.o : Nat := 0xB100
def DUP.SN_CMP_LO.VAL : Field := ⟨DUP.SN_CMP_LO.o, 0, 32⟩
/-- R387 -/
@[reducible] def DUP.SN_CMP_HI.o : Nat := 0xB104
def DUP.SN_CMP_HI.VAL : Field := ⟨DUP.SN_CMP_HI.o, 0, 32⟩
/-- R387 -/
@[reducible] def DUP.SN_UNPAIRED_LO.o : Nat := 0xB108
def DUP.SN_UNPAIRED_LO.VAL : Field := ⟨DUP.SN_UNPAIRED_LO.o, 0, 32⟩
/-- R387 -/
@[reducible] def DUP.SN_UNPAIRED_HI.o : Nat := 0xB10C
def DUP.SN_UNPAIRED_HI.VAL : Field := ⟨DUP.SN_UNPAIRED_HI.o, 0, 32⟩
/-- R387 -/
@[reducible] def DUP.SN_RECHECK_LO.o : Nat := 0xB110
def DUP.SN_RECHECK_LO.VAL : Field := ⟨DUP.SN_RECHECK_LO.o, 0, 32⟩
/-- R387 -/
@[reducible] def DUP.SN_RECHECK_HI.o : Nat := 0xB114
def DUP.SN_RECHECK_HI.VAL : Field := ⟨DUP.SN_RECHECK_HI.o, 0, 32⟩
/-- R387 -/
@[reducible] def DUP.SN_TAKEOVER_LO.o : Nat := 0xB118
def DUP.SN_TAKEOVER_LO.VAL : Field := ⟨DUP.SN_TAKEOVER_LO.o, 0, 32⟩
/-- R387 -/
@[reducible] def DUP.SN_TAKEOVER_HI.o : Nat := 0xB11C
def DUP.SN_TAKEOVER_HI.VAL : Field := ⟨DUP.SN_TAKEOVER_HI.o, 0, 32⟩
/-- R387 -/
@[reducible] def DUP.SN_DUPDISC_LO.o : Nat := 0xB120
def DUP.SN_DUPDISC_LO.VAL : Field := ⟨DUP.SN_DUPDISC_LO.o, 0, 32⟩
/-- R387 -/
@[reducible] def DUP.SN_DUPDISC_HI.o : Nat := 0xB124
def DUP.SN_DUPDISC_HI.VAL : Field := ⟨DUP.SN_DUPDISC_HI.o, 0, 32⟩
/-- R387 -/
@[reducible] def DUP.SN_GEN_DROP_LO.o : Nat := 0xB128
def DUP.SN_GEN_DROP_LO.VAL : Field := ⟨DUP.SN_GEN_DROP_LO.o, 0, 32⟩
/-- R387 -/
@[reducible] def DUP.SN_GEN_DROP_HI.o : Nat := 0xB12C
def DUP.SN_GEN_DROP_HI.VAL : Field := ⟨DUP.SN_GEN_DROP_HI.o, 0, 32⟩
/-- R387 -/
@[reducible] def DUP.SN_RM_BYTES_LO.o : Nat := 0xB130
def DUP.SN_RM_BYTES_LO.VAL : Field := ⟨DUP.SN_RM_BYTES_LO.o, 0, 32⟩
/-- R387 -/
@[reducible] def DUP.SN_RM_BYTES_HI.o : Nat := 0xB134
def DUP.SN_RM_BYTES_HI.VAL : Field := ⟨DUP.SN_RM_BYTES_HI.o, 0, 32⟩
/-- R389 -/
@[reducible] def LDG.CFG.o : Nat := 0xC000
def LDG.CFG.ENABLE : Field := ⟨LDG.CFG.o, 0, 1⟩
/-- R389 -/
@[reducible] def LDG.IN_SIZE.o : Nat := 0xC004
def LDG.IN_SIZE.UNITS : Field := ⟨LDG.IN_SIZE.o, 0, 11⟩
/-- R389 -/
@[reducible] def LDG.IN_KEEP.o : Nat := 0xC008
def LDG.IN_KEEP.STEPS : Field := ⟨LDG.IN_KEEP.o, 0, 8⟩
/-- R389 -/
@[reducible] def LDG.EVT.o : Nat := 0xC010
def LDG.EVT.SEQ : Field := ⟨LDG.EVT.o, 0, 16⟩
def LDG.EVT.CODE : Field := ⟨LDG.EVT.o, 16, 8⟩
/-- R389 -/
@[reducible] def LDG.EVT_STEP_LO.o : Nat := 0xC014
def LDG.EVT_STEP_LO.VAL : Field := ⟨LDG.EVT_STEP_LO.o, 0, 32⟩
/-- R389 -/
@[reducible] def LDG.EVT_STEP_HI.o : Nat := 0xC018
def LDG.EVT_STEP_HI.VAL : Field := ⟨LDG.EVT_STEP_HI.o, 0, 16⟩
/-- R389 -/
@[reducible] def LDG.STAT.o : Nat := 0xC020
def LDG.STAT.REPLAYING : Field := ⟨LDG.STAT.o, 0, 1⟩
def LDG.STAT.UNPROT : Field := ⟨LDG.STAT.o, 1, 1⟩
/-- R389 -/
@[reducible] def LDG.M_USED.o : Nat := 0xC024
def LDG.M_USED.LINES : Field := ⟨LDG.M_USED.o, 0, 29⟩
/-- R389 -/
@[reducible] def LDG.IN_USED.o : Nat := 0xC028
def LDG.IN_USED.LINES : Field := ⟨LDG.IN_USED.o, 0, 29⟩
/-- R389 -/
@[reducible] def LDG.SN_PODS_LO.o : Nat := 0xC100
def LDG.SN_PODS_LO.VAL : Field := ⟨LDG.SN_PODS_LO.o, 0, 32⟩
/-- R389 -/
@[reducible] def LDG.SN_PODS_HI.o : Nat := 0xC104
def LDG.SN_PODS_HI.VAL : Field := ⟨LDG.SN_PODS_HI.o, 0, 32⟩
/-- R389 -/
@[reducible] def LDG.SN_POD_BYTES_LO.o : Nat := 0xC108
def LDG.SN_POD_BYTES_LO.VAL : Field := ⟨LDG.SN_POD_BYTES_LO.o, 0, 32⟩
/-- R389 -/
@[reducible] def LDG.SN_POD_BYTES_HI.o : Nat := 0xC10C
def LDG.SN_POD_BYTES_HI.VAL : Field := ⟨LDG.SN_POD_BYTES_HI.o, 0, 32⟩
/-- R389 -/
@[reducible] def LDG.SN_RESENT_LO.o : Nat := 0xC110
def LDG.SN_RESENT_LO.VAL : Field := ⟨LDG.SN_RESENT_LO.o, 0, 32⟩
/-- R389 -/
@[reducible] def LDG.SN_RESENT_HI.o : Nat := 0xC114
def LDG.SN_RESENT_HI.VAL : Field := ⟨LDG.SN_RESENT_HI.o, 0, 32⟩
/-- R389 -/
@[reducible] def LDG.SN_UNPROT_LO.o : Nat := 0xC118
def LDG.SN_UNPROT_LO.VAL : Field := ⟨LDG.SN_UNPROT_LO.o, 0, 32⟩
/-- R389 -/
@[reducible] def LDG.SN_UNPROT_HI.o : Nat := 0xC11C
def LDG.SN_UNPROT_HI.VAL : Field := ⟨LDG.SN_UNPROT_HI.o, 0, 32⟩
/-- R411 -/
@[reducible] def BLB.CFG.o : Nat := 0xD000
def BLB.CFG.ENABLE : Field := ⟨BLB.CFG.o, 0, 1⟩
def BLB.CFG.AUTO : Field := ⟨BLB.CFG.o, 1, 1⟩
/-- R411 -/
@[reducible] def BLB.STAT.o : Nat := 0xD004
def BLB.STAT.PHASE : Field := ⟨BLB.STAT.o, 0, 3⟩
def BLB.STAT.DRAIN : Field := ⟨BLB.STAT.o, 3, 1⟩
def BLB.STAT.GEN : Field := ⟨BLB.STAT.o, 4, 1⟩
/-- R411 -/
@[reducible] def BLB.INTERVAL.o : Nat := 0xD008
def BLB.INTERVAL.SECONDS : Field := ⟨BLB.INTERVAL.o, 0, 24⟩
/-- R411 -/
@[reducible] def BLB.EVERY.o : Nat := 0xD00C
def BLB.EVERY.STEPS : Field := ⟨BLB.EVERY.o, 0, 24⟩
/-- R411 -/
@[reducible] def BLB.EVT.o : Nat := 0xD010
def BLB.EVT.SEQ : Field := ⟨BLB.EVT.o, 0, 16⟩
def BLB.EVT.CODE : Field := ⟨BLB.EVT.o, 16, 8⟩
/-- R411 -/
@[reducible] def BLB.EVT_C.o : Nat := 0xD014
def BLB.EVT_C.C : Field := ⟨BLB.EVT_C.o, 0, 32⟩
/-- R411 -/
@[reducible] def BLB.EVT_INFO.o : Nat := 0xD018
def BLB.EVT_INFO.REASON : Field := ⟨BLB.EVT_INFO.o, 0, 8⟩
def BLB.EVT_INFO.GEN : Field := ⟨BLB.EVT_INFO.o, 8, 1⟩
/-- R411 -/
@[reducible] def BLB.EVT_STEP_LO.o : Nat := 0xD01C
def BLB.EVT_STEP_LO.VAL : Field := ⟨BLB.EVT_STEP_LO.o, 0, 32⟩
/-- R411 -/
@[reducible] def BLB.EVT_STEP_HI.o : Nat := 0xD020
def BLB.EVT_STEP_HI.VAL : Field := ⟨BLB.EVT_STEP_HI.o, 0, 16⟩
/-- R411 -/
@[reducible] def BLB.JOB_LO.o : Nat := 0xD024
def BLB.JOB_LO.VAL : Field := ⟨BLB.JOB_LO.o, 0, 32⟩
/-- R411 -/
@[reducible] def BLB.JOB_HI.o : Nat := 0xD028
def BLB.JOB_HI.VAL : Field := ⟨BLB.JOB_HI.o, 0, 32⟩
/-- R411 -/
@[reducible] def BLB.GROUP.o : Nat := 0xD02C
def BLB.GROUP.ID : Field := ⟨BLB.GROUP.o, 0, 10⟩
def BLB.GROUP.POS : Field := ⟨BLB.GROUP.o, 10, 3⟩
/-- R411 -/
@[reducible] def BLB.MEMBER.o (i : Nat) : Nat := 0xD030 + 4 * i
def BLB.MEMBER.ID_A (i : Nat) : Field := ⟨(BLB.MEMBER.o i), 0, 13⟩
def BLB.MEMBER.ID_B (i : Nat) : Field := ⟨(BLB.MEMBER.o i), 16, 13⟩
/-- R411 -/
@[reducible] def BLB.IDENT.o : Nat := 0xD040
def BLB.IDENT.ID : Field := ⟨BLB.IDENT.o, 0, 13⟩
/-- R411 -/
@[reducible] def BLB.CTL.o : Nat := 0xD044
def BLB.CTL.NOW : Field := ⟨BLB.CTL.o, 0, 1⟩
/-- R411 -/
@[reducible] def BLB.GEN_STAT.o (i : Nat) : Nat := 0xD048 + 4 * i
def BLB.GEN_STAT.STATE (i : Nat) : Field := ⟨(BLB.GEN_STAT.o i), 0, 3⟩
def BLB.GEN_STAT.DAMAGED (i : Nat) : Field := ⟨(BLB.GEN_STAT.o i), 3, 1⟩
def BLB.GEN_STAT.DRAINING (i : Nat) : Field := ⟨(BLB.GEN_STAT.o i), 4, 1⟩
/-- R411 -/
@[reducible] def BLB.GEN_C.o (i : Nat) : Nat := 0xD050 + 4 * i
def BLB.GEN_C.C (i : Nat) : Field := ⟨(BLB.GEN_C.o i), 0, 32⟩
/-- R411 -/
@[reducible] def BLB.RS_CTL.o : Nat := 0xD060
def BLB.RS_CTL.GO : Field := ⟨BLB.RS_CTL.o, 0, 1⟩
/-- R411 -/
@[reducible] def BLB.RS_C.o : Nat := 0xD064
def BLB.RS_C.C : Field := ⟨BLB.RS_C.o, 0, 32⟩
/-- R411 -/
@[reducible] def BLB.RS_STAT.o : Nat := 0xD068
def BLB.RS_STAT.BUSY : Field := ⟨BLB.RS_STAT.o, 0, 1⟩
def BLB.RS_STAT.REBUILT : Field := ⟨BLB.RS_STAT.o, 1, 1⟩
/-- R411 -/
@[reducible] def BLB.RS_GOT.o : Nat := 0xD06C
def BLB.RS_GOT.C : Field := ⟨BLB.RS_GOT.o, 0, 32⟩
/-- R411 -/
@[reducible] def BLB.DR_CTL.o : Nat := 0xD070
def BLB.DR_CTL.GO : Field := ⟨BLB.DR_CTL.o, 0, 1⟩
def BLB.DR_CTL.GEN : Field := ⟨BLB.DR_CTL.o, 1, 1⟩
def BLB.DR_CTL.FRAG : Field := ⟨BLB.DR_CTL.o, 2, 1⟩
def BLB.DR_CTL.ABORT : Field := ⟨BLB.DR_CTL.o, 3, 1⟩
/-- R411 -/
@[reducible] def BLB.DR_RATE.o : Nat := 0xD074
def BLB.DR_RATE.GBPS : Field := ⟨BLB.DR_RATE.o, 0, 9⟩
/-- R411 -/
@[reducible] def BLB.IM_CTL.o : Nat := 0xD078
def BLB.IM_CTL.BEGIN : Field := ⟨BLB.IM_CTL.o, 0, 1⟩
def BLB.IM_CTL.DONE : Field := ⟨BLB.IM_CTL.o, 1, 1⟩
def BLB.IM_CTL.ABORT : Field := ⟨BLB.IM_CTL.o, 2, 1⟩
/-- R411 -/
@[reducible] def BLB.IM_C.o : Nat := 0xD07C
def BLB.IM_C.C : Field := ⟨BLB.IM_C.o, 0, 32⟩
/-- R411 -/
@[reducible] def BLB.IM_STEP_LO.o : Nat := 0xD080
def BLB.IM_STEP_LO.VAL : Field := ⟨BLB.IM_STEP_LO.o, 0, 32⟩
/-- R411 -/
@[reducible] def BLB.IM_STEP_HI.o : Nat := 0xD084
def BLB.IM_STEP_HI.VAL : Field := ⟨BLB.IM_STEP_HI.o, 0, 16⟩
/-- R411 -/
@[reducible] def BLB.SN_DONE_LO.o : Nat := 0xD100
def BLB.SN_DONE_LO.VAL : Field := ⟨BLB.SN_DONE_LO.o, 0, 32⟩
/-- R411 -/
@[reducible] def BLB.SN_DONE_HI.o : Nat := 0xD104
def BLB.SN_DONE_HI.VAL : Field := ⟨BLB.SN_DONE_HI.o, 0, 32⟩
/-- R411 -/
@[reducible] def BLB.SN_FAIL_LO.o : Nat := 0xD108
def BLB.SN_FAIL_LO.VAL : Field := ⟨BLB.SN_FAIL_LO.o, 0, 32⟩
/-- R411 -/
@[reducible] def BLB.SN_FAIL_HI.o : Nat := 0xD10C
def BLB.SN_FAIL_HI.VAL : Field := ⟨BLB.SN_FAIL_HI.o, 0, 32⟩
/-- R411 -/
@[reducible] def BLB.SN_DEFER_LO.o : Nat := 0xD110
def BLB.SN_DEFER_LO.VAL : Field := ⟨BLB.SN_DEFER_LO.o, 0, 32⟩
/-- R411 -/
@[reducible] def BLB.SN_DEFER_HI.o : Nat := 0xD114
def BLB.SN_DEFER_HI.VAL : Field := ⟨BLB.SN_DEFER_HI.o, 0, 32⟩
/-- R411 -/
@[reducible] def BLB.SN_SLICES_LO.o : Nat := 0xD118
def BLB.SN_SLICES_LO.VAL : Field := ⟨BLB.SN_SLICES_LO.o, 0, 32⟩
/-- R411 -/
@[reducible] def BLB.SN_SLICES_HI.o : Nat := 0xD11C
def BLB.SN_SLICES_HI.VAL : Field := ⟨BLB.SN_SLICES_HI.o, 0, 32⟩
/-- R411 -/
@[reducible] def BLB.SN_SLICE_RETRY_LO.o : Nat := 0xD120
def BLB.SN_SLICE_RETRY_LO.VAL : Field := ⟨BLB.SN_SLICE_RETRY_LO.o, 0, 32⟩
/-- R411 -/
@[reducible] def BLB.SN_SLICE_RETRY_HI.o : Nat := 0xD124
def BLB.SN_SLICE_RETRY_HI.VAL : Field := ⟨BLB.SN_SLICE_RETRY_HI.o, 0, 32⟩
/-- R411 -/
@[reducible] def BLB.SN_EXPORT_LO.o : Nat := 0xD128
def BLB.SN_EXPORT_LO.VAL : Field := ⟨BLB.SN_EXPORT_LO.o, 0, 32⟩
/-- R411 -/
@[reducible] def BLB.SN_EXPORT_HI.o : Nat := 0xD12C
def BLB.SN_EXPORT_HI.VAL : Field := ⟨BLB.SN_EXPORT_HI.o, 0, 32⟩
/-- R411 -/
@[reducible] def BLB.SN_REBUILT_LO.o : Nat := 0xD130
def BLB.SN_REBUILT_LO.VAL : Field := ⟨BLB.SN_REBUILT_LO.o, 0, 32⟩
/-- R411 -/
@[reducible] def BLB.SN_REBUILT_HI.o : Nat := 0xD134
def BLB.SN_REBUILT_HI.VAL : Field := ⟨BLB.SN_REBUILT_HI.o, 0, 32⟩
/-- R435 -/
@[reducible] def RST.CFG.o : Nat := 0x3000
def RST.CFG.WATCH_EN : Field := ⟨RST.CFG.o, 0, 1⟩
/-- R435 -/
@[reducible] def RST.STAT.o : Nat := 0x3004
def RST.STAT.STATE : Field := ⟨RST.STAT.o, 0, 3⟩
def RST.STAT.HELD : Field := ⟨RST.STAT.o, 3, 1⟩
/-- R435 -/
@[reducible] def RST.CTL.o : Nat := 0x3008
def RST.CTL.WARM : Field := ⟨RST.CTL.o, 0, 1⟩
def RST.CTL.COLD : Field := ⟨RST.CTL.o, 1, 1⟩
/-- R435 -/
@[reducible] def RST.EVT.o : Nat := 0x3010
def RST.EVT.SEQ : Field := ⟨RST.EVT.o, 0, 16⟩
def RST.EVT.CODE : Field := ⟨RST.EVT.o, 16, 8⟩
/-- R435 -/
@[reducible] def RST.EVT_INFO.o : Nat := 0x3014
def RST.EVT_INFO.DOMAIN : Field := ⟨RST.EVT_INFO.o, 0, 8⟩
def RST.EVT_INFO.CAUSE : Field := ⟨RST.EVT_INFO.o, 8, 8⟩
/-- R435 -/
@[reducible] def RST.QUIESCE_WAIT.o : Nat := 0x3018
def RST.QUIESCE_WAIT.US : Field := ⟨RST.QUIESCE_WAIT.o, 0, 14⟩
/-- R435 -/
@[reducible] def RST.RECOV_WAIT.o : Nat := 0x301C
def RST.RECOV_WAIT.SECONDS : Field := ⟨RST.RECOV_WAIT.o, 0, 6⟩
/-- R435 -/
@[reducible] def RST.SP_WIN0.o : Nat := 0x3020
def RST.SP_WIN0.US : Field := ⟨RST.SP_WIN0.o, 0, 24⟩
/-- R435 -/
@[reducible] def RST.SP_WIN1.o : Nat := 0x3024
def RST.SP_WIN1.US : Field := ⟨RST.SP_WIN1.o, 0, 24⟩
/-- R435 -/
@[reducible] def RST.SP_WIN2.o : Nat := 0x3028
def RST.SP_WIN2.US : Field := ⟨RST.SP_WIN2.o, 0, 24⟩
/-- R435 -/
@[reducible] def RST.SP_WIN3.o : Nat := 0x302C
def RST.SP_WIN3.US : Field := ⟨RST.SP_WIN3.o, 0, 24⟩
/-- R435 -/
@[reducible] def RST.SP_SEL.o : Nat := 0x3030
def RST.SP_SEL.DOMAIN : Field := ⟨RST.SP_SEL.o, 0, 8⟩
/-- R435 -/
@[reducible] def RST.SP_VAL.o : Nat := 0x3034
def RST.SP_VAL.COUNT : Field := ⟨RST.SP_VAL.o, 0, 32⟩
/-- R435 -/
@[reducible] def RST.SP_STAT.o : Nat := 0x3038
def RST.SP_STAT.BUSY : Field := ⟨RST.SP_STAT.o, 0, 1⟩
def RST.SP_STAT.IDLE_US : Field := ⟨RST.SP_STAT.o, 1, 31⟩
/-- R435 -/
@[reducible] def RST.DOM_OFF.o (i : Nat) : Nat := 0x3040 + 4 * i
def RST.DOM_OFF.OFF (i : Nat) : Field := ⟨(RST.DOM_OFF.o i), 0, 32⟩
/-- R435 -/
@[reducible] def RST.SN_WARM_LO.o : Nat := 0x3100
def RST.SN_WARM_LO.VAL : Field := ⟨RST.SN_WARM_LO.o, 0, 32⟩
/-- R435 -/
@[reducible] def RST.SN_WARM_HI.o : Nat := 0x3104
def RST.SN_WARM_HI.VAL : Field := ⟨RST.SN_WARM_HI.o, 0, 32⟩
/-- R435 -/
@[reducible] def RST.SN_WARM_CAUSE_LO.o : Nat := 0x3108
def RST.SN_WARM_CAUSE_LO.VAL : Field := ⟨RST.SN_WARM_CAUSE_LO.o, 0, 32⟩
/-- R435 -/
@[reducible] def RST.SN_WARM_CAUSE_HI.o : Nat := 0x310C
def RST.SN_WARM_CAUSE_HI.VAL : Field := ⟨RST.SN_WARM_CAUSE_HI.o, 0, 32⟩
/-- R435 -/
@[reducible] def RST.SN_SPROUT_LO.o : Nat := 0x3110
def RST.SN_SPROUT_LO.VAL : Field := ⟨RST.SN_SPROUT_LO.o, 0, 32⟩
/-- R435 -/
@[reducible] def RST.SN_SPROUT_HI.o : Nat := 0x3114
def RST.SN_SPROUT_HI.VAL : Field := ⟨RST.SN_SPROUT_HI.o, 0, 32⟩
/-- R435 -/
@[reducible] def RST.SN_QOFF_LO.o : Nat := 0x3118
def RST.SN_QOFF_LO.VAL : Field := ⟨RST.SN_QOFF_LO.o, 0, 32⟩
/-- R435 -/
@[reducible] def RST.SN_QOFF_HI.o : Nat := 0x311C
def RST.SN_QOFF_HI.VAL : Field := ⟨RST.SN_QOFF_HI.o, 0, 32⟩
/-- R435 -/
@[reducible] def RST.SN_LATE_LO.o : Nat := 0x3120
def RST.SN_LATE_LO.VAL : Field := ⟨RST.SN_LATE_LO.o, 0, 32⟩
/-- R435 -/
@[reducible] def RST.SN_LATE_HI.o : Nat := 0x3124
def RST.SN_LATE_HI.VAL : Field := ⟨RST.SN_LATE_HI.o, 0, 32⟩
/-- R455 -/
@[reducible] def TST.CFG.o : Nat := 0x6000
def TST.CFG.MODE : Field := ⟨TST.CFG.o, 0, 1⟩
/-- R455 -/
@[reducible] def TST.STAT.o : Nat := 0x6004
def TST.STAT.STATE : Field := ⟨TST.STAT.o, 0, 3⟩
def TST.STAT.POINT : Field := ⟨TST.STAT.o, 3, 5⟩
def TST.STAT.TJ : Field := ⟨TST.STAT.o, 8, 8⟩
/-- R455 -/
@[reducible] def TST.EVT.o : Nat := 0x6010
def TST.EVT.SEQ : Field := ⟨TST.EVT.o, 0, 16⟩
def TST.EVT.CODE : Field := ⟨TST.EVT.o, 16, 8⟩
/-- R455 -/
@[reducible] def TST.EVT_INFO.o : Nat := 0x6014
def TST.EVT_INFO.UNIT : Field := ⟨TST.EVT_INFO.o, 0, 8⟩
def TST.EVT_INFO.POINT : Field := ⟨TST.EVT_INFO.o, 8, 5⟩
def TST.EVT_INFO.NEWCLASS : Field := ⟨TST.EVT_INFO.o, 16, 3⟩
/-- R455 -/
@[reducible] def TST.PLAN.o : Nat := 0x6020
def TST.PLAN.CONTENT : Field := ⟨TST.PLAN.o, 0, 1⟩
def TST.PLAN.SLOT : Field := ⟨TST.PLAN.o, 1, 2⟩
def TST.PLAN.RAIL : Field := ⟨TST.PLAN.o, 3, 2⟩
def TST.PLAN.DLY : Field := ⟨TST.PLAN.o, 5, 2⟩
def TST.PLAN.REPEAT : Field := ⟨TST.PLAN.o, 8, 8⟩
/-- R455 -/
@[reducible] def TST.V_FLOOR.o : Nat := 0x6024
def TST.V_FLOOR.MV : Field := ⟨TST.V_FLOOR.o, 0, 10⟩
/-- R455 -/
@[reducible] def TST.T_TARGET.o : Nat := 0x6028
def TST.T_TARGET.C : Field := ⟨TST.T_TARGET.o, 0, 8⟩
/-- R455 -/
@[reducible] def TST.UNITS.o (i : Nat) : Nat := 0x602C + 4 * i
def TST.UNITS.MASK (i : Nat) : Field := ⟨(TST.UNITS.o i), 0, 32⟩
/-- R455 -/
@[reducible] def TST.RUN_CTL.o : Nat := 0x6040
def TST.RUN_CTL.GO : Field := ⟨TST.RUN_CTL.o, 0, 1⟩
def TST.RUN_CTL.ABORT : Field := ⟨TST.RUN_CTL.o, 1, 1⟩
/-- R455 -/
@[reducible] def TST.RES_SEL.o : Nat := 0x6044
def TST.RES_SEL.UNIT : Field := ⟨TST.RES_SEL.o, 0, 8⟩
/-- R455 -/
@[reducible] def TST.RES.o : Nat := 0x6048
def TST.RES.TESTED : Field := ⟨TST.RES.o, 0, 1⟩
def TST.RES.FAIL : Field := ⟨TST.RES.o, 1, 1⟩
def TST.RES.HANG : Field := ⟨TST.RES.o, 2, 1⟩
def TST.RES.POINT : Field := ⟨TST.RES.o, 3, 5⟩
def TST.RES.PATTERN : Field := ⟨TST.RES.o, 8, 24⟩
/-- R455 -/
@[reducible] def TST.SET_STAT.o (i : Nat) : Nat := 0x6050 + 4 * i
def TST.SET_STAT.VALID (i : Nat) : Field := ⟨(TST.SET_STAT.o i), 0, 1⟩
def TST.SET_STAT.VERSION (i : Nat) : Field := ⟨(TST.SET_STAT.o i), 1, 31⟩
/-- R455 -/
@[reducible] def TST.TRANS_MAX.o : Nat := 0x6060
def TST.TRANS_MAX.COUNT : Field := ⟨TST.TRANS_MAX.o, 0, 4⟩
def TST.TRANS_MAX.WINDOW : Field := ⟨TST.TRANS_MAX.o, 4, 12⟩
/-- R455 -/
@[reducible] def TST.CLS_SUM.o : Nat := 0x6064
def TST.CLS_SUM.SUSPECT : Field := ⟨TST.CLS_SUM.o, 0, 8⟩
def TST.CLS_SUM.TRANSIENT : Field := ⟨TST.CLS_SUM.o, 8, 8⟩
def TST.CLS_SUM.PERMANENT : Field := ⟨TST.CLS_SUM.o, 16, 8⟩
/-- R455 -/
@[reducible] def TST.CLS_SEL.o : Nat := 0x6068
def TST.CLS_SEL.UNIT : Field := ⟨TST.CLS_SEL.o, 0, 8⟩
def TST.CLS_SEL.GO : Field := ⟨TST.CLS_SEL.o, 31, 1⟩
/-- R455 -/
@[reducible] def TST.CLS.o : Nat := 0x606C
def TST.CLS.CLASS : Field := ⟨TST.CLS.o, 0, 3⟩
def TST.CLS.RECENT : Field := ⟨TST.CLS.o, 8, 8⟩
/-- R455 -/
@[reducible] def TST.CLS_CTL.o : Nat := 0x6070
def TST.CLS_CTL.CLEAR : Field := ⟨TST.CLS_CTL.o, 0, 1⟩
/-- R455 -/
@[reducible] def TST.PROB.o : Nat := 0x6074
def TST.PROB.CLEAN : Field := ⟨TST.PROB.o, 0, 32⟩
/-- R455 -/
@[reducible] def TST.HIST_SEL.o : Nat := 0x6080
def TST.HIST_SEL.AGE : Field := ⟨TST.HIST_SEL.o, 0, 31⟩
def TST.HIST_SEL.GO : Field := ⟨TST.HIST_SEL.o, 31, 1⟩
/-- R455 -/
@[reducible] def TST.HIST_N.o : Nat := 0x6084
def TST.HIST_N.COUNT : Field := ⟨TST.HIST_N.o, 0, 32⟩
/-- R455 -/
@[reducible] def TST.HIST_D.o (i : Nat) : Nat := 0x6090 + 4 * i
def TST.HIST_D.VAL (i : Nat) : Field := ⟨(TST.HIST_D.o i), 0, 32⟩
/-- R455 -/
@[reducible] def TST.SN_RUNS_LO.o : Nat := 0x6100
def TST.SN_RUNS_LO.VAL : Field := ⟨TST.SN_RUNS_LO.o, 0, 32⟩
/-- R455 -/
@[reducible] def TST.SN_RUNS_HI.o : Nat := 0x6104
def TST.SN_RUNS_HI.VAL : Field := ⟨TST.SN_RUNS_HI.o, 0, 32⟩
/-- R455 -/
@[reducible] def TST.SN_FAILS_LO.o : Nat := 0x6108
def TST.SN_FAILS_LO.VAL : Field := ⟨TST.SN_FAILS_LO.o, 0, 32⟩
/-- R455 -/
@[reducible] def TST.SN_FAILS_HI.o : Nat := 0x610C
def TST.SN_FAILS_HI.VAL : Field := ⟨TST.SN_FAILS_HI.o, 0, 32⟩
/-- R455 -/
@[reducible] def TST.SN_PARITY_LO.o : Nat := 0x6110
def TST.SN_PARITY_LO.VAL : Field := ⟨TST.SN_PARITY_LO.o, 0, 32⟩
/-- R455 -/
@[reducible] def TST.SN_PARITY_HI.o : Nat := 0x6114
def TST.SN_PARITY_HI.VAL : Field := ⟨TST.SN_PARITY_HI.o, 0, 32⟩
/-- R455 -/
@[reducible] def TST.SN_HIST_LO.o : Nat := 0x6118
def TST.SN_HIST_LO.VAL : Field := ⟨TST.SN_HIST_LO.o, 0, 32⟩
/-- R455 -/
@[reducible] def TST.SN_HIST_HI.o : Nat := 0x611C
def TST.SN_HIST_HI.VAL : Field := ⟨TST.SN_HIST_HI.o, 0, 32⟩
/-- R455 -/
@[reducible] def TST.SN_HIST_LOST_LO.o : Nat := 0x6120
def TST.SN_HIST_LOST_LO.VAL : Field := ⟨TST.SN_HIST_LOST_LO.o, 0, 32⟩
/-- R455 -/
@[reducible] def TST.SN_HIST_LOST_HI.o : Nat := 0x6124
def TST.SN_HIST_LOST_HI.VAL : Field := ⟨TST.SN_HIST_LOST_HI.o, 0, 32⟩
/-- R479 -/
@[reducible] def GEN.ID.o : Nat := 0x0
def GEN.ID.PART : Field := ⟨GEN.ID.o, 0, 16⟩
def GEN.ID.STEPPING : Field := ⟨GEN.ID.o, 16, 4⟩
/-- R479 -/
@[reducible] def GEN.LOCK.o : Nat := 0x8
def GEN.LOCK.BITS : Field := ⟨GEN.LOCK.o, 0, 6⟩
/-- R479 -/
@[reducible] def GEN.EVT_SUM.o : Nat := 0x10
def GEN.EVT_SUM.BLOCK : Field := ⟨GEN.EVT_SUM.o, 0, 19⟩
/-- R479 -/
@[reducible] def GEN.EVT_SUM_C.o (i : Nat) : Nat := 0x14 + 4 * i
def GEN.EVT_SUM_C.CORE (i : Nat) : Field := ⟨(GEN.EVT_SUM_C.o i), 0, 32⟩
/-- R479 -/
@[reducible] def GEN.ALERT_MASK.o : Nat := 0x24
def GEN.ALERT_MASK.BLOCK : Field := ⟨GEN.ALERT_MASK.o, 0, 19⟩
def GEN.ALERT_MASK.CORE : Field := ⟨GEN.ALERT_MASK.o, 19, 1⟩
/-- R479 -/
@[reducible] def GEN.WERR.o : Nat := 0x30
def GEN.WERR.SEQ : Field := ⟨GEN.WERR.o, 0, 16⟩
def GEN.WERR.CODE : Field := ⟨GEN.WERR.o, 16, 8⟩
def GEN.WERR.AGENT : Field := ⟨GEN.WERR.o, 24, 1⟩
/-- R479 -/
@[reducible] def GEN.WERR_ADDR.o : Nat := 0x34
def GEN.WERR_ADDR.OFFSET : Field := ⟨GEN.WERR_ADDR.o, 0, 24⟩
/-- R479 -/
@[reducible] def GEN.WERR_SRC.o : Nat := 0x38
def GEN.WERR_SRC.MODULE : Field := ⟨GEN.WERR_SRC.o, 0, 13⟩
/-- R479 -/
@[reducible] def GEN.SCRATCH.o (i : Nat) : Nat := 0x40 + 4 * i
def GEN.SCRATCH.VAL (i : Nat) : Field := ⟨(GEN.SCRATCH.o i), 0, 32⟩
/-- R480 -/
@[reducible] def CFG.IMAGE.o : Nat := 0x1000
def CFG.IMAGE.VERSION : Field := ⟨CFG.IMAGE.o, 0, 32⟩
/-- R480 -/
@[reducible] def CFG.LAYOUT.o : Nat := 0x1004
def CFG.LAYOUT.S_GIB : Field := ⟨CFG.LAYOUT.o, 0, 7⟩
def CFG.LAYOUT.L_GIB : Field := ⟨CFG.LAYOUT.o, 8, 5⟩
/-- R480 -/
@[reducible] def CFG.BUDGET0.o : Nat := 0x1008
def CFG.BUDGET0.SCRUB_US : Field := ⟨CFG.BUDGET0.o, 0, 16⟩
def CFG.BUDGET0.TILE_US : Field := ⟨CFG.BUDGET0.o, 16, 16⟩
/-- R480 -/
@[reducible] def CFG.BUDGET1.o : Nat := 0x100C
def CFG.BUDGET1.TRACE_US : Field := ⟨CFG.BUDGET1.o, 0, 16⟩
def CFG.BUDGET1.PARITY_US : Field := ⟨CFG.BUDGET1.o, 16, 16⟩
/-- R482 -/
@[reducible] def SNAP.CTL.o : Nat := 0x2000
def SNAP.CTL.TAKE : Field := ⟨SNAP.CTL.o, 0, 1⟩
/-- R482 -/
@[reducible] def SNAP.STAT.o : Nat := 0x2004
def SNAP.STAT.BUSY : Field := ⟨SNAP.STAT.o, 0, 1⟩
def SNAP.STAT.SEQ : Field := ⟨SNAP.STAT.o, 16, 16⟩
/-- R482 -/
@[reducible] def SNAP.SPREAD.o : Nat := 0x2008
def SNAP.SPREAD.NS : Field := ⟨SNAP.SPREAD.o, 0, 16⟩
/-- R482 -/
@[reducible] def SNAP.GAP.o : Nat := 0x2010
def SNAP.GAP.BLOCK : Field := ⟨SNAP.GAP.o, 0, 19⟩
/-- R482 -/
@[reducible] def SNAP.GAP_C.o (i : Nat) : Nat := 0x2014 + 4 * i
def SNAP.GAP_C.CORE (i : Nat) : Field := ⟨(SNAP.GAP_C.o i), 0, 32⟩
/-- R482 -/
@[reducible] def SNAP.COINC.o : Nat := 0x2030
def SNAP.COINC.COLL_DONE : Field := ⟨SNAP.COINC.o, 0, 1⟩
def SNAP.COINC.SLICES : Field := ⟨SNAP.COINC.o, 1, 1⟩
def SNAP.COINC.RM_UNITS : Field := ⟨SNAP.COINC.o, 2, 1⟩
/-- R482 -/
@[reducible] def SNAP.L_COLL_DONE.o : Nat := 0x2040
def SNAP.L_COLL_DONE.COUNT : Field := ⟨SNAP.L_COLL_DONE.o, 0, 32⟩
/-- R482 -/
@[reducible] def SNAP.L_SLICES.o : Nat := 0x2044
def SNAP.L_SLICES.COUNT : Field := ⟨SNAP.L_SLICES.o, 0, 16⟩
/-- R482 -/
@[reducible] def SNAP.L_RM_UNITS.o : Nat := 0x2048
def SNAP.L_RM_UNITS.UNITS : Field := ⟨SNAP.L_RM_UNITS.o, 0, 26⟩
/-- R482 -/
@[reducible] def SNAP.COINC_Q.o (i : Nat) : Nat := 0x2100 + 4 * i
def SNAP.COINC_Q.QUEUE (i : Nat) : Field := ⟨(SNAP.COINC_Q.o i), 0, 32⟩
/-- R482 -/
@[reducible] def SNAP.L_Q_DONE.o (i : Nat) : Nat := 0x2800 + 4 * i
def SNAP.L_Q_DONE.COUNT (i : Nat) : Field := ⟨(SNAP.L_Q_DONE.o i), 0, 32⟩
/-- R495 -/
@[reducible] def DBG.CTL.o : Nat := 0x7000
def DBG.CTL.ENTER : Field := ⟨DBG.CTL.o, 0, 1⟩
def DBG.CTL.LEAVE : Field := ⟨DBG.CTL.o, 1, 1⟩
/-- R495 -/
@[reducible] def DBG.STAT.o : Nat := 0x7004
def DBG.STAT.DEBUG : Field := ⟨DBG.STAT.o, 0, 1⟩
/-- R495 -/
@[reducible] def DBG.EVT.o : Nat := 0x7010
def DBG.EVT.SEQ : Field := ⟨DBG.EVT.o, 0, 16⟩
def DBG.EVT.CODE : Field := ⟨DBG.EVT.o, 16, 8⟩
/-- R495 -/
@[reducible] def DBG.TR_CTL.o : Nat := 0x7020
def DBG.TR_CTL.EN : Field := ⟨DBG.TR_CTL.o, 0, 1⟩
def DBG.TR_CTL.WRAP : Field := ⟨DBG.TR_CTL.o, 1, 1⟩
/-- R495 -/
@[reducible] def DBG.TR_KINDS.o : Nat := 0x7024
def DBG.TR_KINDS.KIND : Field := ⟨DBG.TR_KINDS.o, 1, 7⟩
/-- R495 -/
@[reducible] def DBG.TR_HUB.o : Nat := 0x7028
def DBG.TR_HUB.DOMAIN : Field := ⟨DBG.TR_HUB.o, 0, 12⟩
/-- R495 -/
@[reducible] def DBG.TR_CORES.o (i : Nat) : Nat := 0x7030 + 4 * i
def DBG.TR_CORES.CORE (i : Nat) : Field := ⟨(DBG.TR_CORES.o i), 0, 32⟩
/-- R495 -/
@[reducible] def DBG.TR_BASE_LO.o : Nat := 0x7040
def DBG.TR_BASE_LO.ADDR : Field := ⟨DBG.TR_BASE_LO.o, 16, 16⟩
/-- R495 -/
@[reducible] def DBG.TR_BASE_HI.o : Nat := 0x7044
def DBG.TR_BASE_HI.ADDR : Field := ⟨DBG.TR_BASE_HI.o, 0, 16⟩
/-- R495 -/
@[reducible] def DBG.TR_SIZE.o : Nat := 0x7048
def DBG.TR_SIZE.UNITS : Field := ⟨DBG.TR_SIZE.o, 0, 16⟩
/-- R495 -/
@[reducible] def DBG.TR_HEAD.o : Nat := 0x704C
def DBG.TR_HEAD.COUNT : Field := ⟨DBG.TR_HEAD.o, 0, 32⟩
/-- R495 -/
@[reducible] def DBG.TR_TAIL.o : Nat := 0x7050
def DBG.TR_TAIL.COUNT : Field := ⟨DBG.TR_TAIL.o, 0, 32⟩
/-- R495 -/
@[reducible] def DBG.TR_PUB_LO.o : Nat := 0x7054
def DBG.TR_PUB_LO.ADDR : Field := ⟨DBG.TR_PUB_LO.o, 2, 30⟩
/-- R495 -/
@[reducible] def DBG.TR_PUB_HI.o : Nat := 0x7058
def DBG.TR_PUB_HI.ADDR : Field := ⟨DBG.TR_PUB_HI.o, 0, 16⟩
def DBG.TR_PUB_HI.EN : Field := ⟨DBG.TR_PUB_HI.o, 16, 1⟩
/-- R495 -/
@[reducible] def DBG.TR_BUF.o : Nat := 0x705C
def DBG.TR_BUF.USED : Field := ⟨DBG.TR_BUF.o, 0, 16⟩
/-- R495 -/
@[reducible] def DBG.TR_WPOS.o : Nat := 0x7060
def DBG.TR_WPOS.SLOT : Field := ⟨DBG.TR_WPOS.o, 0, 27⟩
/-- R495 -/
@[reducible] def DBG.SN_FEN_BUSY_LO.o : Nat := 0x7100
def DBG.SN_FEN_BUSY_LO.VAL : Field := ⟨DBG.SN_FEN_BUSY_LO.o, 0, 32⟩
/-- R495 -/
@[reducible] def DBG.SN_FEN_BUSY_HI.o : Nat := 0x7104
def DBG.SN_FEN_BUSY_HI.VAL : Field := ⟨DBG.SN_FEN_BUSY_HI.o, 0, 32⟩
/-- R495 -/
@[reducible] def DBG.SN_COLL_BUSY_LO.o : Nat := 0x7108
def DBG.SN_COLL_BUSY_LO.VAL : Field := ⟨DBG.SN_COLL_BUSY_LO.o, 0, 32⟩
/-- R495 -/
@[reducible] def DBG.SN_COLL_BUSY_HI.o : Nat := 0x710C
def DBG.SN_COLL_BUSY_HI.VAL : Field := ⟨DBG.SN_COLL_BUSY_HI.o, 0, 32⟩
/-- R495 -/
@[reducible] def DBG.SN_CKPT_BUSY_LO.o : Nat := 0x7110
def DBG.SN_CKPT_BUSY_LO.VAL : Field := ⟨DBG.SN_CKPT_BUSY_LO.o, 0, 32⟩
/-- R495 -/
@[reducible] def DBG.SN_CKPT_BUSY_HI.o : Nat := 0x7114
def DBG.SN_CKPT_BUSY_HI.VAL : Field := ⟨DBG.SN_CKPT_BUSY_HI.o, 0, 32⟩
/-- R495 -/
@[reducible] def DBG.SN_UPD_BUSY_LO.o : Nat := 0x7118
def DBG.SN_UPD_BUSY_LO.VAL : Field := ⟨DBG.SN_UPD_BUSY_LO.o, 0, 32⟩
/-- R495 -/
@[reducible] def DBG.SN_UPD_BUSY_HI.o : Nat := 0x711C
def DBG.SN_UPD_BUSY_HI.VAL : Field := ⟨DBG.SN_UPD_BUSY_HI.o, 0, 32⟩
/-- R495 -/
@[reducible] def DBG.SN_TR_REC_LO.o : Nat := 0x7120
def DBG.SN_TR_REC_LO.VAL : Field := ⟨DBG.SN_TR_REC_LO.o, 0, 32⟩
/-- R495 -/
@[reducible] def DBG.SN_TR_REC_HI.o : Nat := 0x7124
def DBG.SN_TR_REC_HI.VAL : Field := ⟨DBG.SN_TR_REC_HI.o, 0, 32⟩
/-- R495 -/
@[reducible] def DBG.SN_TR_LOST_LO.o : Nat := 0x7128
def DBG.SN_TR_LOST_LO.VAL : Field := ⟨DBG.SN_TR_LOST_LO.o, 0, 32⟩
/-- R495 -/
@[reducible] def DBG.SN_TR_LOST_HI.o : Nat := 0x712C
def DBG.SN_TR_LOST_HI.VAL : Field := ⟨DBG.SN_TR_LOST_HI.o, 0, 32⟩
/-- R495 -/
@[reducible] def DBG.SN_TR_DROP_LO.o : Nat := 0x7130
def DBG.SN_TR_DROP_LO.VAL : Field := ⟨DBG.SN_TR_DROP_LO.o, 0, 32⟩
/-- R495 -/
@[reducible] def DBG.SN_TR_DROP_HI.o : Nat := 0x7134
def DBG.SN_TR_DROP_HI.VAL : Field := ⟨DBG.SN_TR_DROP_HI.o, 0, 32⟩
/-- R495 -/
@[reducible] def DBG.SN_ARR_BUSY_LO.o (n : Nat) : Nat := 0x7400 + 0x18 * n
def DBG.SN_ARR_BUSY_LO.VAL (n : Nat) : Field := ⟨(DBG.SN_ARR_BUSY_LO.o n), 0, 32⟩
/-- R495 -/
@[reducible] def DBG.SN_ARR_BUSY_HI.o (n : Nat) : Nat := 0x7404 + 0x18 * n
def DBG.SN_ARR_BUSY_HI.VAL (n : Nat) : Field := ⟨(DBG.SN_ARR_BUSY_HI.o n), 0, 32⟩
/-- R495 -/
@[reducible] def DBG.SN_ARR_PROD_LO.o (n : Nat) : Nat := 0x7408 + 0x18 * n
def DBG.SN_ARR_PROD_LO.VAL (n : Nat) : Field := ⟨(DBG.SN_ARR_PROD_LO.o n), 0, 32⟩
/-- R495 -/
@[reducible] def DBG.SN_ARR_PROD_HI.o (n : Nat) : Nat := 0x740C + 0x18 * n
def DBG.SN_ARR_PROD_HI.VAL (n : Nat) : Field := ⟨(DBG.SN_ARR_PROD_HI.o n), 0, 32⟩
/-- R495 -/
@[reducible] def DBG.SN_VEC_BUSY_LO.o (n : Nat) : Nat := 0x7410 + 0x18 * n
def DBG.SN_VEC_BUSY_LO.VAL (n : Nat) : Field := ⟨(DBG.SN_VEC_BUSY_LO.o n), 0, 32⟩
/-- R495 -/
@[reducible] def DBG.SN_VEC_BUSY_HI.o (n : Nat) : Nat := 0x7414 + 0x18 * n
def DBG.SN_VEC_BUSY_HI.VAL (n : Nat) : Field := ⟨(DBG.SN_VEC_BUSY_HI.o n), 0, 32⟩
/-- R515 -/
@[reducible] def PWR.STAT.o : Nat := 0x4000
def PWR.STAT.AUX_OK : Field := ⟨PWR.STAT.o, 0, 1⟩
def PWR.STAT.IN_OK : Field := ⟨PWR.STAT.o, 1, 1⟩
def PWR.STAT.PWR_EN : Field := ⟨PWR.STAT.o, 2, 1⟩
def PWR.STAT.TRIMMED : Field := ⟨PWR.STAT.o, 3, 1⟩
/-- R515 -/
@[reducible] def PWR.EVT.o : Nat := 0x4010
def PWR.EVT.SEQ : Field := ⟨PWR.EVT.o, 0, 16⟩
def PWR.EVT.CODE : Field := ⟨PWR.EVT.o, 16, 8⟩
/-- R515 -/
@[reducible] def PWR.RAIL_SET.o (i : Nat) : Nat := 0x4020 + 4 * i
def PWR.RAIL_SET.MV (i : Nat) : Field := ⟨(PWR.RAIL_SET.o i), 0, 10⟩
/-- R515 -/
@[reducible] def PWR.RAIL_MEAS.o (i : Nat) : Nat := 0x4030 + 4 * i
def PWR.RAIL_MEAS.MV (i : Nat) : Field := ⟨(PWR.RAIL_MEAS.o i), 0, 10⟩
def PWR.RAIL_MEAS.TJ (i : Nat) : Field := ⟨(PWR.RAIL_MEAS.o i), 16, 8⟩
/-- R515 -/
@[reducible] def PWR.IN_MEAS.o : Nat := 0x4040
def PWR.IN_MEAS.CV : Field := ⟨PWR.IN_MEAS.o, 0, 16⟩
def PWR.IN_MEAS.W : Field := ⟨PWR.IN_MEAS.o, 16, 16⟩
/-- R515 -/
@[reducible] def PWR.SN_ENERGY_LO.o : Nat := 0x4100
def PWR.SN_ENERGY_LO.VAL : Field := ⟨PWR.SN_ENERGY_LO.o, 0, 32⟩
/-- R515 -/
@[reducible] def PWR.SN_ENERGY_HI.o : Nat := 0x4104
def PWR.SN_ENERGY_HI.VAL : Field := ⟨PWR.SN_ENERGY_HI.o, 0, 32⟩
/-- R515 -/
@[reducible] def PWR.SN_TRIM_LO.o : Nat := 0x4108
def PWR.SN_TRIM_LO.VAL : Field := ⟨PWR.SN_TRIM_LO.o, 0, 32⟩
/-- R515 -/
@[reducible] def PWR.SN_TRIM_HI.o : Nat := 0x410C
def PWR.SN_TRIM_HI.VAL : Field := ⟨PWR.SN_TRIM_HI.o, 0, 32⟩
/-- R516 -/
@[reducible] def SEC.STAT.o : Nat := 0x5000
def SEC.STAT.BOOT : Field := ⟨SEC.STAT.o, 0, 3⟩
def SEC.STAT.ID_OK : Field := ⟨SEC.STAT.o, 3, 1⟩
def SEC.STAT.FETCHED : Field := ⟨SEC.STAT.o, 4, 1⟩
def SEC.STAT.INSTALLED : Field := ⟨SEC.STAT.o, 5, 1⟩
/-- R516 -/
@[reducible] def SEC.IMAGE_VER.o : Nat := 0x5004
def SEC.IMAGE_VER.VERSION : Field := ⟨SEC.IMAGE_VER.o, 0, 32⟩
/-- R516 -/
@[reducible] def SEC.EVT.o : Nat := 0x5010
def SEC.EVT.SEQ : Field := ⟨SEC.EVT.o, 0, 16⟩
def SEC.EVT.CODE : Field := ⟨SEC.EVT.o, 16, 8⟩
/-- R516 -/
@[reducible] def SEC.EVT_INFO.o : Nat := 0x5014
def SEC.EVT_INFO.WHY : Field := ⟨SEC.EVT_INFO.o, 0, 3⟩
def SEC.EVT_INFO.SLOT : Field := ⟨SEC.EVT_INFO.o, 3, 2⟩
/-- R516 -/
@[reducible] def SEC.FETCH_CTL.o : Nat := 0x5020
def SEC.FETCH_CTL.ALLOW : Field := ⟨SEC.FETCH_CTL.o, 0, 1⟩
def SEC.FETCH_CTL.SERVE : Field := ⟨SEC.FETCH_CTL.o, 1, 1⟩
def SEC.FETCH_CTL.PORT : Field := ⟨SEC.FETCH_CTL.o, 2, 3⟩
/-- R516 -/
@[reducible] def SEC.STAGE_POS.o : Nat := 0x5024
def SEC.STAGE_POS.BYTES : Field := ⟨SEC.STAGE_POS.o, 0, 25⟩
/-- R516 -/
@[reducible] def SEC.STAGE_CTL.o : Nat := 0x5028
def SEC.STAGE_CTL.DONE : Field := ⟨SEC.STAGE_CTL.o, 0, 1⟩
def SEC.STAGE_CTL.ABORT : Field := ⟨SEC.STAGE_CTL.o, 1, 1⟩
def SEC.STAGE_CTL.KIND : Field := ⟨SEC.STAGE_CTL.o, 2, 2⟩
def SEC.STAGE_CTL.SLOT : Field := ⟨SEC.STAGE_CTL.o, 4, 2⟩
/-- R516 -/
@[reducible] def SEC.ATT_NONCE.o (i : Nat) : Nat := 0x5040 + 4 * i
def SEC.ATT_NONCE.VAL (i : Nat) : Field := ⟨(SEC.ATT_NONCE.o i), 0, 32⟩
/-- R516 -/
@[reducible] def SEC.ATT_CTL.o : Nat := 0x5060
def SEC.ATT_CTL.GO : Field := ⟨SEC.ATT_CTL.o, 0, 1⟩
/-- R516 -/
@[reducible] def SEC.ATT_STAT.o : Nat := 0x5064
def SEC.ATT_STAT.DONE : Field := ⟨SEC.ATT_STAT.o, 0, 1⟩
def SEC.ATT_STAT.ERR : Field := ⟨SEC.ATT_STAT.o, 1, 1⟩
/-- R516 -/
@[reducible] def SEC.ATT_D.o (i : Nat) : Nat := 0x5100 + 4 * i
def SEC.ATT_D.VAL (i : Nat) : Field := ⟨(SEC.ATT_D.o i), 0, 32⟩
/-- R516 -/
@[reducible] def SEC.STAGE_D.o (i : Nat) : Nat := 0x5800 + 4 * i
def SEC.STAGE_D.VAL (i : Nat) : Field := ⟨(SEC.STAGE_D.o i), 0, 32⟩

end Sys2Proof.Machine
end

