-- ==== Sys2Proof/Config.lean ====
section
/-! DEFINITION. What an implementation fixes, and the free values: opaque constants with no body, so that a claim about
one holds for every value it may have. Each names the rule that leaves it open, and the assumption log has an entry for it. A free value that may differ at each use takes the counter `State.free`. -/

namespace Sys2Proof

/-- GEN.ID.STEPPING, "by silicon" (R479). -/
opaque Config.stepping : BitVec 4

/-- Byte of the configuration flash as manufacture left it (R501): identity area, images, seed sets, history. -/
opaque Config.flash : Nat → Byte

/-- Bytes in whatever places, of the `n`th use: what a cold reset, which makes no promise about HBM contents (R239, R433), the loss of a
stack (R425) or the content of a test run (R441) leaves. -/
opaque Config.coldHbm : Nat → List (Nat × Byte)

/-- A free byte: data of a miscorrected code word (R263), or of a lost stack (R425). -/
opaque Config.freeByte : Nat → Byte

/-- A free byte at an address, of a use: what the parts of an element hold of which another part came from the partner with the step's
update (R384; log entry 117). -/
opaque Config.freeCell : Nat → Nat → Byte

/-- A free choice: whether a pattern beyond the detected column of R263 is miscorrected, whether an add of a refused
packet had been applied (R253). -/
opaque Config.freeBit : Nat → Bool

/-- A free number: the line that a full merge buffer evicts (R254), the voltage of the H rail in FETCH and HALT (R506). -/
opaque Config.freeNat : Nat → Nat

/-- The vendor's ECDSA root public key in ROM (R503). -/
opaque Config.vendorEcdsa : List Byte

/-- The vendor's LMS root public key in ROM (R503). -/
opaque Config.vendorLms : List Byte

/-- The attestation signature by the PUF-derived key (R511, R512): 96 bytes, r then s, over a digest. -/
opaque Config.attestSign : List Byte → List Byte

/-- The layout of a configuration image's body, which the manual does not give: the register word that the body sets at
an offset (R498, R480: CFG, rail set points), given the body. -/
opaque Config.imageWord : List Byte → Nat → Word

/-- Results of the regulator stage's PMBus reads (R514), whose data formats the manual does not give: command, page,
and the regulator's readings in order, after a number that differs at each read. -/
opaque Config.pmbus : Nat → Nat → List Nat → List Byte

/-- The rate correction that follows a rate and a new correction: "the trend of successive corrections" (R337). -/
opaque Config.rateTrend : Int → Int → Int

/-- Whether a queue of a core that stands in runs the lost identity's program: the SOLO program gives no field that says so
(R373). -/
opaque Config.runsLost : Nat → Nat → Bool

/-- The word that a function of ELT writes where there is no exact result, of the function, the bits of the output format and the operand
as an FP32 code: R185 gives none (log entry 30). -/
opaque Config.eltValue : Nat → Nat → Nat → Nat

/-- The element that EXPAND places where the entries of several kept weights name one position (R182), of their codes. -/
opaque Config.expandClash : List Nat → Nat

/-- The operation code of a SMALL packet for a kind of internal collective, the payloads that carry a contribution (kind, use, identity
and words), and the contributions (use, identity, words) that the payloads of one module carry: R334 gives none of them. -/
opaque Config.smallCode : Nat → BitVec 4
opaque Config.smallOut : Nat → Nat → Nat → List Nat → List (List Byte)
opaque Config.smallIn : Nat → List (List Byte) → List (Nat × Nat × List Nat)

/-- Where the tracker table holds a tracker, by its identity, source, class and parity as one number, and the 64-bit number that its tag and
its next sequence number form there (R356, R364). -/
opaque Config.trackerPlace : Nat → Nat
opaque Config.trackerCode : Nat → Nat → Nat

/-- Position of the module serial number in the identity area, whose 1 MiB hold its 8 bytes whole (R501). -/
opaque Config.serialAt : Nat


/-- Where the check symbols of a code word lie (R262): the pick, among the pins that the earlier ones have left, of each. -/
opaque Config.checkPick : Nat → Nat

/-- Activations of a bank after which the controller issues refresh management (R239; log entry 95). -/
opaque Config.rfmLimit : Nat

/-- The module that the auxiliary port P7 of a module faces (R371; log entry 67). -/
opaque Config.auxPeer : Nat → Nat

end Sys2Proof
end

