-- ==== Sys2Proof/Machine/State.lean ====
section
/-! DEFINITION. The state of the module: its registers, memories and internal state as plain data, and the state after a
cold reset. Registers lie in one table `regs` keyed by their 24-bit offset (R461); a register that is not listed holds
its reset value (`resetWord` in Ops.lean). -/

namespace Sys2Proof.Machine

/-- Reasons to stop with a fault. The manual gives this block none: every failure of the module is an event, a status or
a role, so no meaning raises a fault. -/
inductive Fault where
  /-- Raised by no meaning (safe). -/
  | none
deriving DecidableEq, Repr

/-- Reasons to refuse a command. -/
inductive Refusal where
  /-- Raised by an arm of `exec` whose command has no meaning yet (safe: nothing can be proved of its effect). -/
  | notModelled (mnemonic : String)
deriving DecidableEq, Repr

/-- Reset domains (R413): `held` is the reset of every domain but Parsnip, `except` the domains that run although it is
held (ports and rails of FETCH, R506), `off` the domains that are switched off, `memRetrain` the retraining of the memory
sides and die links (R422). -/
structure Doms where
  held : Bool
  except : List Nat
  off : List Nat
  memRetrain : Bool
  linkRetrain : Bool
deriving DecidableEq, Repr

/-- A warm recovery that runs (R422): its cause, the domains that have acknowledged (R423), whether `QUIESCE_WAIT` has ended, whether
the stacks have entered self refresh, stacks lost with their memory side (R425), whether the Vine was switched off, whether the
die-to-die links have trained (start-up and recovery), and the other domains that were watched and busy as it began, whose windows may run
out with the first (R419). -/
structure Recov where
  cause : Nat
  acked : List Nat
  waited : Bool
  selfRefresh : Bool
  lost : List Nat
  vineOff : Bool
  linksTrained : Bool
  expiring : List Nat
deriving DecidableEq, Repr

/-- Sprout state of a domain (R415): the counter and the Vine time at which it last moved. -/
structure Sprout where
  count : Word
  moved : Nat
deriving DecidableEq, Repr

/-- Supplies, rails and pins (R515, R519–R534). Rails 0–2 are H, C0, C1. `inCv` is the 48 V input in units of 10 mV, `switchClosed` the
input switch (R526), `railsOn` the rails that are up, `railMv` their voltages, `trim` the steps of 10 mV by which C0 and C1 are lowered
(R47), `tripLatch` the latch that pulls THERMTRIP_N low, `hotDies` the dies that have not cooled (R533), `resetNLow` the pin RESET_N,
`startPending` a start that waits for a hot die, `resonator` whether the reference resonator runs, `phyWait` that a command has met a
PHY stopped with it (R17), `coldHold` that a `COLD` write holds Parsnip in reset until the start sequence begins (R432). -/
structure Power where
  inCv : Nat
  switchClosed : Bool
  railsOn : List Nat
  railMv : Tbl Nat
  trim : Nat
  tripLatch : Bool
  hotDies : List Nat
  resetNLow : Bool
  startPending : Bool
  resonator : Bool
  phyWait : Bool
  coldHold : Bool
deriving DecidableEq, Repr

/-- Start-up, images and the security block (R498–R512). `bootCount` is kept in flash; `started`: the start sequence has begun since
the last cold reset; `stageClaim` is the source that claims staging: none, MGMT 0, FABRIC 1 + id, port 0x4000 + port. `serving` is the
port served (R509), `servePos` the bytes acknowledged, `serveSeq` the sequence number of the packet whose ACK is awaited. `attBusy`: a
report is being formed. Digests and versions are those of the images in force. `fromStaging`: the firmware image in flash was installed
from staging (R507). `seedPending` are the seed-set slots not yet verified. -/
structure Boot where
  bootCount : Nat
  started : Bool
  stageClaim : Option Nat
  serving : Option Nat
  servePos : Nat
  serveSeq : Nat
  attBusy : Bool
  fwDigest : List Byte
  cfgDigest : List Byte
  fwVersion : Nat
  cfgVersion : Nat
  fromStaging : Bool
  seedPending : List Nat
deriving DecidableEq, Repr

/-- Management connector: bytes that the module drives in the last SMBus or PMBus transaction (`none`: NACK or silence),
the PMBus page, whether the regulator's fault status was cleared last, the boundary-scan instruction in force and the bits it shifts
out. -/
structure Mgmt where
  out : List Byte
  nack : Bool
  page : Nat
  regFault : Nat
  ir : Nat
  tdo : List Bool
deriving DecidableEq, Repr

/-- A descriptor that a queue has taken and not completed (R163–R170): its number since the queue was enabled, ring
offset, units, bytes, the generation tag of its transfers and the context instance at its start. `phase`: 0 taken,
1 started, 2 its work has ended with `status`, 3 refused as it was taken, with `status` (R163). `issued`: every request it makes has been issued. `wait`: 0 none, 1 a
Stalk write waits (R197), 2 an add waits on a window (R256), 3 room in a target ring (R173), 4 a SYNC word (R172),
5 for one of the four open Fennel operations (R139). `stopped`: its context's teardown has stopped it (R177). -/
structure Desc where
  num : Nat
  off : Nat
  units : Nat
  bytes : List Byte
  tag : Nat
  inst : Nat
  phase : Nat
  status : Nat
  issued : Bool
  wait : Nat
  stopped : Bool
deriving DecidableEq, Repr

/-- A queue of a core: the descriptors taken and not completed, in ring order; the ring offset of the next header; the
number of descriptors taken; steps of the last two openings with the `Q_DONE` recorded there (R174). -/
structure Queue where
  taken : List Desc
  next : Nat
  num : Nat
  marks : List (Nat × Nat)
deriving DecidableEq, Repr

/-- A request that left a core and whose reply is outstanding (R176): issuing core, context, instance, tag, queue and
descriptor number; destination module and sequence number of its packet; kind 0 WRITE, 1 READ, 2 ADD, 3 Fennel row;
where returned bytes land (a fabric address) and how many; whether an ACK was asked for; and whether a rewind or a recovery has ended
it, so that a reply still to come is late. -/
structure Req where
  core : Nat
  ctx : Nat
  inst : Nat
  tag : Nat
  q : Nat
  num : Nat
  dest : Nat
  seq : Nat
  kind : Nat
  land : Nat
  bytes : Nat
  last : Bool
  dead : Bool
deriving DecidableEq, Repr

/-- A WRITE of a remote COPY that waits until it is known whether another follows it, so that the last one carries `LAST` (R179): core,
queue and number of its descriptor, the fabric address written to, and its bytes. With `lands`, read data for this module that waits
for a Stalk granule (R197). -/
structure HeldWrite where
  core : Nat
  q : Nat
  num : Nat
  dest : Nat
  bytes : List Byte
  lands : Bool
deriving DecidableEq, Repr

/-- A tensor entry of a health bank (R219). -/
structure TEntry where
  elems : Nat
  zeros : Nat
  sats : Nat
  nonfin : Nat
  ovf : Bool
deriving DecidableEq, Repr

/-- A layer entry of a health bank (R214, R220). -/
structure LEntry where
  gradZeros : Nat
  gradNonfin : Nat
  underflows : Nat
  momSats : Nat
  ccSats : Nat
  masterNonfin : Nat
  updated : Nat
deriving DecidableEq, Repr

/-- A health bank (R221): the step it holds, whether it is final, its entries, the charge mask (R219), the tokens with
non-finite logits (R143), and whether a charge came after vote 1 was submitted (R223 bit 9). -/
structure Bank where
  step : Option Nat
  final : Bool
  tensor : Tbl TEntry
  layer : Tbl LEntry
  mask : BitVec 4096
  routeNonfin : Nat
  lateCharge : Bool
deriving DecidableEq, Repr

/-- A sampled tile check (R233): core, and per element the drained value and the operands' products in K order. -/
structure Sample where
  core : Nat
  n : Nat
  elems : List (Word × List (Word × Word × Int))
deriving DecidableEq, Repr

/-- Numeric health (chapter 9). `winDue` says that a window read was asked for and is not done (R238); `skips` the skip count per step (R226); `tcLeft` the
checked steps left in the window after a warm recovery, takeover or re-mirroring (R232); `tcStart` the window of
start-up; `tcPasses` completed candidate passes per core. -/
structure Health where
  bank0 : Bank
  bank1 : Bank
  winDue : Bool
  quiet : Tbl Nat
  mquiet : Tbl Nat
  skips : Tbl Nat
  tcLeft : Nat
  tcStart : Bool
  tcPasses : Tbl Nat
  samples : List Sample
deriving DecidableEq, Repr

/-- A table write (R216), own or the mirror's, and whether the partner has acknowledged it. -/
structure TableWrite where
  step : Nat
  table : Nat
  index : Nat
  word : Nat
  data : List Word
  number : Nat
  acked : Bool
  mirror : Bool
deriving DecidableEq, Repr

/-- The update engines (chapter 8): whether a stage 6 has begun and not ended, and of which step, the tables latched from the own state and
the mirror as bytes by region offset, the loss word read at the latch, the list entry that failed, the local verdict
word, the vote-1 state (0 none, 1 submitted, 2 held), whether its result allowed the passes, which passes have ended,
pending table writes, the step's digests, and the gradient shards that the collectives have completed by step, entry and half
(own 0, partner 1, every shard of the step 2). `latched` says that the latch of the running stage 6 is done (an uncorrectable unit makes it wait for a
fetch, R207), `vote2` is the vote-2 state, `lossDue` the step whose loss result is outstanding, `lossVoted` that its vote 1 is
decided, `lossSkip` that the vote did not allow the passes (R215), and `mirWord` the bits [15:8] of the verdict word that the mirror pass
gave (R373). -/
structure Upd where
  running : Bool
  step : Nat
  latOwn : Tbl Byte
  latMir : Tbl Byte
  loss : Word
  tokens : Nat
  lossBad : Bool
  listBad : Option Nat
  word : Nat
  vote1 : Nat
  word1 : Nat
  allowed : Bool
  ownDone : Bool
  mirDone : Bool
  writes : List TableWrite
  nextWrite : Nat
  digOwn : Nat
  digMir : Nat
  digStep : Nat
  shards : List (Nat × Nat × Nat)
  lossSkip : Bool
  latched : Bool
  vote2 : Nat
  lossDue : Option Nat
  lossVoted : Bool
  mirWord : Nat
deriving DecidableEq, Repr

/-- Step and attempt bookkeeping (R352–R355, R538). `oldest` is the oldest step that is not checked; `attempts` the attempt
numbers; `begun` the unchecked steps that have begun; `six` those whose stage 6 has begun; `submitted` and `held` those whose
vote 1 was submitted and whose result is held; `healthOk` those whose numeric health passed; `failed` a step held FAILED and
its cause (0 vote 1, 1 vote 2, 2 digest, 3 fault, 4 attempts); `nextFault` a fault charged to the next step to begin.
`tags` are the tags opened since the last warm recovery, `closed` those that warm recovery closed, and `dropAll` drops every
packet of classes 1–7 until a step is opened (R424). Steps below `released` are released. `todo` are the faults met while
the present command runs, each with the tag of its work and the reason code of R538; the command's end charges them.
`soloTable` says that the queues were last
rewound by the SOLO table. `rerun` is the step whose rerun waits for the actions of R271 (R538) and for started work (R354), and whether it stays on the same table. `again` says that the module rewinds to step k + 1 once its oldest
step k is checked (R355, R372), and whether on the same table. -/
structure Steps where
  todo : List (Option Nat × Nat)
  rerun : Option (Nat × Bool)
  again : Option Bool
  oldest : Nat
  attempts : Tbl Nat
  begun : List Nat
  six : List Nat
  submitted : List Nat
  held : List Nat
  healthOk : List Nat
  failed : Option (Nat × Nat)
  nextFault : Option Nat
  tags : List Nat
  closed : List Nat
  dropAll : Bool
  released : Nat
  soloTable : Bool
deriving DecidableEq, Repr

/-- A unit fetch under R271: target (0 own region, 1 mirror), block offset in the region, whether the request was sent, who waits
(0 nobody, 1 stage 6, 2 checkpoint copy), whether a fault of a step caused it, the 16-byte units that have arrived, and whether
STATE_LOST was reported for it (R272). -/
structure Fetch where
  target : Nat
  off : Nat
  sent : Bool
  waiter : Nat
  fault : Bool
  got : List Nat
  lost : Bool
deriving DecidableEq, Repr

/-- A remap whose copy runs (R274, R275): stack, entry, cause, unit address, granularity. -/
structure RemapJob where
  stack : Nat
  entry : Nat
  cause : Nat
  unit : Nat
  gran : Nat
deriving DecidableEq, Repr

/-- A scrub pass (R278–R280): units read, corrected and uncorrectable, entries filled and pins marked in it, the first
uncorrectable unit and the step at GO. -/
structure Scrub where
  read : Nat
  corrected : Nat
  uncorrectable : Nat
  filled : Nat
  marked : Nat
  firstUe : Option Nat
  stepAtGo : Nat
deriving DecidableEq, Repr

/-- An add that waits on a step-tagged window (R256, R257): window, the core and queue of a local descriptor or the port
and packet of a remote one, and the compute die that holds it. -/
structure WaitAdd where
  win : Nat
  core : Nat
  q : Nat
  remote : Option (Nat × Pkt)
  die : Nat
  inStacks : List Nat
  tag : Nat
deriving DecidableEq, Repr

/-- The memory sides (chapters 10 and 11). `hbmErr` are symbol errors that strike units (unit number → pins), `ceUnit`
corrections per unit (R274), `cePin` corrections per pin, keyed (stack × 32 + channel) × 64 + pin (R265). `ues` are the
uncorrectable units met while the present command runs, each with its reader: 0 an access of a step, 1 stage 6, 2 the
checkpoint copy, 3 the scrubber or a rewind, 4 a gradient read of a pass of stage 6. `budget` are the background budgets in
force (R481): 0 scrub, 1 tile checks, 2 trace flush, 3 parity slices. `refreshed` counts refreshes per stack × 64 + bank. `rows` are the
open rows, `acts` the activations since the last refresh management and `rfms` the refresh management commands, each keyed
(stack × 32 + channel) × 16 + bank (R239); a row is listed as one more than its number. `merge` are the units whose lines stand in the
merge buffers of the adders, newest first (R254). `bus` are units whose next access meets data-bus parity errors, with how many in a row
(R267). `paths` are the receiving domains whose next crossing of a datapath meets a parity error (R437). `updated` are blocks fetched with the update of a step in them: target, offset, step (R384). -/
structure MemSide where
  hbmErr : Tbl (List Nat)
  lsErr : Tbl Nat
  ues : List (Nat × Nat)
  ceUnit : Tbl Nat
  cePin : Tbl Nat
  remaps : List RemapJob
  scrub : Scrub
  fetches : List Fetch
  waitAdds : List WaitAdd
  budget : Tbl Nat
  refreshed : Tbl Nat
  rows : Tbl Nat
  acts : Tbl Nat
  rfms : Tbl Nat
  merge : List Nat
  bus : List (Nat × Nat)
  paths : List Nat
  updated : List (Nat × Nat × Nat)
deriving DecidableEq, Repr

/-- A port (chapter 12). Negotiation: fibres that are live, the last CAPS per fibre, whether base training runs and the rank of the
candidate being tried (0 none) with its fibres, fibres that passed earlier attempts at both ends per lane rate, the peer's report,
the CAPS payload sent last, and whether a wiring check has stopped it. `ours`: this module fenced it; `peerFences`: the peer's LCUs
carry FENCE. `reup`: within the 10 ms of R313, with the peer id and port it had; `lost`: LINK_LOST and not UP since; `emptied`: within those 10 ms the
port was fenced or disabled, which empties its buffers; `rejoin`: UP again in time, the peer's first ACK awaited. Transmit side: next frame number, last frame acknowledged, retry buffer of frame number
and units, units that wait for a frame, CRC of the last frame sent, resend cursor and count, the last frame put on the fibre.
Receive side: last good frame number, whether a NAK is owed, units of a packet that began in an earlier frame. Credits per class:
limits received, units sent, units received, units freed, limits last sent. `stream` are the units of the packets sent that no frame has
taken: up to 255 that the link has read for its next frame, then up to 32 in the crossing FIFO, then those that the FIFO holds back at its
writer (R49, R50). `ready` are packets routed here, each with the axis
it arrived on (R326). `known`: PEER holds the id of a peer that it negotiated with. `relay` are register accesses that the bridge passed on for its host, each with the packet of the
host (R460). -/
structure Port where
  live : Nat
  caps : List (Nat × List Byte)
  rank : Nat
  fibres : Nat
  passed : List (Nat × Nat)
  base : Bool
  peerReport : Option Nat
  capsOut : List Byte
  wiring : Bool
  ours : Bool
  reup : Option (Nat × Nat)
  lost : Bool
  emptied : Bool
  rejoin : Bool
  fseq : Nat
  acked : Nat
  retry : List (Nat × List Unit16)
  stream : List Unit16
  prevCrc : Word
  resend : Option Nat
  resends : Nat
  sent : List Unit16
  rxSeq : Nat
  nak : Bool
  partialUnits : List Unit16
  cl : Tbl Nat
  used : Tbl Nat
  got : Tbl Nat
  freed : Tbl Nat
  clSent : Tbl Nat
  ready : List (Pkt × Option Nat)
  hbSilent : Bool
  peerFences : Bool
  known : Bool
  relay : List (Pkt × Pkt)
deriving DecidableEq, Repr

/-- A contribution of an identity of this module to an internal collective: its kind, the use of that kind it belongs to, the tag its
packets carry, the identity, the words, and whether the result has been taken (R367). -/
structure Contrib where
  kind : Nat
  inst : Nat
  tag : Nat
  ident : Nat
  words : List Nat
  done : Bool
deriving DecidableEq, Repr

/-- The collectives engine (R328–R334): the step that iteration 0 serves, the iteration, whether the current entry has started, the
index of its phase among its phases, the words held, 256-byte units received in the phase, what the phase has gathered by position,
`COLL_DONE` at the last two step openings, contributions to internal collectives (operation, source, tag, payload), RS and AG packets
that came before their entry or phase started, SHARD packets whose acknowledgement is outstanding, the tag of the iteration, entries
of the iteration already counted in `COLL_DONE`, units of partner shards received as (tag, entry, units), this module's own
contributions to internal collectives, the phases in which each use (kind, use, phases) has been passed on, the loss records written
since the module last began to act as bridge (R336), and for a rerun (R367): the units applied in the phase, the last one first, whether
entries of the iteration have been rerun, the entries of it that have completed on the stand-in, and the sources whose packets of the
rerun have begun to come. -/
structure Coll where
  base : Nat
  iter : Nat
  started : Bool
  phase : Nat
  data : List Word
  got : Nat
  gathered : List (Nat × List Word)
  marks : List (Nat × Nat)
  smalls : List (Nat × Nat × Nat × List Byte)
  early : List (Nat × Pkt)
  partnerAck : Nat
  tag : Nat
  counted : Nat
  shardGot : List (Nat × Nat × Nat)
  own : List Contrib
  relayed : List (Nat × Nat × Nat)
  records : Nat
  units : List (Nat × Pkt)
  rerun : Bool
  spared : Nat
  renewed : List Nat
deriving DecidableEq, Repr

/-- The Vine (R337–R339, R343): time in ns, rate correction, t1 of the outstanding REQ, the announced step and checked
step, minima reported by each port's subtree, the minima last sent up or announced, announcements waiting for their
time, and whether the minima have been taken since the last warm recovery. -/
structure Vine where
  time : DWord
  rate : Int
  t1 : Option Nat
  step : Nat
  checked : Nat
  below : List (Nat × Nat × Nat)
  sentUp : Nat × Nat
  anns : List (Nat × Nat × Nat)
  synced : Bool
deriving DecidableEq, Repr

/-- The router (R325): next sequence number per source identity, destination, tag and class (key
((source × 8192 + destination) × 2¹⁶ + tag) × 8 + class, R301); packets that wait while `TOR.CFG.ENABLE` is clear, each with the
axis it arrived on; packets whose target is this module itself, which its own receiving logic takes; and one more than the epoch of the
ALIAS that ended the alias of an id (R321, R323). -/
structure Router where
  seqs : Tbl Nat
  held : List (Pkt × Option Nat)
  loop : List Pkt
  ended : Tbl Nat
deriving DecidableEq, Repr

/-- The partner's DIGEST of a step (R349): step, tag, own and mirror digest, whether it came from a re-check. -/
structure PDigest where
  step : Nat
  tag : Nat
  own : Nat
  mir : Nat
  recheck : Bool
deriving DecidableEq, Repr

/-- Duplex logic (chapter 14). `paired`: the partner port has paired under R347; `pairSent`: PAIR was sent since that port came UP;
`solo`: the SOLO rewind table and program are in force (R368); `cmpFrom`: the first step whose digests are compared, when a fill puts
that off (R380); `peerRole`, `peerId` from the PAIR packet or heartbeats; `probing`: a PROBE waits, with its detection cause;
`takeover`: FENCEs were sent and FENCE_ACKs are awaited, with the detection cause, from the neighbours in `awaiting`; `lostId`: the
identity a stand-in carries; `finishing`: it finishes a step of R372, `takingOver`: no step has been checked since its takeover (R417). A fill: `rm` 1 and 2 sender of a re-mirroring or mirror fill,
`rmIn` 3 and 4 receiver of one, 0 none; `rmUnit` the next packet; `rmGot` ranges received as (target, from, to); `rmStep` the step at RM_DONE.
`pairBad`: a PAIR was refused since the port came UP. `later`: hole-set changes that wait for the ALIAS of the own takeover, as lost id
and stand-in (R376). A spare swap (R379): `swapping` on the SOLO module and, from the start of its fill, on the spare, `swapAt` the step from which the swap holds, `reversing` when the spare is the lost
module, `swapFor` on the spare the identity it takes, `passBefore` the identity and the step of the swap's ALIAS on the module that it names: packets
of earlier steps go on to the partner (R382). `replies`: block fetches asked of this module that wait for a pass (target, offset,
tag); `acks`: table writes sent by (sequence number, write number); `twNumber` and `hbNumber`: the next write number and heartbeat count;
`aliveAt`: Vine time of Parsnip's last keep-alive; `dead`: keep-alive lost (R429); `signal`: a loss of the partner that the port logic signalled while the present command runs, with
its detection cause (R369). -/
structure Duplex where
  paired : Bool
  pairSent : Bool
  pairBad : Bool
  solo : Bool
  cmpFrom : Option Nat
  peerRole : Nat
  peerId : Nat
  digests : List PDigest
  sentDigest : Bool
  recheck : Bool
  probing : Option Nat
  takeover : Option Nat
  awaiting : List Nat
  lostId : Option Nat
  finishing : Bool
  takingOver : Bool
  rm : Nat
  rmIn : Nat
  rmUnit : Nat
  rmGot : List (Nat × Nat × Nat)
  rmStep : Nat
  swapping : Bool
  swapAt : Option Nat
  reversing : Bool
  swapFor : Option Nat
  passBefore : Option (Nat × Nat)
  later : List (Nat × Nat)
  replies : List (Nat × Nat × Nat)
  acks : List (Nat × Nat)
  twNumber : Nat
  hbNumber : Nat
  aliveAt : Nat
  dead : Bool
  signal : Option Nat
deriving DecidableEq, Repr

/-- A ledger segment (R358): step, tag, identity, whether UNPROT, whether the partner's copies, whether Pods under the
stand-in identity, and its Pods, oldest first. -/
structure Segment where
  step : Nat
  tag : Nat
  ident : Nat
  unprot : Bool
  copy : Bool
  standIn : Bool
  pods : List Pkt
deriving DecidableEq, Repr

/-- The step ledger (R356–R365): marked ring and input ring as segments in ring order with the ring offset of the first,
trackers keyed ((identity × 8192 + source) × 8 + class) × 2 + parity to (tag, W), steps whose LEDGER_FULL was raised, and host
writes whose POD_COPY awaits its DUP_ACK, by the sequence number of that POD_COPY. -/
structure Ledger where
  marked : List Segment
  input : List Segment
  mBase : Nat
  iBase : Nat
  trackers : Tbl (Nat × Nat)
  fullSteps : List Nat
  inputAcks : List (Nat × Pkt)
deriving DecidableEq, Repr

/-- A parity slice that the owner keeps open (R399) or a pull of a rebuild (R405): slice number, data received as (position, offset in
the slice, bytes), positions that answered ZERO, and whether it is a rebuild. -/
structure Slice where
  n : Nat
  parts : List (Nat × Nat × List Byte)
  zeros : List Nat
  rebuild : Bool
deriving DecidableEq, Repr

/-- The checkpoint engine (chapter 15). The running checkpoint: number, step, tag, start time, how far the order of R396 has come
(0 none, 2 copy due, 4 parity, 6 prepared, 7 aborted here), bytes copied, fragment slices written. `slices` are open slices, `shas` the
shard digests received, keyed c × 8 + position, each with the step of its packet's tag. `now`: NOW written since the last start. `awaitStart`: the announced step whose start word
awaits its result, `word` that word (newest number held, WANT, HOLD reason or 0, DRAINING bits), `annTime` its announcement's time.
Restore: generations judged valid, candidates refused, the candidate accepted, the group position that lacks its shard, and ranges
rebuilt here; `written` then holds the slices rebuilt for another member. `drainPos`: packets of the drain sent, `drainGen` and `drainFrag`
what its GO asked for (R407); `impC` and `impStep` the number and the step of the import (R408). -/
structure Ckpt where
  c : Nat
  step : Nat
  tag : Nat
  start : Nat
  order : Nat
  copyPos : Nat
  written : List Nat
  slices : List Slice
  shas : List (Nat × Nat × List Byte)
  now : Bool
  awaitStart : Option Nat
  word : Nat × Bool × Nat × Bool × Bool
  annTime : Nat
  valid0 : Bool
  valid1 : Bool
  refused : List Nat
  cand : Option Nat
  lacking : Option Nat
  rebuilt : List (Nat × Nat × Nat)
  drainPos : Nat
  drainGen : Nat
  drainFrag : Bool
  impC : Nat
  impStep : Nat
deriving DecidableEq, Repr

/-- A health-history record (R449): boot count, seconds, kind, unit, detail, step, tag and data. -/
structure HistRec where
  boot : Nat
  secs : Nat
  kind : Nat
  unit : Nat
  detail : Nat
  step : Nat
  tag : Nat
  data : Nat
deriving DecidableEq, Repr

/-- The result of a domain in the last run (R455 RES). -/
structure TestRes where
  tested : Bool
  fail : Bool
  hang : Bool
  point : Nat
  pattern : Nat
deriving DecidableEq, Repr

/-- Field test, health history and classes (chapter 17). `hist` is the history in flash, newest first; `held` the records
that wait for a flash write, `flashBad` whether flash writes fail (R451); classes 0 CLEAN, 1 SUSPECT, 2 TRANSIENT, 3 PERMANENT.
`histNext` is how many records
the ring in flash has taken, and `histKept` how many the compaction area beside it holds (R451, R501). `results` are those of the last run, `abort` a pending ABORT, `voidOnce` that the current point has been VOID once, `trimmed` that a
trim fell in it, `pointMv` its rail voltage, `dly` the delay setting in force (R442), `plan` the words of PLAN, V_FLOOR, T_TARGET and UNITS0–4 that the run latched, `heater`
whether the heater runs, `secs` seconds of this boot, `bases` the powered time at which each boot began (R449). -/
structure Test where
  hist : List HistRec
  held : List HistRec
  histNext : Nat
  histKept : Nat
  flashBad : Bool
  classes : Tbl Nat
  results : Tbl TestRes
  abort : Bool
  voidOnce : Bool
  trimmed : Bool
  pointMv : Nat
  dly : Nat
  plan : List Word
  heater : Bool
  secs : Nat
  bases : Tbl Nat
deriving DecidableEq, Repr

/-- Trace unit (R487–R492): the buffer, oldest slot first; records dropped since the last accepted one; whether
TRACE_FULL was raised for the present lack of room. -/
structure Trace where
  buf : List (List Byte)
  lost : Nat
  fullRaised : Bool
deriving DecidableEq, Repr

/-- A row as it stands before one of the folds of a running pass: the pass's queue and descriptor number, the products folded so
far and the FP32 value per local column. -/
structure AccFold where
  q : Nat
  num : Nat
  count : Nat
  vals : List Word
deriving DecidableEq, Repr

/-- An open accumulator row of a slot's columns (R63): MODE, GROUP and NC of the pass that opened it, the products folded
and the FP32 value per local column. `trail` is the row before each fold of a running pass that may still be outstanding, oldest
first (R128). -/
structure AccRow where
  mode : Nat
  group : Nat
  nc : Nat
  count : Nat
  vals : List Word
  trail : List AccFold
deriving DecidableEq, Repr

/-- The weights a slot holds (R83): the fields they were loaded with and the bytes of the weight block, scale plane and
metadata block. -/
structure HeldW where
  mode : Nat
  wBase : Nat
  wsBase : Nat
  fmtW : Nat
  kc : Nat
  nc : Nat
  sparse : Nat
  metaBase : Nat
  lines : List Nat
  scales : List Nat
  metas : List Nat
deriving DecidableEq, Repr

/-- A pass in the array: queue, descriptor number, tag and bytes; its phase (0 weights loading, 2 weights loaded and waiting for
the drain of a row, 1 lines issuing or folds or drain running, 3 drained); and what a tile check of it would record (R233). -/
structure Pass where
  q : Nat
  num : Nat
  tag : Nat
  bytes : List Byte
  phase : Nat
  sample : List (Word × List (Word × Word × Int))
deriving DecidableEq, Repr

/-- A core's array (chapter 3): accumulator rows keyed row × 2 + column band, held weights by slot, passes in execution
order, and the activity of R77–R80 (0 idle, 1 from the first line of the ramp-up to the end of the ramp-down). -/
structure Arr where
  acc : Tbl (Option AccRow)
  held : Tbl (Option HeldW)
  passes : List Pass
  activity : Nat
deriving DecidableEq, Repr

/-- An open Fennel operation (R139–R156): its descriptor's core, queue, number, tag and bytes; the identity it runs for;
opcode, LAYER and MB. `chosen` are the selected experts per token (none for a token with non-finite logits), `gates` their gate
values, or under NORM PLACED their logits, `routes` one more than the slot of each placed choice keyed t × K + j, `fills` the fill of each hosted expert as (expert, host index, fill), `got` the
data units that arrived, keyed (row key) × 8192 + offset, `rows` the rows still to come by row key, `scanned` whether the scan
has returned, `sent` whether this side's rows have been sent, and `scan` which DISPATCH of its attempt it is (R146, R153). -/
structure FenOp where
  core : Nat
  q : Nat
  num : Nat
  tag : Nat
  ident : Nat
  op : Nat
  layer : Nat
  mb : Nat
  bytes : List Byte
  chosen : List (List Nat)
  gates : List (List Word)
  routes : Tbl Nat
  fills : List (Nat × Nat × Nat)
  got : List Nat
  rows : List Nat
  scanned : Bool
  sent : Bool
  scan : Nat
deriving DecidableEq, Repr

/-- Fennel (R153): open operations, packets in the early-arrival store with the port they came in on, and the operations
completed in the unchecked steps as (step, identity, opcode, LAYER, MB). -/
structure Fennel where
  ops : List FenOp
  early : List (Nat × Pkt)
  done : List (Nat × Nat × Nat × Nat × Nat)
deriving DecidableEq, Repr

/-- Everything the module holds but the queue of waiting commands. `free` counts the uses of free values; it is the
model's own (log entry 9). `live` are the live words behind the holding registers (R474), keyed by their offsets; `gaps`
the blocks whose counters restarted since the last snapshot (R475), `resets` the live counters of R476 that were reset while a snapshot
runs, each with its value before that (R477). `arbs` holds,
for each resource that several requesters wait for, one more than the requester last granted (R51). `accReq` is the `ACC_SEL` word of a read of the accumulators that is still to be taken (R127). `sp` are the Sprout counters by domain. -/
structure Mod where
  regs : Tbl Word
  live : Tbl Word
  gaps : List Nat
  resets : List (Nat × Nat)
  mem : Tbl Byte
  flash : Tbl Byte
  doms : Doms
  recov : Recov
  sp : Tbl Sprout
  power : Power
  boot : Boot
  mgmt : Mgmt
  queues : Tbl Queue
  reqs : List Req
  heldWrites : List HeldWrite
  arrs : Tbl Arr
  fen : Fennel
  stalk : Tbl Nat
  memside : MemSide
  health : Health
  upd : Upd
  steps : Steps
  ports : Tbl Port
  router : Router
  coll : Coll
  vine : Vine
  dup : Duplex
  ledger : Ledger
  ckpt : Ckpt
  test : Test
  trace : Trace
  accReq : Option Word
  arbs : Tbl Nat
  free : Nat
deriving DecidableEq, Repr

/-- The state of the block: the module and the commands that wait, first in, first out. -/
structure State extends Mod where
  pending : List Instr
deriving DecidableEq, Repr

/-- A queue that has taken nothing. -/
def Queue.empty : Queue := ⟨[], 0, 0, []⟩

/-- A port that has never trained. -/
def Port.init : Port where
  live := 0
  caps := []
  rank := 0
  fibres := 0
  passed := []
  base := false
  peerReport := none
  capsOut := []
  wiring := false
  ours := false
  reup := none
  lost := false
  emptied := false
  rejoin := false
  fseq := 0
  acked := 0xFFFF
  retry := []
  stream := []
  prevCrc := 0
  resend := none
  resends := 0
  sent := []
  rxSeq := 0xFFFF
  nak := false
  partialUnits := []
  cl := []
  used := []
  got := []
  freed := []
  clSent := []
  ready := []
  hbSilent := false
  peerFences := false
  known := false
  relay := []

/-- An empty tensor entry, layer entry and bank. -/
def TEntry.zero : TEntry := ⟨0, 0, 0, 0, false⟩
def LEntry.zero : LEntry := ⟨0, 0, 0, 0, 0, 0, 0⟩
def Bank.empty : Bank := ⟨none, false, [], [], 0, 0, false⟩

def Sprout.zero : Sprout := ⟨0, 0⟩

def Arr.idle : Arr := ⟨[], [], [], 0⟩

def Scrub.none : Scrub := ⟨0, 0, 0, 0, 0, Option.none, 0⟩

def Recov.none : Recov := ⟨0, [], false, false, [], false, false, []⟩

def TestRes.none : TestRes := ⟨false, false, false, 0, 0⟩

/-- The memory sides with no error, no work and fresh counts. -/
def MemSide.init : MemSide := ⟨[], [], [], [], [], [], Scrub.none, [], [], [], [], [], [], [], [], [], [], []⟩

def Health.init : Health := ⟨Bank.empty, Bank.empty, false, [], [], [], 0, true, [], []⟩

def Upd.init : Upd where
  running := false
  step := 0
  latOwn := []
  latMir := []
  loss := 0
  tokens := 0
  lossBad := false
  listBad := none
  word := 0
  vote1 := 0
  word1 := 0
  allowed := false
  ownDone := false
  mirDone := false
  writes := []
  nextWrite := 0
  digOwn := 0
  digMir := 0
  digStep := 0
  shards := []
  lossSkip := false
  latched := false
  vote2 := 0
  lossDue := none
  lossVoted := false
  mirWord := 0

/-- After a cold reset no step is checked and step 0 is the first (log entry 12). -/
def Steps.init : Steps := ⟨[], none, none, 0, [], [], [], [], [], [], none, none, [], [], false, 0, false⟩

def Coll.init : Coll := ⟨0, 0, false, 0, [], 0, [], [], [], [], 0, 0, 0, [], [], [], 0, [], false, 0, []⟩

def Vine.init : Vine := ⟨0, 0, none, 0, 0, [], (0, 0), [], false⟩

def Duplex.init : Duplex where
  paired := false
  pairSent := false
  pairBad := false
  solo := false
  cmpFrom := none
  peerRole := 0
  peerId := 0
  digests := []
  sentDigest := false
  recheck := false
  probing := none
  takeover := none
  awaiting := []
  lostId := none
  finishing := false
  takingOver := false
  rm := 0
  rmIn := 0
  rmUnit := 0
  rmGot := []
  rmStep := 0
  swapping := false
  swapAt := none
  reversing := false
  swapFor := none
  passBefore := none
  later := []
  replies := []
  acks := []
  twNumber := 0
  hbNumber := 0
  aliveAt := 0
  dead := false
  signal := none

def Ledger.init : Ledger := ⟨[], [], 0, 0, [], [], []⟩

def Ckpt.init : Ckpt where
  c := 0
  step := 0
  tag := 0
  start := 0
  order := 0
  copyPos := 0
  written := []
  slices := []
  shas := []
  now := false
  awaitStart := none
  word := (0, false, 0, false, false)
  annTime := 0
  valid0 := false
  valid1 := false
  refused := []
  cand := none
  lacking := none
  rebuilt := []
  drainPos := 0
  drainGen := 0
  drainFrag := false
  impC := 0
  impStep := 0

def Test.init : Test where
  hist := []
  held := []
  histNext := 0
  histKept := 0
  flashBad := false
  classes := []
  results := []
  abort := false
  voidOnce := false
  trimmed := false
  pointMv := 0
  dly := 0
  plan := []
  heater := false
  secs := 0
  bases := []

def Trace.init : Trace := ⟨[], 0, false⟩

def Power.init : Power where
  inCv := 0
  switchClosed := false
  railsOn := []
  railMv := []
  trim := 0
  tripLatch := false
  hotDies := []
  resetNLow := false
  startPending := false
  resonator := true
  phyWait := false
  coldHold := false

def Boot.init : Boot where
  bootCount := 0
  started := false
  stageClaim := none
  serving := none
  servePos := 0
  serveSeq := 0
  attBusy := false
  fwDigest := []
  cfgDigest := []
  fwVersion := 0
  cfgVersion := 0
  fromStaging := false
  seedPending := []

def Mgmt.init : Mgmt := ⟨[], false, 0, 0, 0, []⟩

/-- The module after a cold reset (R432, R433): every register at its reset value (none is listed), every domain but
Parsnip down until the start sequence of R498 brings it up, memories with nothing listed. -/
def Mod.reset : Mod where
  regs := []
  live := []
  gaps := []
  resets := []
  mem := []
  flash := []
  doms := ⟨true, [], [], false, false⟩
  recov := Recov.none
  sp := []
  power := Power.init
  boot := Boot.init
  mgmt := Mgmt.init
  queues := []
  reqs := []
  heldWrites := []
  arrs := []
  fen := ⟨[], [], []⟩
  stalk := []
  memside := MemSide.init
  health := Health.init
  upd := Upd.init
  steps := Steps.init
  ports := []
  router := ⟨[], [], [], []⟩
  coll := Coll.init
  vine := Vine.init
  dup := Duplex.init
  ledger := Ledger.init
  ckpt := Ckpt.init
  test := Test.init
  trace := Trace.init
  accReq := none
  arbs := []
  free := 0

/-- The state right after reset: no command waits. -/
def State.reset : State := { Mod.reset with pending := [] }

end Sys2Proof.Machine
end

