-- ==== Sys2Proof/Machine/Ops.lean ====
section
/-! DEFINITION. Shared operations: register access by word and field, holding counters, events, `ALERT_N`, domains, the
health history and the trace. -/

namespace Sys2Proof.Machine

/-! ## Registers -/

/-- The row of the register map that defines a block offset (R461, R463). -/
def findReg (b o : Nat) : Option RegDef :=
  (regMap b).find? fun r => decide (r.off ≤ o) && decide ((o - r.off) % r.stride = 0) && decide ((o - r.off) / r.stride < r.copies)

/-- The KiB share of class `c` at port `p` after reset (R297). -/
def resetShare (p c : Nat) : Nat :=
  if p = 6 then [16, 32, 32, 64, 16, 16, 304, 32].getD c 0 else [16, 96, 96, 128, 80, 64, 16, 16].getD c 0

/-- The reset word of the register at a 24-bit offset: the reset column of its table; 0 where that column says "from
flash" or "from HBM", values that start-up loads (log entry 5). -/
def resetWord (off : Nat) : Word :=
  let b := off / 0x1000
  let o := off % 0x1000
  if 256 ≤ b ∧ b < 384 ∧ o = 0 then
    let n := b - 256
    BitVec.ofNat 32 (n + 128 * (n / 64) + 256 * (n % 64 / 8))
  else if b = 0 ∧ o = 0 then BitVec.ofNat 32 (0x8812 + 0x10000 * Config.stepping.toNat)
  else if b = 10 ∧ 0x100 ≤ o ∧ o < 0x500 ∧ o % 0x80 = 0 then
    -- PORT_CTL: FLOOR 9, HB_MISS 4, HB_EN on P6 only
    BitVec.ofNat 32 (0x4900 + (if o = 0x400 then 2 else 0))
  else if b = 10 ∧ 0x100 ≤ o ∧ o < 0x500 ∧ 0x10 ≤ o % 0x80 ∧ o % 0x80 < 0x20 ∧ o % 4 = 0 then
    let p := (o - 0x100) / 0x80
    let k := (o % 0x80 - 0x10) / 4
    BitVec.ofNat 32 (resetShare p (2 * k) + 0x10000 * resetShare p (2 * k + 1))
  else match findReg b o with
    | some r => BitVec.ofNat 32 r.reset
    | none => 0

/-- The stored word of a register. -/
def Mod.rd (m : Mod) (o : Nat) : Word := tget resetWord m.regs o

/-- The module with a register word stored. -/
def Mod.wr (m : Mod) (o : Nat) (v : Word) : Mod := { m with regs := tset resetWord m.regs o v }

/-- The value of a field in a word. -/
def Field.get (f : Field) (w : Word) : Nat := w.toNat / 2 ^ f.lo % 2 ^ f.w

/-- The word with a field replaced by `n` modulo its width. -/
def Field.put (f : Field) (w : Word) (n : Nat) : Word :=
  BitVec.ofNat 32 (w.toNat - f.get w * 2 ^ f.lo + n % 2 ^ f.w * 2 ^ f.lo)

/-- A field of a register of the module. -/
def Mod.f (m : Mod) (f : Field) : Nat := f.get (m.rd f.off)

/-- Whether a field is not zero. -/
def Mod.is (m : Mod) (f : Field) : Bool := m.f f != 0

/-- The module with a field set. -/
def Mod.set (m : Mod) (f : Field) (n : Nat) : Mod := m.wr f.off (f.put (m.rd f.off) n)

/-- Several fields set in turn. -/
def Mod.sets (m : Mod) (l : List (Field × Nat)) : Mod := l.foldl (fun m e => m.set e.1 e.2) m

/-- A 64-bit value split over two words (R466). -/
def Mod.pair (m : Mod) (lo hi : Nat) : Nat := (m.rd lo).toNat + 0x100000000 * (m.rd hi).toNat

/-- A 48-bit address or step split over a `_LO` word and bits [15:0] of a `_HI` word. -/
def Mod.pair48 (m : Mod) (lo hi : Nat) : Nat := (m.rd lo).toNat + 0x100000000 * ((m.rd hi).toNat % 0x10000)

/-! ## Holding counters (R474–R476): `live` words behind the holding registers -/

def Mod.lv (m : Mod) (o : Nat) : Nat := (tget (fun _ => (0 : Word)) m.live o).toNat

def Mod.lset (m : Mod) (o n : Nat) : Mod := { m with live := tset (fun _ => 0) m.live o (BitVec.ofNat 32 n) }

/-- The 64-bit counter whose low word lies at `o`. -/
def Mod.cnt (m : Mod) (o : Nat) : Nat := m.lv o + 0x100000000 * m.lv (o + 4)

/-- The counter at `o` raised by `n`, modulo 2⁶⁴. -/
def Mod.count (m : Mod) (o n : Nat) : Mod :=
  let v := (m.cnt o + n) % 2 ^ 64
  (m.lset o v).lset (o + 4) (v / 2 ^ 32)

/-- The live counter `k` of R476 is about to be reset from `old`: while a snapshot runs, the value before is kept for a sample that the
reset meets (R477). -/
def Mod.noteReset (m : Mod) (k old : Nat) : Mod :=
  if m.is SNAP.STAT.BUSY then { m with resets := m.resets.filter (·.1 != k) ++ [(k, old)] } else m

/-! ## Free values -/

/-- The next free-value number, and the module that has used it. -/
def Mod.fresh (m : Mod) : Mod × Nat := ({ m with free := m.free + 1 }, m.free)

/-! ## Domains (R413, R461, R464) -/

/-- The domain that holds a register. -/
def regDomain (off : Nat) : Nat :=
  let b := off / 0x1000
  let o := off % 0x1000
  if 256 ≤ b ∧ b < 384 then b - 256 else
  match b with
  | 7 => if 0x400 ≤ o then (o - 0x400) / 0x18 else if o < 0x200 then 149 else 255
  | 8 => 149
  | 9 => if 0x300 ≤ o ∧ o < 0x31C then 145 else if 0x30 ≤ o ∧ o < 0x50 then 150 else 144
  | 10 => if 0x100 ≤ o ∧ o < 0x500 then 136 + (o - 0x100) / 0x80 else 144
  | 11 => 151
  | 12 => 147
  | 13 => 148
  | 14 => 146
  | 15 => 128
  | 16 => 128
  | 17 => if 0x40 ≤ o ∧ o < 0x60 then 128 + (o - 0x40) / 4 else 128
  | 18 => if 0x100 ≤ o ∧ o < 0x500 then 128 + (o - 0x100) / 0x80
          else if 0x600 ≤ o ∧ o < 0xA00 then 128 + (o - 0x600) / 0x80 else 128
  | _ => 255

/-- Whether Parsnip runs: its auxiliary input holds, it has not failed, and no cold reset holds it (R19, R429, R432). -/
def Mod.parsnipUp (m : Mod) : Bool := m.is PWR.STAT.AUX_OK && !m.dup.dead && !m.power.resetNLow && !m.power.coldHold

/-- Whether a domain is in reset, switched off or retraining (R464). Parsnip (255) is not while it runs. -/
def Mod.down (m : Mod) (d : Nat) : Bool :=
  (d == 255 && !m.parsnipUp) || d < 156 && ((m.doms.held && !m.doms.except.contains d) || m.doms.off.contains d
    || (m.doms.memRetrain && decide (128 ≤ d) && decide (d < 136))
    || (m.doms.linkRetrain && decide (153 ≤ d)))

/-- The domain that holds a register: for the accumulator read it is the core that `ACC_SEL` addresses (R461). -/
def Mod.regDom (m : Mod) (off : Nat) : Nat :=
  if DBG.ACC_SEL.o ≤ off ∧ off < 0x7250 then m.f DBG.ACC_SEL.CORE else regDomain off

/-- Whether a domain has acknowledged the quiesce request of a running warm recovery: it takes no new work (R423). -/
def Mod.quiesced (m : Mod) (d : Nat) : Bool := m.recov.acked.contains d

/-! ## Trace records (R487–R490) -/

/-- Slots of the trace buffer of 1 MiB (R489). -/
def traceSlots : Nat := 32768

/-- A 32-byte trace slot. -/
def traceSlot (m : Mod) (unit q kind slots tag gen : Nat) (data : List Byte) : List Byte :=
  let head := leBytes 8 m.vine.time.toNat ++ leBytes 1 unit ++
    leBytes 1 (q + (if m.is VIN.STAT.LOCKED then 0 else 128)) ++ leBytes 1 kind ++ leBytes 1 slots ++
    leBytes 2 tag ++ leBytes 2 gen
  let all := head ++ data
  all ++ List.replicate (32 * slots - all.length) 0

/-- Whether a record of a kind from a unit is sent (R489): its kind is set, and its core or its hub domain; a unit that is neither sends none.
STEP and LOST always pass while capture runs. -/
def Mod.traced (m : Mod) (kind unit : Nat) : Bool :=
  m.is DBG.TR_CTL.EN && !m.down 149 &&
  (kind == 5 || ((m.rd DBG.TR_KINDS.o).getLsbD kind &&
    (if unit < 128 then (m.rd (DBG.TR_CORES.o (unit / 32))).getLsbD (unit % 32)
     else decide (144 ≤ unit) && decide (unit < 156) && (m.rd DBG.TR_HUB.o).getLsbD (unit - 144))))

/-- A record is dropped and counted (R490). -/
def Mod.traceDrop (m : Mod) : Mod :=
  { m with trace := { m.trace with lost := m.trace.lost + 1 } }.count DBG.SN_TR_LOST_LO.o 1

/-- The next value of an event's SEQ: one more modulo 2¹⁶, skipping 0 (R469, R470). -/
def nextSeq (s : Nat) : Nat := if (s + 1) % 0x10000 = 0 then 1 else (s + 1) % 0x10000

/-- The first drop after an accepted record raises TRACE_LOST (R490), an event whose own record has no room either. -/
def Mod.traceLost (m : Mod) : Mod :=
  let m := m.wr DBG.EVT.o (BitVec.ofNat 32 (nextSeq ((m.rd DBG.EVT.o).toNat % 0x10000) + 0x10000))
  if (m.rd GEN.ALERT_MASK.o).getLsbD (DBG.EVT.o / 0x1000) && m.traced 4 149 then m.traceDrop else m

/-- A record is put in the buffer, or dropped when it has no room; a LOST record goes ahead of the first
record accepted after drops, from the slot kept for it (R490). -/
def Mod.tracePut (m : Mod) (rec : List Byte) : Mod :=
  let need := rec.length / 32
  let used := m.trace.buf.length
  if used + need + 1 ≤ traceSlots then
    let lostRec := if m.trace.lost = 0 then [] else [traceSlot m 254 0 8 1 0 0 (leBytes 8 m.trace.lost)]
    let slots := if need = 2 then [rec.take 32, rec.drop 32] else [rec]
    { m with trace := { m.trace with buf := m.trace.buf ++ lostRec ++ slots, lost := 0 } }.count DBG.SN_TR_REC_LO.o 1
  else if m.trace.lost = 0 then m.traceDrop.traceLost else m.traceDrop

/-- A record of one slot, when its source sends it. -/
def Mod.traceRec (m : Mod) (unit q kind tag gen : Nat) (data : List Byte) : Mod :=
  if m.traced kind unit then m.tracePut (traceSlot m unit q kind 1 tag gen data) else m

/-- A hub engine starts an operation or an entry, or ends it with a status (R487). The numbers and opcodes of the checkpoint engine's
operations, which have none of their own, are log entry 125. -/
def Mod.hubStart (m : Mod) (unit n op gen : Nat) : Mod := m.traceRec unit 0 6 0 gen (leBytes 4 n ++ leBytes 1 op)
def Mod.hubEnd (m : Mod) (unit n op gen status : Nat) : Mod := m.traceRec unit 0 7 0 gen (leBytes 4 n ++ leBytes 1 op ++ leBytes 1 status)

/-- Records that slots hold: one that says it takes two is followed by its second slot (R487). -/
def recordsIn : Nat → List (List Byte) → Nat
  | _, [] => 0
  | 0, s :: rest => recordsIn (leNat ((s.drop 11).take 1) - 1) rest + 1
  | k + 1, _ :: rest => recordsIn k rest

/-! ## Events (R470, R489) -/

/-- Event code `code` in the EVT register at `evt`: the info registers are zeroed and then take the fields given (R470);
the event is a trace record of kind EVENT when its block's ALERT_MASK bit is set (R489). -/
def Mod.raiseAt (m : Mod) (evt : Nat) (infos : List Nat) (unit code : Nat) (fields : List (Field × Nat)) : Mod :=
  let seq := nextSeq ((m.rd evt).toNat % 0x10000)
  let m := infos.foldl (fun m o => m.wr o 0) m
  let m := m.sets fields
  let m := m.wr evt (BitVec.ofNat 32 (seq + 0x10000 * code))
  let b := evt / 0x1000
  let masked := if b < 256 then (m.rd GEN.ALERT_MASK.o).getLsbD b else m.is GEN.ALERT_MASK.CORE
  if masked then m.traceRec unit 0 4 0 0 (leBytes 1 (b % 256) ++ leBytes 1 code ++ leBytes 2 seq) else m

def Mod.raiseFEN (m : Mod) (code : Nat) (fs : List (Field × Nat)) : Mod :=
  m.raiseAt FEN.EVT.o [FEN.EVT_OP.o, FEN.EVT_SRC.o] 146 code fs
def Mod.raiseCORE (m : Mod) (n code : Nat) (fs : List (Field × Nat)) : Mod :=
  m.raiseAt (CORE.EVT.o n) [CORE.EVT_INFO.o n, CORE.EVT_ADDR.o n] n code fs
def Mod.raiseUPD (m : Mod) (code index : Nat) : Mod :=
  m.raiseAt UPD.EVT.o [UPD.EVT_INFO.o] 128 code [(UPD.EVT_INFO.INDEX, index)]
def Mod.raiseHLT (m : Mod) (code : Nat) (fs : List (Field × Nat)) : Mod :=
  m.raiseAt HLT.EVT.o [HLT.EVT_INFO.o] 128 code fs
def Mod.raiseMEM (m : Mod) (code : Nat) (fs : List (Field × Nat)) : Mod :=
  m.raiseAt MEM.EVT.o [MEM.EVT_INFO.o] 128 code fs
def Mod.raiseMPR (m : Mod) (code : Nat) (fs : List (Field × Nat)) : Mod :=
  m.raiseAt MPR.EVT.o [MPR.EVT_INFO.o, MPR.EVT_ADDR_LO.o, MPR.EVT_ADDR_HI.o] 128 code fs
def Mod.raiseLNK (m : Mod) (code port module : Nat) : Mod :=
  m.raiseAt LNK.EVT.o [LNK.EVT_INFO.o] (136 + port) code [(LNK.EVT_INFO.PORT, port), (LNK.EVT_INFO.MODULE, module)]
def Mod.raiseTOR (m : Mod) (code module port reason : Nat) : Mod :=
  m.raiseAt TOR.EVT.o [TOR.EVT_INFO.o] 144 code
    [(TOR.EVT_INFO.MODULE, module), (TOR.EVT_INFO.PORT, port), (TOR.EVT_INFO.REASON, reason)]
def Mod.raiseVIN (m : Mod) (code : Nat) : Mod := m.raiseAt VIN.EVT.o [] 149 code []
def Mod.raiseDUP (m : Mod) (code module reason step : Nat) : Mod :=
  m.raiseAt DUP.EVT.o [DUP.EVT_INFO.o, DUP.EVT_STEP_LO.o, DUP.EVT_STEP_HI.o] 151 code
    [(DUP.EVT_INFO.MODULE, module), (DUP.EVT_INFO.REASON, reason), (DUP.EVT_STEP_LO.VAL, step),
     (DUP.EVT_STEP_HI.VAL, step / 0x100000000)]
def Mod.raiseLDG (m : Mod) (code step : Nat) : Mod :=
  m.raiseAt LDG.EVT.o [LDG.EVT_STEP_LO.o, LDG.EVT_STEP_HI.o] 147 code
    [(LDG.EVT_STEP_LO.VAL, step), (LDG.EVT_STEP_HI.VAL, step / 0x100000000)]
def Mod.raiseBLB (m : Mod) (code c reason gen step : Nat) : Mod :=
  m.raiseAt BLB.EVT.o [BLB.EVT_C.o, BLB.EVT_INFO.o, BLB.EVT_STEP_LO.o, BLB.EVT_STEP_HI.o] 148 code
    [(BLB.EVT_C.C, c), (BLB.EVT_INFO.REASON, reason), (BLB.EVT_INFO.GEN, gen), (BLB.EVT_STEP_LO.VAL, step),
     (BLB.EVT_STEP_HI.VAL, step / 0x100000000)]
def Mod.raiseRST (m : Mod) (code domain cause : Nat) : Mod :=
  m.raiseAt RST.EVT.o [RST.EVT_INFO.o] 254 code [(RST.EVT_INFO.DOMAIN, domain), (RST.EVT_INFO.CAUSE, cause)]
def Mod.raiseTST (m : Mod) (code : Nat) (fs : List (Field × Nat)) : Mod :=
  m.raiseAt TST.EVT.o [TST.EVT_INFO.o] 254 code fs
def Mod.raiseDBG (m : Mod) (code : Nat) : Mod := m.raiseAt DBG.EVT.o [] 149 code []
def Mod.raisePWR (m : Mod) (code : Nat) : Mod := m.raiseAt PWR.EVT.o [] 254 code []
def Mod.raiseSEC (m : Mod) (code : Nat) (fs : List (Field × Nat)) : Mod :=
  m.raiseAt SEC.EVT.o [SEC.EVT_INFO.o] 254 code fs

/-! ## Event summary and ALERT_N (R472) -/

/-- The offset of the EVT register of block `b` below 256; block 0 is WERR. -/
def evtOff (b : Nat) : Option Nat :=
  match b with
  | 0 => some GEN.WERR.o
  | 3 => some RST.EVT.o
  | 4 => some PWR.EVT.o
  | 5 => some SEC.EVT.o
  | 6 => some TST.EVT.o
  | 7 => some DBG.EVT.o
  | 8 => some VIN.EVT.o
  | 9 => some TOR.EVT.o
  | 10 => some LNK.EVT.o
  | 11 => some DUP.EVT.o
  | 12 => some LDG.EVT.o
  | 13 => some BLB.EVT.o
  | 14 => some FEN.EVT.o
  | 15 => some UPD.EVT.o
  | 16 => some HLT.EVT.o
  | 17 => some MEM.EVT.o
  | 18 => some MPR.EVT.o
  | _ => if 256 ≤ b ∧ b < 384 then some (CORE.EVT.o (b - 256)) else none

/-- Whether a block holds an event whose CODE is not zero. -/
def Mod.hasEvent (m : Mod) (b : Nat) : Bool :=
  match evtOff b with
  | some o => (m.rd o).toNat / 0x10000 % 256 != 0
  | none => false

/-- The sum of 2^i over the `i < n` that satisfy `p`. -/
def bitsOf (n : Nat) (p : Nat → Bool) : Nat :=
  (List.range n).foldl (fun a i => if p i then a + 2 ^ i else a) 0

def Mod.evtSum (m : Mod) : Nat := bitsOf 19 m.hasEvent
def Mod.evtSumCore (m : Mod) (i : Nat) : Nat := bitsOf 32 fun d => m.hasEvent (256 + 32 * i + d)

/-- Whether the module drives ALERT_N low (R472, R429, R505): in FETCH and HALT it is held low. While the auxiliary
input is absent the output is high-impedance (R524). -/
def Mod.alertLow (m : Mod) : Bool :=
  m.is PWR.STAT.AUX_OK &&
  (m.dup.dead || (List.range 19).any (fun b => m.hasEvent b && (m.rd GEN.ALERT_MASK.o).getLsbD b)
   || (m.is GEN.ALERT_MASK.CORE && (List.range 128).any (fun n => m.hasEvent (256 + n)))
   || m.f RST.STAT.STATE != 0 || m.is DUP.ROLE.TKO_PENDING || decide (6 ≤ m.f SEC.STAT.BOOT))

/-- Whether the module pulls THERMTRIP_N low (R533, R524). -/
def Mod.thermtripLow (m : Mod) : Bool := m.power.tripLatch && m.is PWR.STAT.AUX_OK

/-! ## Health history (R449–R451) and classes (R452) -/

/-- A byte of flash as manufacture left it (R501), and bytes of the flash. -/
def flash0 : Nat → Byte := fun i => Config.flash i
def Mod.flashBytes (m : Mod) (a n : Nat) : List Byte := getBytes flash0 m.flash a n
def Mod.putFlash (m : Mod) (a : Nat) (bs : List Byte) : Mod := { m with flash := putBytes flash0 m.flash a bs }

/-- Records the ring of R449 holds. -/
def historyRing : Nat := 65536

/-- Seconds of powered time at which a record of this boot is written. -/
def Mod.histSecs (m : Mod) : Nat := m.test.secs

/-- Kinds of which a full ring keeps its records (R451). -/
def keptKind (k : Nat) : Bool := [0x0A, 0x0B, 0x12].contains k

/-- A full ring overwrites the oldest record except those of kinds 0x0A, 0x0B and 0x12, which it keeps (R451). -/
def histTrim (l : List HistRec) : List HistRec :=
  if historyRing < l.length then
    match (l.reverse.findIdx? fun r => !keptKind r.kind) with
    | some i => (l.reverse.eraseIdx i).reverse
    | none => l
  else l

/-- The 32 bytes of a record (R449). -/
def histBytes (r : HistRec) : List Byte :=
  let b := leBytes 4 r.boot ++ leBytes 4 r.secs ++ leBytes 1 r.kind ++ leBytes 1 r.unit ++ leBytes 2 r.detail ++ leBytes 6 r.step ++
    leBytes 2 r.tag ++ leBytes 8 r.data
  b ++ leBytes 4 (crc32 b).toNat

/-- Where the history lies in flash: the ring of 65 536 records, and beside it the compaction area (R449, R451, R501). -/
def histBase : Nat := 0x8000000
def histArea : Nat := 0x8200000

/-- The record's bytes go into the next slot of the ring in flash. Once the ring is full, a slot that holds a record of a kept kind is
first copied into the compaction area (R451; log entry 123). -/
def Mod.histBurn (m : Mod) (r : HistRec) : Mod :=
  let a := histBase + 32 * (m.test.histNext % historyRing)
  let old := m.flashBytes a 32
  let keep := decide (historyRing ≤ m.test.histNext) && keptKind (leNat ((old.drop 8).take 1))
  let m := if keep then
      { m.putFlash (histArea + 32 * (m.test.histKept % historyRing)) old with test := { m.test with histKept := m.test.histKept + 1 } }
    else m
  { m.putFlash a (histBytes r) with test := { m.test with histNext := m.test.histNext + 1 } }

/-- A record enters the flash history. -/
def Mod.histFlash (m : Mod) (r : HistRec) : Mod :=
  let m := m.histBurn r
  let m := { m with test := { m.test with hist := histTrim (r :: m.test.hist) } }
  (m.count TST.SN_HIST_LO.o 1).set TST.HIST_N.COUNT m.test.hist.length

/-- A record is written, or while flash writes fail held in Parsnip's memory, which takes 64; a record beyond those is lost and
counted (R451). -/
def Mod.histPut (m : Mod) (r : HistRec) : Mod :=
  if !m.test.flashBad then m.histFlash r
  else if m.test.held.length < 64 then { m with test := { m.test with held := m.test.held ++ [r] } }
  else m.count TST.SN_HIST_LOST_LO.o 1

/-- A record of the given kind, stamped with the boot count and seconds. -/
def Mod.hist (m : Mod) (kind unit detail step tag data : Nat) : Mod :=
  m.histPut ⟨m.boot.bootCount, m.histSecs, kind, unit, detail, step, tag, data⟩

/-- Whether a kind is a fault kind, and whether it leads straight to PERMANENT (R450). -/
def faultKind (kind : Nat) : Bool := [1, 2, 3, 4, 5, 6, 7, 8, 9, 0x0A, 0x11].contains kind
def directKind (kind : Nat) : Bool := kind == 0x0A

/-- The class of a unit. -/
def Mod.unitClass (m : Mod) (u : Nat) : Nat := tget (fun _ => 0) m.test.classes u

/-- A unit's class changes: a CLASS record and CLASS_CHANGE (R452). -/
def Mod.setClass (m : Mod) (u c : Nat) : Mod :=
  let old := m.unitClass u
  if old = c then m
  else
    let m := { m with test := { m.test with classes := tset (fun _ => 0) m.test.classes u c } }
    let m := m.hist 0x12 u (old + 256 * c) 0 0 0
    m.raiseTST 4 [(TST.EVT_INFO.UNIT, u), (TST.EVT_INFO.NEWCLASS, c)]

/-- A record that charges its unit: a fault kind moves CLEAN and TRANSIENT to SUSPECT, a direct kind moves any class to
PERMANENT (R452). -/
def Mod.charge (m : Mod) (kind unit detail step tag data : Nat) : Mod :=
  let m := m.hist kind unit detail step tag data
  if directKind kind then m.setClass unit 3
  else if faultKind kind ∧ (m.unitClass unit = 0 ∨ m.unitClass unit = 2) then m.setClass unit 1
  else m

/-- Powered time in seconds: the sum of seconds over boots (R449). -/
def Mod.poweredAt (m : Mod) (boot secs : Nat) : Nat := tget (fun _ => 0) m.test.bases boot + secs

/-- Powered time at which each boot began, with the next boot's: it begins where this one has got to. -/
def Mod.nextBase (m : Mod) : Tbl Nat :=
  let b := m.boot.bootCount + 1
  tset (fun _ => 0) m.test.bases b (max (m.poweredAt b 0) (m.poweredAt m.boot.bootCount m.test.secs))

/-- Fault records of a unit within the last WINDOW days of powered time (R452), those that wait for a flash write among them. -/
def Mod.recent (m : Mod) (u : Nat) : Nat :=
  let now := m.poweredAt m.boot.bootCount m.test.secs
  ((m.test.held ++ m.test.hist).filter fun r =>
    r.unit == u && faultKind r.kind && decide (now ≤ m.poweredAt r.boot r.secs + m.f TST.TRANS_MAX.WINDOW * 86400)).length

/-! ## Module identity, slice and layout -/

/-- This module's id (R318). -/
def Mod.id (m : Mod) : Nat := m.f TOR.ID.MODULE

/-- The role (R344, codes of R306): 0 SPARE, 1 PAIRED, 2 SOLO, 3 PROBATION, 4 FENCED. -/
def Mod.role (m : Mod) : Nat := m.f DUP.ROLE.ROLE

/-- The partner port (R346). -/
def Mod.pport (m : Mod) : Nat := if m.is DUP.CFG.PPORT then 7 else 6

def Mod.port (m : Mod) (p : Nat) : Port := tget (fun _ => Port.init) m.ports p

def Mod.setPort (m : Mod) (p : Nat) (x : Port) : Mod := { m with ports := tset (fun _ => Port.init) m.ports p x }

def Mod.queue (m : Mod) (n q : Nat) : Queue := tget (fun _ => Queue.empty) m.queues (4 * n + q)

def Mod.setQueue (m : Mod) (n q : Nat) (x : Queue) : Mod :=
  { m with queues := tset (fun _ => Queue.empty) m.queues (4 * n + q) x }

def Mod.arr (m : Mod) (n : Nat) : Arr := tget (fun _ => Arr.idle) m.arrs n

def Mod.setArr (m : Mod) (n : Nat) (x : Arr) : Mod := { m with arrs := tset (fun _ => Arr.idle) m.arrs n x }

/-- Units of progress of a domain (R415). -/
def Mod.progressBy (m : Mod) (d n : Nat) : Mod :=
  if n = 0 then m
  else
    let s := tget (fun _ => Sprout.zero) m.sp d
    { m with sp := tset (fun _ => Sprout.zero) m.sp d ⟨s.count + BitVec.ofNat 32 n, m.vine.time.toNat⟩ }

/-- One unit of progress of a domain. -/
def Mod.progress (m : Mod) (d : Nat) : Mod := m.progressBy d 1

end Sys2Proof.Machine
end

