-- ==== Sys2Proof/Machine/MemMap.lean ====
section
/-! DEFINITION. The module-local address map (R29–R38), the place of an HBM byte (R241), windows and views
(R242–R244), and the R53 fields of fabric addresses (R9). -/

namespace Sys2Proof.Machine

/-- Bits [hi:lo] of a number (R8). -/
def bits (x hi lo : Nat) : Nat := x / 2 ^ lo % 2 ^ (hi + 1 - lo)

/-- End of HBM in the map (R29). -/
def hbmTop : Nat := 0x8000000000
/-- Base of the local-store windows, their pitch and the size of a local store (R29, R30). -/
def lsBase : Nat := 0x10000000000
def lsPitch : Nat := 0x1000000
def lsSize : Nat := 0x400000
/-- Base of register space (R29). -/
def regBase : Nat := 0x20000000000

/-- The address of a byte of a core's local store. -/
def lsAddr (core off : Nat) : Nat := lsBase + core * lsPitch + off

/-- Whether a range of `n` bytes lies in HBM. -/
def inHbm (a n : Nat) : Bool := decide (a + n ≤ hbmTop)

/-- The core whose local store holds the whole range, if one does (R30). -/
def storeOf (a n : Nat) : Option Nat :=
  if lsBase ≤ a ∧ a < lsBase + 128 * lsPitch ∧ (a - lsBase) % lsPitch + n ≤ lsSize
  then some ((a - lsBase) / lsPitch) else none

/-- Whether a range lies in core `c`'s local store. -/
def inStore (c a n : Nat) : Bool := storeOf a n == some c

/-- Whether a range lies in register space. -/
def inRegs (a n : Nat) : Bool := decide (regBase ≤ a) && decide (a + n ≤ regBase + 0x1000000)

/-- Whether every byte of a range is mapped (R29, R31). -/
def mapped (a n : Nat) : Bool := inHbm a n || (storeOf a n).isSome || inRegs a n

/-! ## Regions (R34) -/

/-- S and L in bytes. -/
def Mod.sizeS (m : Mod) : Nat := m.f CFG.LAYOUT.S_GIB * 0x40000000
def Mod.sizeL (m : Mod) : Nat := m.f CFG.LAYOUT.L_GIB * 0x40000000

/-- First byte of a region 1–6 in the order of R34; region 7 stands for the end of HBM. -/
def Mod.regionBase (m : Mod) (r : Nat) : Nat :=
  match r with
  | 1 => 0
  | 2 => m.sizeS
  | 3 => 2 * m.sizeS
  | 4 => 4 * m.sizeS
  | 5 => 4 * m.sizeS + m.sizeS / 4
  | 6 => 4 * m.sizeS + m.sizeS / 4 + m.sizeL
  | _ => hbmTop

/-- The region of an HBM address. -/
def Mod.regionOf (m : Mod) (a : Nat) : Nat :=
  if a < m.regionBase 2 then 1 else if a < m.regionBase 3 then 2 else if a < m.regionBase 4 then 3
  else if a < m.regionBase 5 then 4 else if a < m.regionBase 6 then 5 else 6

/-- Whether a range lies wholly in a region. -/
def Mod.inRegion (m : Mod) (r a n : Nat) : Bool :=
  decide (m.regionBase r ≤ a) && decide (a + n ≤ m.regionBase (r + 1))

/-! ## The Stalk and the workspace (R195, R196) -/

def Mod.stalkBase (m : Mod) : Nat := m.pair48 UPD.STK_BASE_LO.o UPD.STK_BASE_HI.o
def Mod.stalkSize (m : Mod) : Nat := m.f UPD.STK_GRAN.COUNT * 0x200000

/-- Whether a range touches a Stalk byte. -/
def Mod.touchesStalk (m : Mod) (a n : Nat) : Bool :=
  m.stalkSize != 0 && decide (m.stalkBase < a + n) && decide (a < m.stalkBase + m.stalkSize)

/-- Whether a range lies in the Stalk and workspace region outside the Stalk. -/
def Mod.inWork (m : Mod) (a n : Nat) : Bool := m.inRegion 6 a n && !m.touchesStalk a n

/-- Where a unit other than a DMA engine may read and write for itself: mapped bytes outside the Stalk, in a local store or in a region
that R38 lets it read or write (R31, R38, R196; log entry 97). -/
def Mod.unitReads (m : Mod) (a n : Nat) : Bool :=
  (storeOf a n).isSome || (inHbm a n && !m.touchesStalk a n && (decide (a + n ≤ m.regionBase 3) || m.inRegion 6 a n))
def Mod.unitWrites (m : Mod) (a n : Nat) : Bool := (storeOf a n).isSome || m.inWork a n

/-! ## Place of a byte (R241) -/

/-- Where an HBM byte lies: stack, channel, bank, row, 256-byte column unit and 64-byte quarter. -/
structure Place where
  stack : Nat
  channel : Nat
  bank : Nat
  row : Nat
  column : Nat
  quarter : Nat
deriving DecidableEq, Repr

/-- The stack of an interleaved address (R241). -/
def stackOf (a : Nat) : Nat := bits a 10 8 ^^^ bits a 20 18 ^^^ bits a 30 28

/-- The address within the stack (R241). -/
def inStack (a : Nat) : Nat := bits a 38 11 * 256 + a % 256

def placeOf (a : Nat) : Place :=
  let l := inStack a
  ⟨stackOf a, bits l 12 8 ^^^ bits l 24 20, bits l 19 16 ^^^ bits l 28 25, bits l 35 20, bits l 15 13, bits l 7 6⟩

/-- The interleaved address of a 64-byte unit at a place. -/
def Place.addr (p : Place) : Nat :=
  let l := p.row * 2 ^ 20 + (p.bank ^^^ (p.row / 32 % 16)) * 2 ^ 16 + p.column * 2 ^ 13 +
    (p.channel ^^^ (p.row % 32)) * 2 ^ 8 + p.quarter * 64
  let a := l / 256 * 2048 + l % 256
  a + (p.stack ^^^ bits a 20 18 ^^^ bits a 30 28) * 256

/-- The interleaved addresses of the 32 units of a place's channel row. -/
def Place.rowUnits (p : Place) : List Nat :=
  (List.range 32).map fun i => { p with column := i / 4, quarter := i % 4 }.addr

/-! ## Windows (R242) and views (R243, R244) -/

def Mod.winBase (m : Mod) (w : Nat) : Nat := m.pair48 (MEM.WIN_BASE_LO.o w) (MEM.WIN_BASE_HI.o w)
def Mod.winSize (m : Mod) (w : Nat) : Nat := m.f (MEM.WIN_SIZE.UNITS w) * 0x200000

/-- Whether window `w` is valid and holds the range. -/
def Mod.winHolds (m : Mod) (w a n : Nat) : Bool :=
  m.is (MEM.WIN_ATTR.VALID w) && decide (m.winBase w ≤ a) && decide (a + n ≤ m.winBase w + m.winSize w)

/-- The valid window that holds a range. -/
def Mod.winAt (m : Mod) (a n : Nat) : Option Nat := (List.range 16).find? fun w => m.winHolds w a n

/-- The interleaved address that a view gives for offset `o` of a window of base `b` and size `w` (R244). -/
def viewAddr (view b w o : Nat) : Nat :=
  if view = 0 then b + o
  else
    let s := if view = 1 then o / (w / 8) else 4 * (o / (w / 2)) + o % (w / 2) / 256 % 4
    let u := if view = 1 then o % (w / 8) / 256 else o % (w / 2) / 256 / 4
    let blk := b + u * 2048
    blk + 256 * (s ^^^ bits blk 20 18 ^^^ bits blk 30 28) + o % 256

/-- The interleaved address that the module accesses for an HBM address (R244). -/
def Mod.viewed (m : Mod) (a : Nat) : Nat :=
  match m.winAt a 1 with
  | some w => viewAddr (m.f (MEM.WIN_ATTR.VIEW w)) (m.winBase w) (m.winSize w) (a - m.winBase w)
  | none => a

/-! ## Fabric addresses (R9) -/

/-- The module id and module-local address of a fabric address. -/
def fabMod (fa : Nat) : Nat := fa / 2 ^ 48 % 8192
def fabLocal (fa : Nat) : Nat := fa % 2 ^ 48

end Sys2Proof.Machine
end

