-- ==== Sys2Proof/Machine/Hbm.lean ====
section
/-! DEFINITION. Reads and writes of HBM and the local stores with their check codes: the outcomes of R263, pin marks
(R265, R266), the remap table (R273–R276), narrow writes (R268), uncorrectable errors (R270) and the byte code of the
local stores (R159, R160). -/

namespace Sys2Proof.Machine

/-- The budget in force of a kind of background work (R27, R481). -/
def Mod.budget (m : Mod) (kind : Nat) : Nat := tget (fun _ => 0) m.memside.budget kind

/-- Who accesses memory: `die` 0 or 1 a core of that compute die, 2 a hub engine, 3 the memory side itself; the tag of
its work; what an uncorrectable unit means to it, as in `MemSide.ues`, or 4 for an access of a descriptor that then ends with a
DATA status, whose completion charges the fault (R170, R538); and the domain that receives what it reads (R413): a core, 128 for the
memory sides, 144 for the hub's engines. -/
structure By where
  die : Nat
  tag : Option Nat
  why : Nat
  dom : Nat
deriving DecidableEq, Repr

/-- A hub engine's accesses, those of a core's descriptor, and those by which a core completes a descriptor. -/
def By.hub (tag : Option Nat) : By := ⟨2, tag, 0, 144⟩
def By.core (n tag : Nat) : By := ⟨n / 64, some tag, 4, n⟩
def By.completion (n tag : Nat) : By := ⟨n / 64, some tag, 0, n⟩

/-- Whether a domain is one that receives what an access reads. -/
def By.receives (b : By) (d : Nat) : Bool :=
  if b.dom = 128 then decide (128 ≤ d) && decide (d < 136) else if b.dom = 144 then decide (144 ≤ d) && decide (d < 153) else d == b.dom

def Mod.mside (m : Mod) (f : MemSide → MemSide) : Mod := { m with memside := f m.memside }

/-- A fault of a step is noted; the command's end charges it (R538). -/
def Mod.fault (m : Mod) (tag : Option Nat) (reason : Nat) : Mod :=
  { m with steps := { m.steps with todo := m.steps.todo ++ [(tag, reason)] } }

/-! ## Traffic counters (R259) -/

/-- The bank of a unit, as (stack × 32 + channel) × 16 + bank. -/
def bankOf (p : Place) : Nat := (p.stack * 32 + p.channel) * 16 + p.bank

/-- What the controllers know of the banks: open rows, activations since refresh management, and refresh management issued. -/
structure BankState where
  rows : Tbl Nat
  acts : Tbl Nat
  rfms : Tbl Nat
deriving DecidableEq, Repr

/-- A bank opens `k` rows in turn from `row` on: where the first is not open it is activated too, and the controller issues refresh
management from its own count of activations of the bank (R239; log entry 95). -/
def BankState.opens (s : BankState) (b row k : Nat) : BankState :=
  let n := tget (fun _ => 0) s.acts b + (if tget (fun _ => 0) s.rows b = row + 1 then k - 1 else k)
  let l := max 1 Config.rfmLimit
  ⟨tset (fun _ => 0) s.rows b (row + k), tset (fun _ => 0) s.acts b (n % l),
   tset (fun _ => 0) s.rfms b (tget (fun _ => 0) s.rfms b + n / l)⟩

/-- The row of a byte is open. -/
def BankState.reach (s : BankState) (a : Nat) : BankState := let p := placeOf a; s.opens (bankOf p) p.row 1

/-- A range is passed over in address order, 256 bytes of a stack at a time. A block of 8 MiB is one row of every bank (R241). -/
def BankState.sweep (s : BankState) (a n : Nat) : BankState :=
  let some_ (s : BankState) (a n : Nat) : BankState :=
    (List.range ((a % 256 + n + 255) / 256)).foldl (fun s i => s.reach (a / 256 * 256 + 256 * i)) s
  let lo := (a + 0x7FFFFF) / 0x800000
  let hi := (a + n) / 0x800000
  if hi ≤ lo then some_ s a n
  else
    let s := some_ s a (lo * 0x800000 - a)
    some_ ((List.range 4096).foldl (fun s b => s.opens b lo (hi - lo)) s) (hi * 0x800000) (a + n - hi * 0x800000)

/-- The banks after what `f` says. -/
def MemSide.banks (s : MemSide) (f : BankState → BankState) : MemSide :=
  let r := f ⟨s.rows, s.acts, s.rfms⟩
  { s with rows := r.rows, acts := r.acts, rfms := r.rfms }

/-- An access reaches a unit's row. -/
def Mod.activate (m : Mod) (unit : Nat) : Mod := m.mside fun s => s.banks fun t => t.reach (64 * unit)

/-- Whether bytes of a unit cross the C0–C1 link to the one who accesses it: the two lie on different dies, a hub engine's link being
chosen by bit 11 (R240). -/
def farFrom (die unit : Nat) : Bool :=
  die != 3 && stackOf (64 * unit) / 4 != (if die = 2 then bits (64 * unit) 11 11 else die)

/-- Bytes of a range that cross the C0–C1 link: by 256-byte pieces, of which four in each block of 2 KiB lie on either die (R241). -/
def farBytes (die a n : Nat) : Nat :=
  let some_ (a n : Nat) : Nat := ((List.range ((a % 256 + n + 255) / 256)).map fun i =>
    let u := (a / 256 + i) * 256
    if farFrom die (u / 64) then min (a + n) (u + 256) - max a u else 0).sum
  let lo := (a + 2047) / 2048
  let hi := (a + n) / 2048
  if die = 3 then 0
  else if hi ≤ lo then some_ a n
  else some_ a (lo * 2048 - a) + 1024 * (hi - lo) + some_ (hi * 2048) (a + n - hi * 2048)

/-- 64-byte units of a range that lie in a stack: four of each block of 2 KiB (R241). -/
def stackUnits (s a n : Nat) : Nat :=
  let some_ (a n : Nat) : Nat :=
    ((List.range ((a % 64 + n + 63) / 64)).filter fun i => stackOf ((a / 64 + i) * 64) == s).length
  let lo := (a + 2047) / 2048
  let hi := (a + n) / 2048
  if n = 0 then 0
  else if hi ≤ lo then some_ a n
  else some_ a (lo * 2048 - a) + 4 * (hi - lo) + some_ (hi * 2048) (a + n - hi * 2048)

/-- Each memory side makes progress by what `f` gives of the units of a range that lie in its stack (R415). -/
def Mod.stackProgress (m : Mod) (a n : Nat) (f : Nat → Nat) : Mod :=
  (List.range 8).foldl (fun m s => m.progressBy (128 + s) (f (stackUnits s a n))) m

/-- An access over a clocked PHY, which runs off the resonator: HBM and the die-to-die links are stopped with it, and what needs them waits
(R17). After the quiesce of the recovery that follows no unit makes accesses any more. -/
def Mod.phy (m : Mod) (uses : Bool) : Mod :=
  if m.power.resonator || !uses || decide (1 < m.f RST.STAT.STATE) then m
  else { m with power := { m.power with phyWait := true } }

/-- `n` bytes of a unit pass between a stack and the one who accesses it: for a requester outside the memory side, a request answered
(R415). -/
def Mod.traffic (m : Mod) (b : By) (unit ctr n : Nat) : Mod :=
  let m := (((m.phy true).activate unit).count ctr n).progressBy (128 + stackOf (64 * unit)) (if b.die = 3 then 0 else 1)
  if farFrom b.die unit then m.count MEM.SN_FAR_BYTES_LO.o n else m

/-! ## The burst code (R262, R263) -/

/-- Symbol errors of a unit. Symbols 0–63 are the data pins; 64–69 the check symbols. -/
def Mod.unitErr (m : Mod) (u : Nat) : List Nat := tget (fun _ => []) m.memside.hbmErr u

def Mod.setUnitErr (m : Mod) (u : Nat) (e : List Nat) : Mod :=
  m.mside fun s => { s with hbmErr := tset (fun _ => []) s.hbmErr u e }

/-- The data pins that carry the check symbols 64–69, no pin more than one (R262): each lies on one of the pins that the earlier ones
have left. Which they are is the implementation's (log entry 96). -/
def checkPinsFrom : Nat → Nat → List Nat → List Nat
  | 0, _, _ => []
  | n + 1, i, left =>
    let p := left.getD (Config.checkPick i % left.length) 0
    p :: checkPinsFrom n (i + 1) (left.erase p)

def checkPins : List Nat := checkPinsFrom 6 0 (List.range 64)

/-- The symbols that a pin carries: its data symbol, and the check symbol that lies on it. -/
def pinSymbols (p : Nat) : List Nat := p :: (checkPins.zipIdx.filter (·.1 == p)).map fun e => 64 + e.2

/-- The state of a unit whose write has failed every retry: it is uncorrectable until it is written whole (R267). It stands among symbol
errors under a number that no symbol has. -/
def lostUnit : Nat := 70

/-- The outcome of decoding: 0 clean, 1 corrected, 2 detected, 3 beyond the detected column. A marked pin's symbols are erasures. -/
def Mod.outcome (m : Mod) (u : Nat) : Nat :=
  let e := (m.unitErr u).dedup
  let p := placeOf (64 * u)
  let i := 32 * p.stack + p.channel
  if e = [] then 0
  else if e.contains lostUnit then 2
  else if m.is (MPR.PIN.VALID i) then
    let n := (e.filter fun x => !(pinSymbols (m.f (MPR.PIN.PIN i))).contains x).length
    if n ≤ 1 then 1 else if n ≤ 3 then 2 else 3
  else if e.length ≤ 2 then 1 else if e.length ≤ 4 then 2 else 3

/-- The stored bytes of a unit. -/
def Mod.unitBytes (m : Mod) (u : Nat) : List Byte := getBytes byte0 m.mem (64 * u) 64

/-- The decoder's result: the unit's bytes, whether a correction was made. Beyond the detected column a free choice
decides whether the unit is miscorrected to free bytes or detected. -/
def Mod.decodeUnit (m : Mod) (u : Nat) : Mod × Option (List Byte) × Bool :=
  match m.outcome u with
  | 0 => (m, some (m.unitBytes u), false)
  | 1 => (m, some (m.unitBytes u), true)
  | 2 => (m, none, false)
  | _ =>
    let (m, k) := m.fresh
    if Config.freeBit k then (m, none, false)
    else (m, some ((List.range 64).map fun i => Config.freeByte (64 * k + i)), true)

/-- The next access to a unit meets the data-bus parity errors that await it: each is retried up to three times, and each retry counted.
False when every retry has failed (R267). -/
def Mod.busMeets (m : Mod) (u : Nat) : Mod × Bool :=
  match m.memside.bus.find? (·.1 == u) with
  | none => (m, true)
  | some e =>
    let m := m.mside fun s => { s with bus := s.bus.eraseP (· == e) }
    (m.count MPR.SN_PARITY_LO.o (min e.2 3), decide (e.2 ≤ 3))

/-- A unit as the controller reads it: over the data bus, then through the decoder. -/
def Mod.senseUnit (m : Mod) (u : Nat) : Mod × Option (List Byte) × Bool :=
  match m.busMeets u with
  | (m, true) => m.decodeUnit u
  | (m, false) => (m, none, false)

/-! ## The remap table (R273–R276) -/

/-- Whether entry `e` of stack `s` is in force. -/
def Mod.entryValid (m : Mod) (s e : Nat) : Bool := (m.rd (MPR.REMAP_LO.o (16 * s + e))).getLsbD 0

/-- The two words of an entry (R273). -/
def entryLo (p : Place) (gran cause : Nat) : Nat :=
  1 + 2 * gran + 4 * cause + 16 * p.channel + 512 * p.bank + 0x10000 * p.row
def entryHi (p : Place) (gran : Nat) : Nat := if gran = 1 then 0 else p.column + 8 * p.quarter

/-- Whether an entry covers a unit: same channel, bank and row, and for GRAN UNIT the same column and quarter. -/
def Mod.entryCovers (m : Mod) (p : Place) (e : Nat) : Bool :=
  let lo := (m.rd (MPR.REMAP_LO.o (16 * p.stack + e))).toNat
  let hi := (m.rd (MPR.REMAP_HI.o (16 * p.stack + e))).toNat
  lo % 2 == 1 && bits lo 8 4 == p.channel && bits lo 12 9 == p.bank && bits lo 31 16 == p.row &&
    (bits lo 1 1 == 1 || hi == entryHi p 0)

/-- UNIT entries of a unit's row. -/
def Mod.rowEntries (m : Mod) (p : Place) : List Nat :=
  (List.range 16).filter fun e =>
    let lo := (m.rd (MPR.REMAP_LO.o (16 * p.stack + e))).toNat
    lo % 4 == 1 && bits lo 8 4 == p.channel && bits lo 12 9 == p.bank && bits lo 31 16 == p.row

/-- Whether a unit is remapped or its copy runs. -/
def Mod.remapped (m : Mod) (u : Nat) : Bool :=
  let p := placeOf (64 * u)
  (List.range 16).any (m.entryCovers p) ||
    m.memside.remaps.any fun j => j.stack == p.stack &&
      (j.unit == u || (j.gran == 1 && (p.rowUnits.map (· / 64)).contains j.unit))

/-- The first free entry of a stack that no copy has taken. -/
def Mod.freeEntry (m : Mod) (s : Nat) : Option Nat :=
  (List.range 16).find? fun e =>
    !m.entryValid s e && !(m.memside.remaps.any fun j => j.stack == s && j.entry == e)

/-- The event fields that name a unit. -/
def Mod.unitFields (m : Mod) (u : Nat) : List (Field × Nat) :=
  let p := placeOf (64 * u)
  [(MPR.EVT_INFO.STACK, p.stack), (MPR.EVT_INFO.CHANNEL, p.channel), (MPR.EVT_INFO.REGION, m.regionOf (64 * u)),
   (MPR.EVT_ADDR_LO.ADDR, 64 * u), (MPR.EVT_ADDR_HI.ADDR, 64 * u / 2 ^ 32)]

/-! ## Corrections and uncorrectable units -/

/-- A corrected code word is counted against a data pin in error; at the threshold the pin is marked failed (R265), or
the channel becomes degraded when it already holds a mark of another pin (R266). -/
def Mod.countPin (m : Mod) (u pin : Nat) : Mod :=
  let p := placeOf (64 * u)
  let i := 32 * p.stack + p.channel
  let n := tget (fun _ => 0) m.memside.cePin (64 * i + pin) + 1
  let m := m.mside fun s => { s with cePin := tset (fun _ => 0) s.cePin (64 * i + pin) n }
  let fields := m.unitFields u ++ [(MPR.EVT_INFO.PIN, pin)]
  if n < m.f MPR.CFG.PIN_MARK then m
  else if !m.is (MPR.PIN.VALID i) then
    let m := m.sets [(MPR.PIN.PIN i, pin), (MPR.PIN.VALID i, 1)]
    let m := m.set MPR.STAT.MARKED (m.f MPR.STAT.MARKED ||| 2 ^ p.stack)
    let m := if m.is MPR.STAT.SCRUB_BUSY
      then m.mside fun s => { s with scrub := { s.scrub with marked := s.scrub.marked + 1 } } else m
    (m.hist 0x0B (128 + p.stack) 1 0 0 (256 * p.channel + pin)).raiseMPR 2 fields
  else if m.f (MPR.PIN.PIN i) ≠ pin ∧ !m.is (MPR.PIN.DEGRADED i) then
    let m := m.set (MPR.PIN.DEGRADED i) 1
    let m := m.set MPR.STAT.DEGRADED (m.f MPR.STAT.DEGRADED ||| 2 ^ p.stack)
    (m.charge 0x0A (128 + p.stack) 1 0 0 (256 * p.channel + pin)).raiseMPR 3 fields
  else m

/-- A code word was corrected: it, its pins and its unit are counted (R265, R274). -/
def Mod.noteCorrected (m : Mod) (u : Nat) : Mod :=
  let e := (m.unitErr u).dedup
  let m := m.count MPR.SN_CE_LO.o 1
  let m := (e.filter (· < 64)).foldl (fun m p => m.countPin u p) m
  m.mside fun s => { s with ceUnit := tset (fun _ => 0) s.ceUnit u (tget (fun _ => 0) s.ceUnit u + 1) }

/-- An uncorrectable unit (R270): counted, recorded and reported; noted for the action of its region (R271); a fault of
the step of an ordinary access (R538). -/
def Mod.noteUe (m : Mod) (b : By) (u : Nat) : Mod :=
  let m := m.count MPR.SN_UE_LO.o 1
  let m := m.charge 0x02 (128 + stackOf (64 * u)) 0 0 (b.tag.getD 0) (64 * u)
  let m := m.raiseMPR 1 (m.unitFields u)
  let m := m.mside fun s => { s with ues := s.ues ++ [(u, b.why % 4)] }
  if b.why = 0 then m.fault b.tag 1 else m

/-- 64 bytes go into a unit, whose write meets the parity errors of the bus: false when every retry has failed, and the unit is
uncorrectable (R267). -/
def Mod.putUnit (m : Mod) (u : Nat) (bs : List Byte) : Mod × Bool :=
  match m.busMeets u with
  | (m, true) => ({ m with mem := putBytes byte0 m.mem (64 * u) bs }.setUnitErr u [], true)
  | (m, false) => (m.setUnitErr u [lostUnit], false)

/-- A unit goes into a slot as decoded: an uncorrectable one as zeros, with valid check symbols (R274). `got` is what the read that asked
for the entry has decoded; without it the unit is read for the copy, and counted and reported like every read. -/
def Mod.slotUnit (m : Mod) (got : Option (Option (List Byte))) (u : Nat) : Mod :=
  let put (m : Mod) (bs : List Byte) : Mod :=
    match m.putUnit u bs with
    | (m, true) => m
    | (m, false) => m.noteUe ⟨3, none, 3, 128⟩ u
  match got with
  | some r => put m (r.getD (List.replicate 64 0))
  | none =>
    match m.senseUnit u with
    | (m, some bs, c) => put (if c then m.noteCorrected u else m) bs
    | (m, none, _) => put (m.noteUe ⟨3, none, 3, 128⟩ u) (List.replicate 64 0)
/-- A copy into a slot ends: `VALID` is set, a ROW entry frees the UNIT entries of its row, the entry is recorded in the health history
and REMAP is raised (R274, R275). -/
def Mod.slotFilled (m : Mod) (j : RemapJob) : Mod :=
  let s := j.stack
  let p := placeOf (64 * j.unit)
  let lo := entryLo p j.gran j.cause
  let hi := entryHi p j.gran
  let old := if j.gran = 1 then m.rowEntries p else []
  let m := m.mside fun x => { x with remaps := x.remaps.eraseP (· == j) }
  let m := old.foldl (fun m e => (m.wr (MPR.REMAP_LO.o (16 * s + e)) 0).wr (MPR.REMAP_HI.o (16 * s + e)) 0) m
  let m := (m.wr (MPR.REMAP_LO.o (16 * s + j.entry)) (BitVec.ofNat 32 lo)).wr (MPR.REMAP_HI.o (16 * s + j.entry))
    (BitVec.ofNat 32 hi)
  let m := m.hist 0x0B (128 + s) 2 0 0 (lo + 2 ^ 32 * hi)
  m.raiseMPR 4 (m.unitFields j.unit ++ [(MPR.EVT_INFO.ENTRY, j.entry)])

/-- The copy that covers a unit, while it runs. -/
def Mod.slotCopy (m : Mod) (u : Nat) : Option RemapJob :=
  let p := placeOf (64 * u)
  m.memside.remaps.find? fun j => j.stack == p.stack &&
    (j.unit == u || (j.gran == 1 && (p.rowUnits.map (· / 64)).contains j.unit))

/-- An access to a unit whose copy runs waits until `VALID` is set, and is then served from the slot (R275). -/
def Mod.awaitSlot (m : Mod) (u : Nat) : Mod :=
  if m.memside.remaps.isEmpty then m
  else match m.slotCopy u with
    | some j => m.slotFilled j
    | none => m

/-- The controller starts to fill an entry for a unit or its row (R274, R275); with no free entry it raises REMAP_FULL
and records the address (R276). `REMAP_COPY_DONE` ends the copy. The slot is transparent: the unit's address goes on to
read what the slot holds (log entry 13). The slots belong to the spare area, which the same code covers (R264): a remapped unit keeps
symbol errors, and its reads are decoded like any other's. A row copy reads the row: it waits for copies of its units. -/
def Mod.remap (m : Mod) (u cause gran : Nat) (got : Option (Option (List Byte))) : Mod :=
  let p := placeOf (64 * u)
  match m.freeEntry p.stack with
  | none =>
    let m := m.charge 0x0A (128 + p.stack) 2 0 0 (64 * u)
    m.raiseMPR 5 (m.unitFields u)
  | some e =>
    let units := if gran = 1 then p.rowUnits.map (· / 64) else [u]
    let m := units.foldl (fun m x => (m.awaitSlot x).slotUnit (if x = u then got else none) x) m
    let m := if m.is MPR.STAT.SCRUB_BUSY
      then m.mside fun s => { s with scrub := { s.scrub with filled := s.scrub.filled + 1 } } else m
    m.mside fun s => { s with remaps := s.remaps ++ [⟨p.stack, e, cause, u, gran⟩] }

/-- UNIT entries that a row holds, and those that copies are filling. -/
def Mod.rowHolds (m : Mod) (p : Place) : Nat :=
  (m.rowEntries p).length +
    (m.memside.remaps.filter fun j => j.stack == p.stack && j.gran == 0 && (p.rowUnits.map (· / 64)).contains j.unit).length

/-- Automatic filling while AUTO is set, at GRAN ROW when the row already holds two UNIT entries (R274). `got` is what the read has
decoded. -/
def Mod.autoRemap (m : Mod) (u cause : Nat) (got : Option (List Byte)) : Mod :=
  if m.is MPR.CFG.AUTO && !m.remapped u then
    m.remap u cause (if 2 ≤ m.rowHolds (placeOf (64 * u)) then 1 else 0) (some got)
  else m

/-- The unit is remapped at the threshold of corrections (R274). -/
def Mod.corrected (m : Mod) (u : Nat) (bs : List Byte) : Mod :=
  let m := m.noteCorrected u
  if m.f MPR.CFG.CE_REMAP ≤ tget (fun _ => 0) m.memside.ceUnit u then m.autoRemap u 0 (some bs) else m

/-- An uncorrectable unit is reported, and remapped as zeros while AUTO is set (R270, R274). -/
def Mod.ueUnit (m : Mod) (b : By) (u : Nat) : Mod := (m.noteUe b u).autoRemap u 1 none

/-- One unit read: its bytes, or none when it is uncorrectable. -/
def Mod.readUnit (m : Mod) (b : By) (u : Nat) : Mod × Option (List Byte) :=
  let m := (m.awaitSlot u).traffic b u MEM.SN_RD_BYTES_LO.o 64
  match m.senseUnit u with
  | (m, some bs, c) => (if c then m.corrected u bs else m, some bs)
  | (m, none, _) => (m.ueUnit b u, none)

/-- 64 bytes are written to a unit. False when every retry of a write parity error has failed: the unit is then uncorrectable (R267). -/
def Mod.sinkUnit (m : Mod) (b : By) (u : Nat) (bs : List Byte) : Mod × Bool :=
  match (m.traffic b u MEM.SN_WR_BYTES_LO.o 64).putUnit u bs with
  | (m, true) => (m, true)
  | (m, false) => (m.ueUnit b u, false)

/-! ## Bulk accesses -/

/-- Whether a unit meets one of some ranges. -/
def unitIn (rs : List (Nat × Nat)) (u : Nat) : Bool :=
  rs.any fun r => decide (r.1 < 64 * u + 64) && decide (64 * u < r.1 + r.2)

/-- Bytes of a range of HBM pass between the stacks and the one who accesses them. -/
def Mod.sweep (m : Mod) (b : By) (ctr : Nat) (r : Nat × Nat) : Mod :=
  if r.2 = 0 then m
  else
    let m := ((m.phy true).mside fun s => s.banks fun t => t.sweep r.1 r.2).count ctr r.2
    (if b.die = 3 then m else m.stackProgress r.1 r.2 (fun n => n)).count MEM.SN_FAR_BYTES_LO.o (farBytes b.die r.1 r.2)

/-- Ranges accessed in bulk: copies into slots that they meet end first (R275). -/
def Mod.bulk (m : Mod) (b : By) (ctr : Nat) (rs : List (Nat × Nat)) : Mod :=
  let jobs := m.memside.remaps.filter fun j =>
    (if j.gran = 1 then (placeOf (64 * j.unit)).rowUnits.map (· / 64) else [j.unit]).any (unitIn rs)
  rs.foldl (fun m r => m.sweep b ctr r) (jobs.foldl (fun m j => m.slotFilled j) m)

/-- Ranges written in bulk, whose bytes stand in memory already: their units meet the parity errors of the bus that await them (R267). -/
def Mod.bulkWritten (m : Mod) (b : By) (rs : List (Nat × Nat)) : Mod :=
  let m := m.bulk b MEM.SN_WR_BYTES_LO.o rs
  ((m.memside.bus.map (·.1)).dedup.filter (unitIn rs)).foldl (fun m u =>
    match m.busMeets u with
    | (m, true) => m
    | (m, false) => (m.setUnitErr u [lostUnit]).ueUnit b u) m

/-- One unit written from offset `o` in it: a whole unit, or a merge (R268). The flag is false when the merge met an
uncorrectable unit, which keeps its content. -/
def Mod.writeUnit (m : Mod) (b : By) (u o : Nat) (bs : List Byte) : Mod × Bool :=
  let m := m.awaitSlot u
  if o = 0 ∧ bs.length = 64 then m.sinkUnit b u bs
  else
    let m := m.count MPR.SN_MERGE_LO.o 1
    match m.readUnit b u with
    | (m, none) => (m, false)
    | (m, some old) => m.sinkUnit b u (old.take o ++ bs ++ old.drop (o + bs.length))

/-- `n` bytes from an HBM address, unit by unit; none when a unit is uncorrectable. -/
def Mod.getHbm (m : Mod) (b : By) : Nat → Nat → Nat → Mod × Option (List Byte)
  | 0, _, _ => (m, some [])
  | fuel + 1, a, n =>
    if n = 0 then (m, some [])
    else
      let k := min n (64 - a % 64)
      let (m, r) := m.readUnit b (m.viewed (a - a % 64) / 64)
      let (m, rest) := Mod.getHbm m b fuel (a + k) (n - k)
      match r, rest with
      | some x, some y => (m, some ((x.drop (a % 64)).take k ++ y))
      | _, _ => (m, none)

/-- Bytes written from an HBM address upward, unit by unit; false when a merge met an uncorrectable unit. -/
def Mod.putHbm (m : Mod) (b : By) : Nat → Nat → List Byte → Mod × Bool
  | 0, _, _ => (m, true)
  | fuel + 1, a, bs =>
    if bs.isEmpty then (m, true)
    else
      let k := 64 - a % 64
      let (m, x) := m.writeUnit b (m.viewed (a - a % 64) / 64) (a % 64) (bs.take k)
      let (m, y) := Mod.putHbm m b fuel (a + k) (bs.drop k)
      (m, x && y)

/-! ## Local stores (R159, R160) -/

/-- How many of the 13 bits of a code word are wrong. -/
def popcount (n : Nat) : Nat := ((List.range 13).filter (fun i => n / 2 ^ i % 2 == 1)).length

/-- A local-store byte read: a single-bit error is corrected, rewritten and counted; a double-bit error raises LS_UE and
gives no data; more wrong bits than the code detects are a free choice. -/
def Mod.lsByte (m : Mod) (b : By) (a : Nat) : Mod × Option Byte :=
  let e := tget (fun _ => 0) m.memside.lsErr a
  let c := (a - lsBase) / lsPitch
  let v := tget byte0 m.mem a
  let ue (m : Mod) : Mod × Option Byte :=
    let m := m.charge 0x01 c 0 0 (b.tag.getD 0) ((a - lsBase) % lsPitch)
    let m := m.raiseCORE c 2 [(CORE.EVT_ADDR.OFFSET c, (a - lsBase) % lsPitch)]
    (if b.why = 0 then m.fault b.tag 1 else m, none)
  match popcount e with
  | 0 => (m, some v)
  | 1 => ((m.mside fun s => { s with lsErr := tset (fun _ => 0) s.lsErr a 0 }).count (CORE.SN_LS_CE_LO.o c) 1, some v)
  | 2 => ue m
  | _ =>
    let (m, k) := m.fresh
    if Config.freeBit k then ue m else (m, some (Config.freeByte k))

def Mod.lsBytes (m : Mod) (b : By) (a : Nat) : Nat → Mod × Option (List Byte)
  | 0 => (m, some [])
  | n + 1 =>
    let (m, x) := m.lsByte b a
    let (m, r) := Mod.lsBytes m b (a + 1) n
    match x, r with
    | some x, some r => (m, some (x :: r))
    | _, _ => (m, none)

/-! ## Any memory address -/

/-- A parity error on a datapath (R437): PARITY with the receiving domain, its record, and the fault of the step, which for a descriptor its
DATA status brings. -/
def Mod.parityError (m : Mod) (b : By) (d : Nat) : Mod :=
  let m := m.count TST.SN_PARITY_LO.o 1
  let m := m.charge 0x03 d 0 0 (b.tag.getD 0) 0
  let m := m.raiseTST 5 [(TST.EVT_INFO.UNIT, d)]
  if b.why ≠ 4 ∧ b.tag.isSome then m.fault b.tag 1 else m

/-- Data crosses a datapath into a domain: true when it meets a parity error there. -/
def Mod.crossing (m : Mod) (b : By) (into : Nat → Bool) : Mod × Bool :=
  match m.memside.paths.find? into with
  | none => (m, false)
  | some d => ((m.mside fun s => { s with paths := s.paths.erase d }).parityError b d, true)

/-- The domain that receives a write: the memory side of the stack, or the core of the local store. -/
def storeDomain (a : Nat) : Nat := if a < hbmTop then 128 + stackOf a else (a - lsBase) / lsPitch

/-- Whether an access to a local store goes over a die-to-die link: from the other compute die or the hub die (R16). -/
def crossesDie (b : By) (a : Nat) : Bool := decide (b.die < 3) && (a - lsBase) / lsPitch / 64 != b.die

/-- `n` bytes of HBM or a local store as their store gives them; none when a part of them is uncorrectable. -/
def Mod.fetchBytes (m : Mod) (b : By) (a n : Nat) : Mod × Option (List Byte) :=
  if a < hbmTop then m.getHbm b (n + 1) a n
  else
    let m := m.phy (crossesDie b a)
    if m.memside.lsErr = [] then (m, some (getBytes byte0 m.mem a n))
    else m.lsBytes b a n

/-- `n` bytes read at a module-local address of HBM or a local store; none when a part of them is uncorrectable, or meets a parity error on
the way (R437). -/
def Mod.load (m : Mod) (b : By) (a n : Nat) : Mod × Option (List Byte) :=
  match m.crossing b b.receives with
  | (m, true) => (m, none)
  | (m, false) => m.fetchBytes b a n

/-- Bytes put at a module-local address of HBM or a local store. A local-store write writes data and check bits of
the bytes it names (R159). -/
def Mod.putAt (m : Mod) (b : By) (a : Nat) (bs : List Byte) : Mod × Bool :=
  if a < hbmTop then m.putHbm b (bs.length + 1) a bs
  else
    let m := (m.phy (crossesDie b a)).mside fun s =>
      { s with lsErr := terase (fun k => decide (a ≤ k) && decide (k < a + bs.length)) s.lsErr }
    ({ m with mem := putBytes byte0 m.mem a bs }, true)

/-- Bytes written at a module-local address of HBM or a local store; false, with nothing written, when they meet a parity error on the way
(R437). -/
def Mod.store (m : Mod) (b : By) (a : Nat) (bs : List Byte) : Mod × Bool :=
  match m.crossing b (· == storeDomain a) with
  | (m, true) => (m, false)
  | (m, false) => m.putAt b a bs

/-- A number of `n` bytes read little-endian (R8). -/
def Mod.loadNat (m : Mod) (b : By) (a n : Nat) : Mod × Option Nat :=
  let (m, r) := m.load b a n
  (m, r.map leNat)

/-- A list of ranges read and joined. -/
def Mod.loads (m : Mod) (b : By) : List (Nat × Nat) → Mod × Option (List (List Byte))
  | [] => (m, some [])
  | (a, n) :: rs =>
    let (m, x) := m.load b a n
    let (m, r) := Mod.loads m b rs
    match x, r with
    | some x, some r => (m, some (x :: r))
    | _, _ => (m, none)

/-- A list of ranges written. -/
def Mod.stores (m : Mod) (b : By) : List (Nat × List Byte) → Mod × Bool
  | [] => (m, true)
  | (a, bs) :: rs =>
    let (m, x) := m.store b a bs
    let (m, y) := Mod.stores m b rs
    (m, x && y)

/-- A write that a hub engine or a memory-side engine makes for itself: outside the workspace it is refused and changes nothing (R38, R196;
log entry 97). The flag says whether it was made. -/
def Mod.storeOwn (m : Mod) (b : By) (a : Nat) (bs : List Byte) : Mod × Bool :=
  if m.inWork a bs.length then ((m.store b a bs).1, true) else (m, false)

/-- What a unit other than a DMA engine reads and writes for itself: an access that is refused gives no data, and changes nothing. -/
def Mod.unitLoad (m : Mod) (b : By) (a n : Nat) : Mod × Option (List Byte) := if m.unitReads a n then m.load b a n else (m, none)
def Mod.unitStore (m : Mod) (b : By) (a : Nat) (bs : List Byte) : Mod := if m.unitWrites a bs.length then (m.store b a bs).1 else m

/-- A list of ranges written so; false where one met a parity error on the way (R437) or a merge an uncorrectable unit. -/
def Mod.unitStores (m : Mod) (b : By) : List (Nat × List Byte) → Mod × Bool
  | [] => (m, true)
  | (a, bs) :: rs =>
    let (m, x) := if m.unitWrites a bs.length then m.store b a bs else (m, true)
    let (m, y) := Mod.unitStores m b rs
    (m, x && y)

/-- The bytes of a range as it stands, for engines that read their own region without a fault of its own (views
applied, errors not consulted): used where the manual gives the reader no error. -/
def Mod.peek (m : Mod) (a n : Nat) : List Byte :=
  if a < hbmTop then (List.range n).map fun i => tget byte0 m.mem (m.viewed (a + i)) else getBytes byte0 m.mem a n

/-- A range set to zero without regard to who accesses it. -/
def Mod.zeroRange (m : Mod) (a n : Nat) : Mod :=
  { m with mem := m.mem.filter fun e => !(decide (a ≤ e.1) && decide (e.1 < a + n)) }.mside fun s =>
    { s with hbmErr := terase (fun u => decide (a ≤ 64 * u) && decide (64 * u < a + n)) s.hbmErr
             lsErr := terase (fun k => decide (a ≤ k) && decide (k < a + n)) s.lsErr }

/-- A squash window's elements are written to zero: HBM bytes written (R258, R259), and the lines of the merge buffers that hold them are
empty. -/
def Mod.zeroWindow (m : Mod) (a n : Nat) : Mod :=
  ((m.zeroRange a n).mside fun s => { s with merge := s.merge.filter fun u => !(decide (a ≤ 64 * u) && decide (64 * u < a + n)) }).bulkWritten
    ⟨3, none, 3, 128⟩ [(a, n)]

/-- Upsets that strike while a command runs: symbol errors of units, bit flips of local-store bytes, data-bus parity errors on the
next accesses of units, and a parity error that the next crossing into a domain meets (`Noise`). -/
def Mod.strike (m : Mod) (z : Noise) : Mod :=
  let m := m.mside fun s => { s with paths := s.paths ++ z.parity.toList }
  let m := if z.bus.isEmpty then m else m.mside fun s => { s with bus := s.bus ++ z.bus.map fun e => (m.viewed e.1 / 64, e.2) }
  let m := z.hbm.foldl (fun m e => m.setUnitErr (m.viewed e.1 / 64) ((m.unitErr (m.viewed e.1 / 64)) ++ e.2.filter (· < lostUnit))) m
  z.ls.foldl (fun m e => m.mside fun s =>
    { s with lsErr := tset (fun _ => 0) s.lsErr e.1 (tget (fun _ => 0) s.lsErr e.1 ^^^ e.2) }) m

end Sys2Proof.Machine
end

