-- ==== Sys2Proof/Machine/Packet.lean ====
section
/-! DEFINITION. Osant packets: the header and its units (R300), the types and their INFO fields (R302–R304, R334, R386,
R410), the header checks of R305, and the fields of packets by type. -/

namespace Sys2Proof.Machine

/-- Class codes (R297). -/
def clsCTRL : Nat := 0
def clsREQ : Nat := 1
def clsRSP : Nat := 2
def clsCOLL : Nat := 3
def clsFEN : Nat := 4
def clsSQ : Nat := 5
def clsDUP : Nat := 6
def clsCKPT : Nat := 7

/-- The header of a packet as a number (R300). -/
def hdrNat (p : Pkt) : Nat :=
  p.dest.toNat + 2 ^ 13 * p.src.toNat + 2 ^ 26 * p.gen.toNat + 2 ^ 42 * p.seq.toNat + 2 ^ 66 * p.len.toNat +
  2 ^ 71 * p.cls.toNat + 2 ^ 74 * p.typ.toNat + 2 ^ 78 * p.replay.toNat + 2 ^ 79 * p.marked.toNat + 2 ^ 80 * p.info.toNat

/-- The packet with a header (R300) and payload. -/
def ofHdr (h : Nat) (payload : List Byte) : Pkt where
  dest := BitVec.ofNat 13 h
  src := BitVec.ofNat 13 (h / 2 ^ 13)
  gen := BitVec.ofNat 16 (h / 2 ^ 26)
  seq := BitVec.ofNat 24 (h / 2 ^ 42)
  len := BitVec.ofNat 5 (h / 2 ^ 66)
  cls := BitVec.ofNat 3 (h / 2 ^ 71)
  typ := BitVec.ofNat 4 (h / 2 ^ 74)
  replay := h / 2 ^ 78 % 2 == 1
  marked := h / 2 ^ 79 % 2 == 1
  info := BitVec.ofNat 48 (h / 2 ^ 80)
  payload := payload

/-- The bytes of a packet, header first. -/
def pktBytes (p : Pkt) : List Byte := leBytes 16 (hdrNat p) ++ p.payload

/-- The packet that bytes spell. -/
def pktOfBytes (bs : List Byte) : Pkt := ofHdr (leNat (bs.take 16)) (bs.drop 16)

/-- The units of a packet. -/
def pktUnits (p : Pkt) : List Unit16 :=
  (pieces 16 (1 + p.len.toNat) (pktBytes p)).map fun u => BitVec.ofNat 128 (leNat u)

/-- LEN of a packet and the units it takes. -/
def pktSize (p : Pkt) : Nat := p.len.toNat + 1

/-- A packet of this module with its fields; LEN from the payload. -/
def mkPkt (src dest gen seq cls typ info : Nat) (payload : List Byte) : Pkt where
  dest := BitVec.ofNat 13 dest
  src := BitVec.ofNat 13 src
  gen := BitVec.ofNat 16 gen
  seq := BitVec.ofNat 24 seq
  len := BitVec.ofNat 5 (payload.length / 16)
  cls := BitVec.ofNat 3 cls
  typ := BitVec.ofNat 4 typ
  replay := false
  marked := false
  info := BitVec.ofNat 48 info
  payload := payload

/-- The generation tag, source, class and type as numbers. -/
def tagOf (p : Pkt) : Nat := p.gen.toNat
def srcOf (p : Pkt) : Nat := p.src.toNat
def destOf (p : Pkt) : Nat := p.dest.toNat
def infoOf (p : Pkt) : Nat := p.info.toNat

/-- Payload bytes as a number. -/
def payNat (p : Pkt) (o n : Nat) : Nat := leNat ((p.payload.drop o).take n)

/-- Bytes padded with zeros to whole units. -/
def padUnits (bs : List Byte) : List Byte := bs ++ List.replicate ((16 - bs.length % 16) % 16) 0

/-- Element width of AFMT in a payload (R304), and of its target element (R251). -/
def addWidth (afmt : Nat) : Nat := [4, 2, 4, 8].getD afmt 4
def elemWidth (afmt : Nat) : Nat := if afmt < 2 then 16 else 8

/-- Ranges of LEN by class and type (R302, R334, R386, R410); none where the combination is not allowed. The second
number masks the reserved bits of the type's INFO. -/
def lenRange (cls typ : Nat) : Option (Nat × Nat × Nat) :=
  let all : Nat := 0xFFFFFFFFFFFF
  match cls, typ with
  | 0, 0 => some (0, 0, all)
  | 0, 1 => some (1, 1, all)
  | 0, 2 => some (1, 1, all - 1)
  | 0, 3 => some (1, 1, all)
  | 0, 4 => some (1, 1, all)
  | 0, 5 => some (1, 1, all)
  | 0, 6 => some (1, 1, all - 1)
  | 1, 0 => some (1, 16, 0x800000000000)
  | 1, 1 => some (1, 1, 0x800000000000)
  | 2, 0 => some (0, 0, all - 0xFFFFFF)
  | 2, 1 => some (1, 16, 0)
  | 2, 2 => some (0, 0, all - 0xFFFFFFFF)
  | 3, 0 => some (16, 16, 0)
  | 3, 1 => some (16, 16, 0)
  | 3, 2 => some (1, 16, all - 0xF)
  | 3, 3 => some (1, 1, all - 1)
  | 3, 4 => some (1, 1, all)
  | 3, 5 => some (2, 2, all)
  | 4, 0 => some (16, 16, all)
  | 5, 0 => some (1, 16, 0xC00000000000)
  | 6, 0 => some (2, 2, all)
  | 6, 1 => some (16, 16, 0)
  | 6, 2 => some (3, 3, all)
  | 6, 3 => some (2, 2, all - 0xFFFF)
  | 6, 4 => some (0, 0, 0xFFFFF0000000)
  | 6, 5 => some (2, 16, all)
  | 6, 6 => some (1, 16, 0xFFF000000000)
  | 6, 7 => some (1, 1, all)
  | 6, 8 => some (0, 0, all)
  | 6, 9 => some (0, 0, all)
  | 7, 0 => some (1, 1, 0xFFFF00000000)
  | 7, 1 => some (1, 16, 0x8000)
  | 7, 2 => some (0, 0, 0x8000)
  | 7, 3 => some (0, 0, 0xFFFE00000000)
  | 7, 4 => some (4, 4, 0xFFFF00000000)
  | 7, 5 => some (1, 16, 0x8000)
  | 7, 6 => some (1, 16, 0x8000)
  | _, _ => none

/-- Fields of a WRITE or READ (R303). -/
def ioSpace (i : Nat) : Nat := i % 4

/-- What the ports carry in field-test mode: requests for registers, and answers (R440). -/
def testCarries (p : Pkt) : Bool := (p.cls.toNat == clsREQ && ioSpace (infoOf p) == 2) || p.cls.toNat == clsRSP
def ioUnit (i : Nat) : Nat := bits i 37 2
def ioHead (i : Nat) : Nat := bits i 41 38
def ioTail (i : Nat) : Nat := bits i 45 42
def ioLast (i : Nat) : Bool := i.testBit 46

/-- Byte offset of an access in its space, how many bytes a WRITE writes, and those bytes (R303). -/
def ioOffset (i : Nat) : Nat := 16 * ioUnit i + ioHead i
def ioBytes (p : Pkt) : Nat := 16 * p.len.toNat - ioHead (infoOf p) - ioTail (infoOf p)
def writeBytes (p : Pkt) : List Byte := (p.payload.drop (ioHead (infoOf p))).take (ioBytes p)

/-- Fields of an ADD (R304). -/
def addElem (i : Nat) : Nat := bits i 35 0
def addFmt (i : Nat) : Nat := bits i 37 36
def addCount (i : Nat) : Nat := bits i 44 38 + 1
def addLast (i : Nat) : Bool := i.testBit 45

/-- The INFO of a WRITE or READ. -/
def ioInfo (space unit head tail : Nat) (last : Bool) : Nat :=
  space + 4 * unit + 2 ^ 38 * head + 2 ^ 42 * tail + 2 ^ 46 * last.toNat

/-- The header checks of R305. -/
def pktOk (p : Pkt) : Bool :=
  let i := infoOf p
  let l := p.len.toNat
  match lenRange p.cls.toNat p.typ.toNat with
  | none => false
  | some (lo, hi, res) =>
    decide (lo ≤ l) && decide (l ≤ hi) && decide (i &&& res = 0) && decide (p.payload.length = 16 * l) &&
    (match p.cls.toNat, p.typ.toNat with
     | 1, 0 => ioSpace i != 3 && decide (ioHead i + ioTail i < 16 * l)
     | 1, 1 => ioSpace i != 3
     | 5, 0 => decide (addCount i * addWidth (addFmt i) ≤ 256) &&
         decide (l = (addCount i * addWidth (addFmt i) + 15) / 16)
     | _, _ => true)

end Sys2Proof.Machine
end

