-- ==== Sys2Proof/Machine/Pods.lean ====
section
/-! DEFINITION. The step ledger in memory (R356–R358): its rings of segments of Pods, and the tracker table. The rings and the trackers are
kept as lists, and their bytes are laid out in the step-ledger region as they change (log entry 14). -/

namespace Sys2Proof.Machine

def Mod.ldg (m : Mod) (f : Ledger → Ledger) : Mod := { m with ledger := f m.ledger }

/-- Bytes of a Pod and of a segment (R357, R358). -/
def podBytes (p : Pkt) : Nat := 16 * pktSize p
def Segment.bytes (s : Segment) : Nat := 64 + (s.pods.map podBytes).sum

/-- Bytes a ring uses, and the rings' sizes (R356). -/
def ringUsed (l : List Segment) : Nat := (l.map Segment.bytes).sum
def Mod.inRing (m : Mod) : Nat := m.f LDG.IN_SIZE.UNITS * 0x1000000
def Mod.markedRing (m : Mod) : Nat := m.sizeL - 0x100000 - m.inRing

/-- The header of a segment (R358). -/
def Segment.header (s : Segment) : List Byte :=
  leBytes 6 s.step ++ leBytes 2 s.tag ++ leBytes 8 s.bytes ++ leBytes 4 s.pods.length ++
    leBytes 1 (s.unprot.toNat + 2 * s.copy.toNat + 4 * s.standIn.toNat) ++ leBytes 2 s.ident ++ List.replicate 41 0

/-- Segments with their ring offsets, one after another from that of the first. -/
def placed : Nat → List Segment → List (Nat × Segment)
  | _, [] => []
  | o, s :: rest => (o, s) :: placed (o + s.bytes) rest

/-- The ledger controller. -/
def byLedger : By := ⟨2, none, 3, 144⟩

/-- The place of a ring in memory: its first address and its size (R356). -/
def Mod.ringPlace (m : Mod) (marked : Bool) : Nat × Nat :=
  if marked then (m.regionBase 5 + 0x100000 + m.inRing, m.markedRing) else (m.regionBase 5 + 0x100000, m.inRing)

/-- Pieces of a ring range, which wraps at the ring's end: addresses and lengths. -/
def Mod.ringRanges (m : Mod) (marked : Bool) (o n : Nat) : List (Nat × Nat) :=
  let (base, size) := m.ringPlace marked
  let o := o % max size 1
  if o + n ≤ size then [(base + o, n)] else [(base + o, size - o), (base, n - (size - o))]

/-- Bytes written into a ring. -/
def Mod.ringPut (m : Mod) (marked : Bool) (o : Nat) (bs : List Byte) : Mod :=
  ((m.ringRanges marked o bs.length).foldl (fun (acc : Mod × List Byte) r =>
    ((acc.1.store byLedger r.1 (acc.2.take r.2)).1, acc.2.drop r.2)) (m, bs)).1

/-- Bytes read from a ring; none where a unit is uncorrectable. -/
def Mod.ringGet (m : Mod) (marked : Bool) (o n : Nat) : Mod × Option (List Byte) :=
  let (m, r) := m.loads byLedger (m.ringRanges marked o n)
  (m, r.map List.flatten)

/-- A segment is written where it differs from what the ring held of it: its header and the Pods that it gained, or all of it where it is
new or has moved. -/
def Mod.putSegment (m : Mod) (marked : Bool) (old : Option (Nat × Segment)) (x : Nat × Segment) : Mod :=
  match old with
  | some y =>
    if y = x then m
    else if y.1 = x.1 ∧ y.2.pods.isPrefixOf x.2.pods then
      (m.ringPut marked x.1 x.2.header).ringPut marked (x.1 + y.2.bytes) ((x.2.pods.drop y.2.pods.length).flatMap pktBytes)
    else m.ringPut marked x.1 (x.2.header ++ x.2.pods.flatMap pktBytes)
  | none => m.ringPut marked x.1 (x.2.header ++ x.2.pods.flatMap pktBytes)

/-- A ring takes new segments, of which the first lies at offset `start`. -/
def Mod.setRing (m : Mod) (marked : Bool) (start : Nat) (l : List Segment) : Mod :=
  let old := if marked then placed m.ledger.mBase m.ledger.marked else placed m.ledger.iBase m.ledger.input
  let m := m.ldg fun x => if marked then { x with marked := l, mBase := start } else { x with input := l, iBase := start }
  (placed start l).foldl (fun m x =>
    m.putSegment marked (old.find? fun y => y.2.step == x.2.step && y.2.ident == x.2.ident && y.2.copy == x.2.copy) x) m

/-- A change of the marked ring, and of the input ring, in place. -/
def Mod.onMarked (m : Mod) (f : List Segment → List Segment) : Mod := m.setRing true m.ledger.mBase (f m.ledger.marked)
def Mod.onInput (m : Mod) (f : List Segment → List Segment) : Mod := m.setRing false m.ledger.iBase (f m.ledger.input)

/-! ## The tracker table (R356, R364) -/

/-- A tracker as its 8 bytes of the tracker table hold it. Neither their places nor the places of tag and number in them are stated, and
are free (log entry 14). -/
def Mod.putTracker (m : Mod) (key : Nat) (v : Nat × Nat) : Mod :=
  if m.sizeL < 0x100000 then m
  else (m.store byLedger (m.regionBase 5 + 8 * (Config.trackerPlace key % 0x20000)) (leBytes 8 (Config.trackerCode v.1 v.2))).1

/-- A tracker takes a tag and the next sequence number, which its bytes then hold. -/
def Mod.setTracker (m : Mod) (key tag w : Nat) : Mod :=
  (m.putTracker key (tag, w)).ldg fun l => { l with trackers := tset (fun _ => (0, 0)) l.trackers key (tag, w) }

/-- The trackers whose tag satisfies `p` are reset. -/
def Mod.resetTrackers (m : Mod) (p : Nat → Bool) : Mod :=
  let l := m.ledger.trackers.filter fun e => p e.2.1
  l.foldl (fun m e => m.setTracker e.1 0 0) m

end Sys2Proof.Machine
end

