-- ==== Sys2Proof/Machine/Router.lean ====
section
/-! DEFINITION. Coordinates and slices (R317–R320), the alias table's hole set (R321, R322), route choice (R325), sequence
numbers (R301) and the ways a packet leaves the module. -/

namespace Sys2Proof.Machine

/-! ## Coordinates (R317, R319) -/

/-- Coordinate of an id on axis 0 X, 1 Y, 2 Z. -/
def coord (id a : Nat) : Nat := if a = 0 then id % 32 else if a = 1 then id / 32 % 16 else id / 512

/-- The id at coordinates. -/
def idAt (x y z : Nat) : Nat := x + 32 * y + 512 * z

def Mod.torus (m : Mod) (a : Nat) : Nat :=
  if a = 0 then m.f TOR.TORUS.TX else if a = 1 then m.f TOR.TORUS.TY else m.f TOR.TORUS.TZ
def Mod.origin (m : Mod) (a : Nat) : Nat :=
  if a = 0 then m.f TOR.ORIGIN.X0 else if a = 1 then m.f TOR.ORIGIN.Y0 else m.f TOR.ORIGIN.Z0
def Mod.side (m : Mod) (a : Nat) : Nat :=
  if a = 0 then m.f TOR.SIZE.SX else if a = 1 then m.f TOR.SIZE.SY else m.f TOR.SIZE.SZ

/-- Local coordinate of an id on an axis. -/
def Mod.localAt (m : Mod) (id a : Nat) : Nat := (coord id a + m.torus a - m.origin a) % m.torus a

/-- The id at local coordinates. -/
def Mod.idLocal (m : Mod) (u v w : Nat) : Nat :=
  idAt ((u + m.origin 0) % m.torus 0) ((v + m.origin 1) % m.torus 1) ((w + m.origin 2) % m.torus 2)

/-- Whether an axis is wrapped in the slice. -/
def Mod.wrapped (m : Mod) (a : Nat) : Bool := m.side a == m.torus a

/-- Whether an id lies in the torus and in the slice. -/
def Mod.inSlice (m : Mod) (id : Nat) : Bool :=
  [0, 1, 2].all fun a => decide (coord id a < m.torus a) && decide (m.localAt id a < m.side a)

/-- Slice rank of an id (R319). -/
def Mod.rankOf (m : Mod) (id : Nat) : Nat :=
  m.localAt id 0 + m.side 0 * (m.localAt id 1 + m.side 1 * m.localAt id 2)

/-- Modules of the slice. -/
def Mod.sliceSize (m : Mod) : Nat := m.side 0 * m.side 1 * m.side 2

/-- The id of a slice rank. -/
def Mod.idOfRank (m : Mod) (q : Nat) : Nat :=
  m.idLocal (q % m.side 0) (q / m.side 0 % m.side 1) (q / m.side 0 / m.side 1)

/-- The neighbour that a torus port faces (R318). -/
def Mod.neighbour (m : Mod) (p : Nat) : Nat :=
  let step (a : Nat) (plus : Bool) : Nat :=
    let c := coord m.id a
    if plus then (c + 1) % m.torus a else (c + m.torus a - 1) % m.torus a
  let a := p / 2
  let n := step a (p % 2 == 0)
  idAt (if a = 0 then n else coord m.id 0) (if a = 1 then n else coord m.id 1) (if a = 2 then n else coord m.id 2)

/-! ## Aliases (R321, R322) -/

/-- Valid alias entries: entry, lost id, stand-in id. -/
def Mod.aliases (m : Mod) : List (Nat × Nat × Nat) :=
  (List.range 32).filterMap fun e =>
    if m.is (TOR.AL_ID.VALID e) then some (e, m.f (TOR.AL_ID.LOST e), m.f (TOR.AL_ID.STANDIN e)) else none

/-- The hole set. -/
def Mod.holes (m : Mod) : List Nat := m.aliases.map (·.2.1)

/-- The stand-in of an id, or the id itself: the target of R322. -/
def Mod.targetOf (m : Mod) (id : Nat) : Nat :=
  match m.aliases.find? (·.2.1 == id) with
  | some e => e.2.2
  | none => id

/-- Whether the module takes packets for an id as its own (R322). -/
def Mod.mine (m : Mod) (id : Nat) : Bool := id == m.id || (m.holes.contains id && m.targetOf id == m.id)

/-! ## Ports -/

/-- States of `PORT_STAT` (R315). -/
def pDISABLED : Nat := 0
def pDOWN : Nat := 1
def pTRAINING : Nat := 2
def pUP : Nat := 3
def pFENCED : Nat := 4

def Mod.pstate (m : Mod) (p : Nat) : Nat := m.f (LNK.PORT_STAT.STATE p)
def Mod.peer (m : Mod) (p : Nat) : Nat := m.f (LNK.PORT_STAT.PEER p)
def Mod.peerPort (m : Mod) (p : Nat) : Nat := m.f (LNK.PORT_STAT.PEER_PORT p)

/-- Whether a torus port that is UP has the wrong peer (R318). -/
def Mod.miswired (m : Mod) (p : Nat) : Bool := m.pstate p == pUP && m.peer p != m.neighbour p

/-- Whether a port is absent for routing (R325). -/
def Mod.portAbsent (m : Mod) (p : Nat) : Bool :=
  m.pstate p == pDISABLED || m.pstate p == pFENCED || m.miswired p || ((m.port p).lost && m.pstate p != pUP)

/-- UP torus ports whose both ends lie in the slice (R320, R323). -/
def Mod.slicePorts (m : Mod) : List Nat :=
  (List.range 6).filter fun p =>
    let a := p / 2
    let l := m.localAt m.id a
    m.pstate p == pUP && !m.miswired p && m.inSlice (m.neighbour p) && decide (1 < m.side a) &&
      (m.wrapped a || (if p % 2 = 0 then decide (l + 1 < m.side a) else decide (0 < l)))

/-! ## Route choice (R325) -/

/-- Signed offset on an axis of length `n` from `h` to `t` in local coordinates. -/
def axisOffset (wrapped : Bool) (n h t : Nat) : Int :=
  if wrapped then
    let f := (t + n - h) % n
    if f ≤ n - f then (f : Int) else (f : Int) - n
  else (t : Int) - h

/-- The six orders, in preference. -/
def axisOrders : List (List Nat) := [[0, 1, 2], [0, 2, 1], [1, 0, 2], [1, 2, 0], [2, 0, 1], [2, 1, 0]]

/-- Hops of one axis: the ports taken and ids passed from local position `u`. -/
def Mod.axisHops (m : Mod) (a : Nat) (u : List Nat) (d : Int) : List (Nat × Nat) × List Nat :=
  let n := m.side a
  let p := if 0 < d then 2 * a else 2 * a + 1
  let go := (List.range d.natAbs).foldl (fun (acc : List (Nat × Nat) × List Nat) _ =>
    let c := acc.2.getD a 0
    let c' := if 0 < d then (c + 1) % n else (c + n - 1) % n
    let u' := acc.2.set a c'
    ((p, m.idLocal (u'.getD 0 0) (u'.getD 1 0) (u'.getD 2 0)) :: acc.1, u')) ([], u)
  (go.1.reverse, go.2)

/-- The path of an order: the port of each hop and the id it reaches. -/
def Mod.pathOf (m : Mod) (t : Nat) (order : List Nat) : List (Nat × Nat) :=
  let u := [m.localAt m.id 0, m.localAt m.id 1, m.localAt m.id 2]
  let go := order.foldl (fun (acc : List (Nat × Nat) × List Nat) a =>
    let d := axisOffset (m.wrapped a) (m.side a) (u.getD a 0) (m.localAt t a)
    let r := m.axisHops a acc.2 d
    (acc.1 ++ r.1, r.2)) ([], u)
  go.1

/-- Whether a path meets no hole; an absent port counts as a hole for the first hop only. -/
def Mod.pathClear (m : Mod) (path : List (Nat × Nat)) : Bool :=
  path.all (fun h => !m.holes.contains h.2) && (match path with | [] => true | h :: _ => !m.portAbsent h.1)

/-- The next hop's port, and whether its order is XYZ. -/
def Mod.nextHop (m : Mod) (t : Nat) : Option (Nat × Bool) :=
  match (axisOrders.map fun o => (o, m.pathOf t o)).find? (fun x => m.pathClear x.2) with
  | some (o, h :: _) => some (h.1, o == [0, 1, 2])
  | _ => none

/-! ## Sending -/

/-- A packet waits at a port until it has credit. `came` is the axis it arrived on, none where it is injected here (R326). In field-test
mode the port carries only register accesses (R440). -/
def Mod.toPort (m : Mod) (p : Nat) (pk : Pkt) (came : Option Nat) : Mod :=
  if m.is TST.CFG.MODE && !testCarries pk then m
  else
    let x := m.port p
    m.setPort p { x with ready := x.ready ++ [(pk, came)] }

/-- A packet that no order can route to its target is discarded, counted and raised, a fault of its step (R325, R340, R538). -/
def Mod.routeDrop (m : Mod) (pk : Pkt) : Mod :=
  let m := m.count TOR.SN_DROP_LO.o 1
  let m := m.raiseTOR 3 (m.targetOf (destOf pk)) 0 0
  m.fault (some (tagOf pk)) 4

/-- A packet is routed from this module; `came` is the axis it arrived on. The router forwards only while
`TOR.CFG.ENABLE` is set; until then the packet waits, and it follows packets that wait before it (R327). -/
def Mod.route (m : Mod) (pk : Pkt) (came : Option Nat) : Mod :=
  if m.mine (destOf pk) then { m with router := { m.router with loop := m.router.loop ++ [pk] } }.progress 144
  else if !m.is TOR.CFG.ENABLE || !m.router.held.isEmpty then { m with router := { m.router with held := m.router.held ++ [(pk, came)] } }
  else match m.nextHop (m.targetOf (destOf pk)) with
    | none => m.routeDrop pk
    | some (p, xyz) =>
      let m := if xyz then m else m.count TOR.SN_DETOUR_LO.o 1
      (m.toPort p pk came).progress 144

/-- A packet for another module is passed on, and counted as forwarded unless no order can route it. -/
def Mod.forward (m : Mod) (pk : Pkt) (came : Option Nat) : Mod :=
  let m := if m.is TOR.CFG.ENABLE && (m.nextHop (m.targetOf (destOf pk))).isNone then m else m.count TOR.SN_FWD_LO.o 1
  m.route pk came

/-- Packets that waited for the router. -/
def Mod.routeHeld (m : Mod) : Mod :=
  let l := m.router.held
  l.foldl (fun m e => m.route e.1 e.2) { m with router := { m.router with held := [] } }

/-- The next sequence number of a source identity for a destination, tag and class (R301). -/
def Mod.nextSeqNo (m : Mod) (src dest tag cls : Nat) : Mod × Nat :=
  let k := ((src * 8192 + dest) * 65536 + tag) * 8 + cls
  let n := tget (fun _ => 0) m.router.seqs k
  ({ m with router := { m.router with seqs := tset (fun _ => 0) m.router.seqs k ((n + 1) % 2 ^ 24) } }, n)

/-- A packet of a source identity, numbered. -/
def Mod.numbered (m : Mod) (src dest tag cls typ info : Nat) (payload : List Byte) : Mod × Pkt :=
  let (m, n) := m.nextSeqNo src dest tag cls
  (m, mkPkt src dest tag n cls typ info payload)

/-- A packet of this module sent over the torus. -/
def Mod.sendTo (m : Mod) (dest tag cls typ info : Nat) (payload : List Byte) : Mod :=
  let (m, p) := m.numbered m.id dest tag cls typ info payload
  m.route p none

/-- A packet of this module sent out of a named port, outside the router. -/
def Mod.sendOut (m : Mod) (port dest tag cls typ info : Nat) (payload : List Byte) : Mod :=
  let (m, p) := m.numbered m.id dest tag cls typ info payload
  m.toPort port p none

/-- A DUP packet to the partner: on the partner port, or over the torus while DETOUR is set (R348). -/
def Mod.sendDup (m : Mod) (tag typ info : Nat) (payload : List Byte) : Mod :=
  if m.is DUP.ROLE.DETOUR then m.sendTo m.dup.peerId tag clsDUP typ info payload
  else m.sendOut m.pport m.dup.peerId tag clsDUP typ info payload

/-- A broadcast of ALIAS or FAULT: sent on every UP torus port of the slice except `but`, the port it came in on (R323). -/
def Mod.broadcast (m : Mod) (pk : Pkt) (but : Option Nat) : Mod :=
  let came := but.bind fun p => if p < 6 then some (p / 2) else none
  (m.slicePorts.filter fun p => but != some p).foldl (fun m p => m.toPort p pk came) m

end Sys2Proof.Machine
end

