-- ==== Sys2Proof/Machine/Ring.lean ====
section
/-! DEFINITION. Descriptor headers (R164, R165, R169) and the taking of descriptors from a queue's ring (R163). -/

namespace Sys2Proof.Machine

/-- Field of a little-endian descriptor: `n` bytes at offset `o`. -/
def dfield (bs : List Byte) (o n : Nat) : Nat := leNat ((bs.drop o).take n)

/-- Bits [hi:lo] of the 32-bit word at byte `o`. -/
def dbits (bs : List Byte) (o hi lo : Nat) : Nat := bits (dfield bs o 4) hi lo

def hOpcode (bs : List Byte) : Nat := dbits bs 0 7 0
def hLen (bs : List Byte) : Nat := dbits bs 0 15 8
def hCtx (bs : List Byte) : Nat := dbits bs 0 19 16
def hFence (bs : List Byte) : Bool := dbits bs 0 20 20 == 1
def hWaitEn (bs : List Byte) : Bool := dbits bs 0 21 21 == 1
def hWaitQ (bs : List Byte) : Nat := dbits bs 0 23 22
def hIrq (bs : List Byte) : Bool := dbits bs 0 24 24 == 1
def hWaitSeq (bs : List Byte) : Nat := dbits bs 4 15 0
def hTag (bs : List Byte) : Nat := dbits bs 4 31 16

/-- Whether LEN fits the opcode (R165); any of the four lengths of an array pass is taken. -/
def lenOk (opcode len : Nat) : Bool :=
  if opcode = 0x10 then len == 3 || len == 5 || len == 9 || len == 17
  else if opcode = 0x00 ∨ opcode = 0x03 then len == 1
  else if opcode = 0x01 ∨ opcode = 0x02 then len == 2
  else if opcode = 0x20 then len == 3
  else if opcode = 0x21 ∨ opcode = 0x22 ∨ opcode = 0x23 then len == 4
  else if 0x30 ≤ opcode ∧ opcode ≤ 0x34 then len == 4
  else if 0x40 ≤ opcode ∧ opcode ≤ 0x43 then len == 8
  else false

/-- Whether a header keeps R164 and R165. -/
def headerOk (bs : List Byte) : Bool :=
  lenOk (hOpcode bs) (hLen bs) && dbits bs 0 31 25 == 0 && (hWaitEn bs || hWaitSeq bs == 0)

/-- The engine an opcode runs on: 0 control, 1 array, 2 DMA, 3 vector, 4 Fennel (R165). -/
def engineOf (opcode : Nat) : Nat :=
  if opcode < 0x10 then 0 else if opcode = 0x10 then 1 else if opcode < 0x30 then 2 else if opcode < 0x40 then 3 else 4

/-- Completion status codes (R169). -/
def sOK : Nat := 0
def sQ_FIELD : Nat := 1
def sCTX_CLOSED : Nat := 2
def sCTX_ABORT : Nat := 3
def sQ_RANGE : Nat := 4
def sQ_DATA : Nat := 5

/-- DATA statuses, FEN_GROUP and FEN_PROTO are faults of the step (R538): the reason code of a status, if it is one. -/
def faultReason (status : Nat) : Option Nat :=
  if status = 5 ∨ status = 0x26 ∨ status = 0x35 ∨ status = 0x44 ∨ status = 0x52 then some 1
  else if status = 0x33 ∨ status = 0x34 then some 2 else none

/-! ## Queue state -/

def Mod.halted (m : Mod) (n q : Nat) : Bool := m.is (CORE.Q_STAT.HALTED n q)
def Mod.enabled (m : Mod) (n q : Nat) : Bool := m.is (CORE.Q_CTL.ENABLE n q)

/-- Whether a descriptor's work has ended, or its header or bytes were refused. -/
def Desc.ended (d : Desc) : Bool := decide (2 ≤ d.phase)

/-! ## Taking descriptors from the ring (R163) -/

def Mod.ringBase (m : Mod) (n q : Nat) : Nat := m.pair48 (CORE.Q_BASE_LO.o n q) (CORE.Q_BASE_HI.o n q)
def Mod.ringSize (m : Mod) (n q : Nat) : Nat := m.f (CORE.Q_SIZE.UNITS n q)

/-- Whether a queue works now: not halted, and not stopped by a rewind that waits. Descriptors that a queue has taken run to completion
though `ENABLE` is cleared (R193). -/
def Mod.works (m : Mod) (n q : Nat) : Bool :=
  !m.halted n q && m.steps.rerun.isNone && !m.is TST.CFG.MODE && !m.quiesced n

/-- A descriptor that has ended with a status that will halt its queue. -/
def Desc.fails (d : Desc) : Bool := d.ended && d.status != 0

/-- Whether a queue takes descriptors now: it is enabled and works, and no descriptor it holds will halt it. -/
def Mod.taking (m : Mod) (n q : Nat) : Bool := m.enabled n q && m.works n q && !(m.queue n q).taken.any Desc.fails

/-- The descriptors of a queue that a halt to come does not stop: those before the first that fails (R170). -/
def Queue.live (x : Queue) : List Desc := x.taken.takeWhile fun d => !d.fails

/-- Bytes of `k` units of a ring from unit `u`; none where the queue may not read them (R31, R38, R196; log entry 97). -/
def Mod.ringRead (m : Mod) (n q u k : Nat) (tag : Nat) : Mod × Option (List Byte) :=
  let base := m.ringBase n q
  let size := m.ringSize n q
  let first := min k (size - u)
  let rs := (base + 64 * u, 64 * first) :: (if first < k then [(base, 64 * (k - first))] else [])
  if !(rs.all fun r => m.unitReads r.1 r.2) then (m, none)
  else
    let (m, r) := m.loads (By.core n tag) rs
    (m, r.map List.flatten)

/-- Units between two ring offsets. -/
def ringDist (size a b : Nat) : Nat := (b + size - a) % size

/-- The queue reads the header at its next unit, as soon as `Q_TAIL` covers it, and takes the descriptor once every unit of
it is covered (R163). -/
def Mod.takeOne (m : Mod) (n q : Nat) : Mod :=
  let x := m.queue n q
  let size := m.ringSize n q
  let tail := m.f (CORE.Q_TAIL.OFFSET n q)
  let g := m.f (CORE.Q_STAT.GEN n q)
  let avail := ringDist (max size 1) x.next tail
  let put (m : Mod) (units : Nat) (bytes : List Byte) (phase status : Nat) : Mod :=
    let num := (x.num + 1) % 2 ^ 32
    let d : Desc := ⟨num, x.next, units, bytes, g, 0, phase, status, false, 0, false⟩
    m.setQueue n q { x with taken := x.taken ++ [d], next := (x.next + units) % (max size 1), num := num }
  if !m.taking n q || avail == 0 then m
  else
    match m.ringRead n q x.next 1 g with
    | (m, none) => put m 1 [] 3 sQ_DATA
    | (m, some h) =>
      if !headerOk h then put m 1 h 3 sQ_FIELD
      else
        let units := (hLen h + 3) / 4
        if avail < units then m
        else
          match m.ringRead n q x.next units g with
          | (m, none) => put m units h 3 sQ_DATA
          | (m, some bs) => put m units (bs.take (16 * hLen h)) 0 0

/-- Every descriptor that `Q_TAIL` covers is taken. -/
def Mod.take (m : Mod) (n q : Nat) : Mod :=
  (List.range (ringDist (max (m.ringSize n q) 1) (m.queue n q).next (m.f (CORE.Q_TAIL.OFFSET n q)))).foldl
    (fun m _ => m.takeOne n q) m

/-! ## Requests to the memory side and the hub that stand over commands (R176) -/

/-- The outstanding count falls by `k`, which is progress of the core (R176, R415). -/
def Mod.ctxFalls (m : Mod) (n c k : Nat) : Mod :=
  (m.set (CORE.CTX_OUT.COUNT n c) (m.f (CORE.CTX_OUT.COUNT n c) - k)).progress n

/-- A descriptor's request to Fennel or to the squash adders leaves the core and stands: the outstanding count of its context rises. -/
def Mod.hubTaken (m : Mod) (n : Nat) (d : Desc) : Mod :=
  m.set (CORE.CTX_OUT.COUNT n (hCtx d.bytes)) (m.f (CORE.CTX_OUT.COUNT n (hCtx d.bytes)) + 1)

/-- Such a request of a queue's descriptor is answered or given up: its context's count falls, unless the context has another instance. -/
def Mod.hubDone (m : Mod) (n q num : Nat) : Mod :=
  match (m.queue n q).taken.find? (·.num == num) with
  | some d => if d.inst = m.f (CORE.CTX_STAT.INSTANCE n (hCtx d.bytes)) then m.ctxFalls n (hCtx d.bytes) 1 else m
  | none => m

/-! ## Starting (R166) -/

/-- Every queue takes what its ring holds. -/
def Mod.takeAll (m : Mod) : Mod := (List.range 512).foldl (fun m i => m.take (i / 4) (i % 4)) m

end Sys2Proof.Machine
end

