-- ==== Sys2Proof/Machine/StepState.lean ====
section
/-! DEFINITION. Steps, attempts and generation tags (R352, R353), what is discarded when a step's results are (R23),
rewinds (R354), and the faults of a step (R538). -/

namespace Sys2Proof.Machine

def Mod.stepsOf (m : Mod) (f : Steps → Steps) : Mod := { m with steps := f m.steps }

/-! ## Kinds of internal collectives -/

/-- Vote 1: verdict bits [7:0] and charge mask (R224). -/
def kVote1 : Nat := 0
/-- Vote 2: verdict bits [15:8] (R227). -/
def kVote2 : Nat := 1
/-- The start word of a step boundary (R394). -/
def kStart : Nat := 2
/-- The commit vote of a checkpoint (R396). -/
def kCommit : Nat := 3
/-- The numbers held in valid generations, and what a module has of a candidate (R404). -/
def kCand : Nat := 4
def kRound : Nat := 5
/-- The loss word (R215). -/
def kLoss : Nat := 6
/-- The count vector and signature of a DISPATCH (R146). -/
def kScan : Nat := 7

/-- Kinds whose contributions belong to an attempt of a step, and fall with its results (R23). -/
def ofStep (kind : Nat) : Bool := kind == kVote1 || kind == kVote2 || kind == kLoss || kind == kScan

/-- The kind that an operation code stands for. -/
def smallKind (op : Nat) : Nat := ((List.range 8).find? fun k => (Config.smallCode k).toNat == op).getD 8

/-- Contributions of the kinds and tags that satisfy `p` are forgotten. -/
def Mod.dropSmalls (m : Mod) (p : Nat → Nat → Bool) : Mod :=
  let own := m.coll.own.filter fun c => !p c.kind c.tag
  { m with coll := { m.coll with
    own := own
    smalls := m.coll.smalls.filter fun e => !p (smallKind e.1) e.2.2.1
    relayed := m.coll.relayed.filter fun r => own.any fun c => c.kind == r.1 && c.inst == r.2.1 } }

/-! ## Tags (R352, R353) -/

/-- The attempt number of a step. -/
def Mod.attempt (m : Mod) (k : Nat) : Nat := tget (fun _ => 0) m.steps.attempts k

/-- The generation tag of the current attempt at step `k` (R352). -/
def Mod.tagFor (m : Mod) (k : Nat) : Nat := k % 4096 * 16 + m.attempt k

/-- The step that a tag names: the one congruent to it that lies nearest the oldest unchecked step (R352). -/
def Mod.tagStep (m : Mod) (g : Nat) : Nat :=
  let b := m.steps.oldest
  let d := (g / 16 % 4096 + 4096 - b % 4096) % 4096
  if d < 2048 ∨ b + d < 4096 then b + d else b + d - 4096

/-- Whether a tag names the current attempt of a step that is not released: a live attempt (R256, R364). -/
def Mod.tagCurrent (m : Mod) (g : Nat) : Bool :=
  let k := m.tagStep g
  decide (m.steps.released ≤ k) && g % 16 == m.attempt k

/-- Whether a tag names a step that is not released and, if the step is unchecked, its current attempt (R353). -/
def Mod.tagLive (m : Mod) (g : Nat) : Bool :=
  let k := m.tagStep g
  if k < m.steps.oldest then decide (m.steps.released ≤ k) else g % 16 == m.attempt k

/-- The module's current step, its Vine step counter (R339; log entry 12). -/
def Mod.curStep (m : Mod) : Nat := m.vine.step

/-- Step `k` begins or is opened: its tag is open, and a fault charged to the next step to begin is charged to it. -/
def Mod.openStep (m : Mod) (k : Nat) : Mod :=
  let g := m.tagFor k
  let m := m.stepsOf fun s => { s with
    begun := if s.begun.contains k ∨ k < s.oldest then s.begun else s.begun ++ [k]
    tags := if s.tags.contains g then s.tags else s.tags ++ [g]
    closed := s.closed.filter (· != g)
    dropAll := false }
  match m.steps.nextFault with
  | some r => (m.stepsOf fun s => { s with nextFault := none }).fault (some g) r
  | none => m

/-- The current step is opened by enabling a queue or the collectives, unless its tag is one that warm recovery closed: that is no new
step (R424; log entry 54). -/
def Mod.openCurrent (m : Mod) : Mod :=
  if m.steps.closed.contains (m.tagFor m.curStep) then m else m.openStep m.curStep

/-- Local step of R339: one more than the last step whose stage 6 has begun. -/
def Mod.localStep (m : Mod) : Nat :=
  m.steps.six.foldl (fun a k => max a (k + 1)) m.steps.oldest

/-- Whether stage 6 of a step has begun or the step is checked. -/
def Mod.sixBegun (m : Mod) (k : Nat) : Bool := decide (k < m.steps.oldest) || m.steps.six.contains k

/-! ## Discarding results (R23, R199, R221, R258) -/

/-- A step-tagged window is written to zero and set FREE (R258). -/
def Mod.freeWindow (m : Mod) (w : Nat) : Mod :=
  (m.zeroWindow (m.winBase w) (m.winSize w)).wr (MEM.WIN_STAT.o w) 0

/-- Step-tagged OPEN windows whose tag names a step that satisfies `p`. -/
def Mod.openWindows (m : Mod) (p : Nat → Bool) : List Nat :=
  (List.range 16).filter fun w =>
    m.is (MEM.WIN_ATTR.VALID w) && m.is (MEM.WIN_ATTR.STEPTAG w) && m.is (MEM.WIN_STAT.OPEN w) &&
      p (m.tagStep (m.f (MEM.WIN_STAT.TAG w)))

/-- Step-tagged windows of the steps that satisfy `p` are cleared. -/
def Mod.clearWindows (m : Mod) (p : Nat → Bool) : Mod := (m.openWindows p).foldl Mod.freeWindow m

/-- The health bank of a step, and the module with it set (R221). -/
def Mod.bank (m : Mod) (b : Nat) : Bank := if b % 2 = 0 then m.health.bank0 else m.health.bank1
def Mod.setBank (m : Mod) (b : Nat) (x : Bank) : Mod :=
  { m with health := if b % 2 = 0 then { m.health with bank0 := x } else { m.health with bank1 := x } }

/-- The bank of a discarded step is cleared. -/
def Mod.clearBanks (m : Mod) (j : Nat) : Mod :=
  [0, 1].foldl (fun m b => match (m.bank b).step with
    | some k => if j ≤ k then m.setBank b Bank.empty else m
    | none => m) m

/-- Stage 6 ends without a result. -/
def Mod.stopSix (m : Mod) : Mod :=
  { m with upd := { m.upd with running := false, latched := false, vote1 := 0, vote2 := 0, allowed := false, ownDone := false, mirDone := false,
                               word := 0, listBad := none, lossBad := false } }.set UPD.STAT.PHASE 0 |>.set HLT.STAT.VOTING 0

/-- The results of step `j` and of every later step are discarded (R23): Stalk granules become EMPTY (R199), step-tagged
windows are cleared (R258), health banks too (R221), and stage 6, votes, Fennel operations, collectives packets and digests
of those steps are forgotten. -/
def Mod.discard (m : Mod) (j : Nat) : Mod :=
  let m := { m with stalk := [] }
  let m := m.clearWindows (fun k => decide (j ≤ k))
  let m := m.clearBanks j
  let m := if m.upd.running && decide (j ≤ m.upd.step) then m.stopSix else m
  let m := { m with upd := { m.upd with shards := m.upd.shards.filter fun e => decide (e.1 < j) } }
  let keep (g : Nat) : Bool := decide (m.tagStep g < j)
  let m := (m.fen.ops.filter fun o => !keep o.tag).foldl (fun m o => m.hubDone o.core o.q o.num) m
  let m := { m with fen := { m.fen with
    ops := m.fen.ops.filter fun o => keep o.tag
    early := m.fen.early.filter fun e => keep (tagOf e.2)
    done := m.fen.done.filter fun e => decide (e.1 < j) } }
  let m := { m with coll := { m.coll with early := m.coll.early.filter fun e => keep (tagOf e.2) } }
  let m := m.dropSmalls fun kind g => ofStep kind && !keep g
  let m := { m with dup := { m.dup with digests := m.dup.digests.filter fun d => decide (d.step < j) } }
  m.stepsOf fun s => { s with
    begun := s.begun.filter (· < j), six := s.six.filter (· < j), submitted := s.submitted.filter (· < j),
    held := s.held.filter (· < j), healthOk := s.healthOk.filter (· < j) }

/-! ## Rewinds (R354) -/

/-- Requests of a queue that still wait for a reply: a rewind ends them, and their contexts no longer count them. A reply that still
comes is late (R176). -/
def Mod.dropReqs (m : Mod) (n q : Nat) : Mod :=
  let mine (r : Req) : Bool := r.core == n && r.q == q && !r.dead
  let m := (m.reqs.filter fun r => mine r && r.kind != 3).foldl (fun m r =>
    m.set (CORE.CTX_OUT.COUNT n r.ctx) (m.f (CORE.CTX_OUT.COUNT n r.ctx) - 1)) m
  { m with
    reqs := (m.reqs.filter fun r => !(mine r && r.kind == 3)).map fun r => if mine r then { r with dead := true } else r
    heldWrites := m.heldWrites.filter fun h => !(h.core == n && h.q == q) }

/-- Bytes written into a ring of `size` units at `base` from unit `u`, wrapping (R163). -/
def ringPieces (base size u : Nat) (bs : List Byte) : List (Nat × List Byte) :=
  let k := 64 * (size - u)
  if bs.length ≤ k then [(base + 64 * u, bs)] else [(base + 64 * u, bs.take k), (base, bs.drop k)]

/-- A core event (R191). -/
def Mod.qHalt (m : Mod) (n q status : Nat) : Mod :=
  m.raiseCORE n 1 [(CORE.EVT_INFO.QUEUE n, q), (CORE.EVT_INFO.STATUS n, status)]

/-- One queue rewound by its entry of the rewind table (R354). `done` is the `Q_DONE` it takes. An image that cannot be
read is an invalid entry (log entry 29). -/
def Mod.rewindQueue (m : Mod) (n q r : Nat) (ent : List Byte) (same : Bool) : Mod :=
  let qu := m.queue n q
  let m := m.dropReqs n q
  let done := if same then (match qu.marks.find? (·.1 == r) with | some e => e.2 | none => 0) else 0
  let img := leNat (ent.take 8) % 2 ^ 48
  let units := leNat ((ent.drop 8).take 4) % 2 ^ 18
  let valid := (leNat ((ent.drop 12).take 1)) % 2 == 1
  let off (m : Mod) : Mod :=
    (m.set (CORE.Q_CTL.ENABLE n q) 0).setQueue n q { qu with taken := [] }
  if !valid then off m
  else if units = 0 ∨ m.ringSize n q < units + 1 then
    ((off m).set (CORE.Q_STAT.STATUS n q) 4).qHalt n q 4
  else
    match m.unitLoad ⟨2, none, 3, 144⟩ img (64 * units) with
    | (m, none) => off m
    | (m, some bs) =>
      let m := (ringPieces (m.ringBase n q) (m.ringSize n q) 0 bs).foldl (fun m p => m.unitStore ⟨2, none, 3, 144⟩ p.1 p.2) m
      let m := m.sets [(CORE.Q_HEAD.OFFSET n q, 0), (CORE.Q_TAIL.OFFSET n q, units), (CORE.Q_CTL.ENABLE n q, 1)]
      let m := m.wr (CORE.Q_STAT.o n q) (BitVec.ofNat 32 (0x10000 * m.tagFor r))
      let m := m.wr (CORE.Q_DONE.o n q) (BitVec.ofNat 32 done)
      m.setQueue n q { taken := [], next := 0, num := done, marks := if same then qu.marks else [] }

/-- Whether the SOLO table and program serve step `k`: on a stand-in, before the step from which a swap holds (R368, R379). -/
def Mod.soloAt (m : Mod) (k : Nat) : Bool := m.dup.solo && (match m.dup.swapAt with | some b => decide (k < b) | none => true)

/-- The rewind table in force for step `k` (R354, R368). -/
def Mod.rewindTable (m : Mod) (k : Nat) : Nat :=
  if m.soloAt k then m.pair48 DUP.SOLO_TBL_LO.o DUP.SOLO_TBL_HI.o else m.pair48 DUP.RW_TBL_LO.o DUP.RW_TBL_HI.o

/-- The identities this module runs: its own, as a stand-in the lost one (R372), and after a swap the one it took (R379). -/
def Mod.idents (m : Mod) : List Nat := m.id :: (m.dup.lostId.toList ++ m.dup.swapFor.toList)

/-- A rewind truncates the marked segments of step `r` and later (R363) and resets the trackers of step `r` (R364). -/
def Mod.rewindLedger (m : Mod) (r : Nat) : Mod :=
  (m.setRing true m.ledger.mBase (m.ledger.marked.filter fun s => decide (s.step < r) || s.copy)).resetTrackers
    fun g => decide (r ≤ m.tagStep g)

/-- The collectives engine restarts at entry 0 of the iteration for step `r` (R354). -/
def Mod.rewindColl (m : Mod) (r : Nat) (same : Bool) : Mod :=
  if !m.is TOR.COLL_CTL.ENABLE then m
  else
    let done := if same then (match m.coll.marks.find? (·.1 == r) with | some e => e.2 | none => 0) else 0
    let m := { m with coll := { m.coll with
      iter := r - m.coll.base, started := false, phase := 0, data := [], got := 0, gathered := [], partnerAck := 0, counted := 0,
      tag := m.tagFor r, marks := if same then m.coll.marks else [] } }
    (m.wr TOR.COLL_STAT.o 0).wr TOR.COLL_DONE.o (BitVec.ofNat 32 done)

/-- Sequence numbers of step `r` and later start again from 0 (R301, R352). -/
def Mod.rewindSeqs (m : Mod) (r : Nat) : Mod :=
  { m with router := { m.router with
    seqs := m.router.seqs.filter fun e => decide (m.tagStep (e.1 / 8 % 65536) < r) } }

/-- Array work is dropped with the descriptors that asked for it. -/
def Mod.dropPasses (m : Mod) : Mod :=
  { m with arrs := m.arrs.filterMap fun e =>
      if e.2.acc = [] ∧ e.2.held = [] ∧ e.2.activity = 0 then none else some (e.1, { e.2 with passes := [] }) }

/-- Waiting adds of the module's own descriptors are given up. -/
def Mod.dropAdds (m : Mod) : Mod :=
  let m := (m.memside.waitAdds.filter (·.remote.isNone)).foldl (fun m a =>
    match (m.queue a.core a.q).taken.find? (·.wait == 2) with
    | some d => m.hubDone a.core a.q d.num
    | none => m) m
  { m with memside := { m.memside with waitAdds := m.memside.waitAdds.filter fun a => a.remote.isSome } }

/-- Whether a descriptor's work runs to its end before a rewind (R354; log entry 19): an array pass, a vector operation, or a DMA
descriptor other than a scatter-add, which has started and waits for no add, room, word or reply from outside. -/
def Desc.runs (d : Desc) : Bool :=
  let op := hOpcode d.bytes
  d.phase == 1 && decide (d.wait < 2) && (!d.issued || op == 0x10) && decide (0x10 ≤ op) && decide (op < 0x40) && op != 0x23

/-- Whether a started DMA copy waits for replies that can still come: their tags are current, and no module that owes one is lost. It too
runs to its end before a rewind (R354; log entry 19). -/
def Mod.awaitsReply (m : Mod) (n q : Nat) (d : Desc) : Bool :=
  let l := m.reqs.filter fun r => r.core == n && r.q == q && r.num == d.num && !r.dead
  d.issued && decide (0x20 ≤ hOpcode d.bytes) && decide (hOpcode d.bytes < 0x23) && !l.isEmpty &&
    l.all fun r => m.tagCurrent r.tag && !m.holes.contains r.dest

/-- Whether work that has started still has to run to its end before a rewind. -/
def Mod.startedWork (m : Mod) : Bool :=
  m.queues.any fun e => e.2.taken.any fun d =>
    (d.runs || m.awaitsReply (e.1 / 4) (e.1 % 4) d) && !(engineOf (hOpcode d.bytes) == 2 && m.memside.waitAdds.any fun a => a.remote.isNone && a.core == e.1 / 4)

/-- What such work left in the Stalk is discarded with the results of step `r` (R199, R354). -/
def Mod.discardLate (m : Mod) (r : Nat) : Mod := { m with stalk := m.stalk.filter fun g => decide (m.tagStep (g.2 - 1) < r) }

/-- The rewind to step `r` by the table at `base` (R354); the queues then take the images copied into their rings. It is a rewind onto
the same table only where `same` says so and the last one was not by the other of the two tables. -/
def Mod.rewindFrom (m : Mod) (r base : Nat) (same : Bool) : Mod :=
  let same := same && m.steps.soloTable == m.soloAt r
  let m := m.stepsOf fun s => { s with soloTable := m.soloAt r }
  let m := m.discardLate r
  let m := (m.rewindLedger r).rewindSeqs r
  let m := m.dropPasses
  let m := m.dropAdds
  let (m, tbl) := m.unitLoad ⟨2, none, 3, 144⟩ base (512 * 16)
  let tbl := tbl.getD []
  let m := (List.range 512).foldl (fun m i =>
    m.rewindQueue (i / 4) (i % 4) r ((tbl.drop (16 * i)).take 16) same) m
  (((m.rewindColl r same).openStep r).stepsOf fun s => { s with rerun := none }).takeAll

/-- Whether a rewind waits: for actions of R271 that a fault caused (R272, R538), or for work that has started (R354). -/
def Mod.rewindWaits (m : Mod) : Bool := m.memside.fetches.any (·.fault) || m.startedWork

/-- The rewind to step `r` on the table in force, which is the table in force before it when `same`; until it may begin, no queue takes
or starts a descriptor. One that takes the place of a rewind onto another table, which has not begun, is onto that table too. -/
def Mod.rewindTo (m : Mod) (r : Nat) (same : Bool) : Mod :=
  let same := same && !(m.steps.rerun.any fun x => !x.2)
  if m.rewindWaits then m.stepsOf fun s => { s with rerun := some (r, same) }
  else m.rewindFrom r (m.rewindTable r) same

/-- The rewind to step `r` on the same table. -/
def Mod.rewind (m : Mod) (r : Nat) : Mod := m.rewindTo r true

/-- A rewind that waited goes on once nothing holds it. -/
def Mod.rewindDue (m : Mod) : Mod :=
  match m.steps.rerun with
  | none => m
  | some (r, same) => if m.rewindWaits then m else m.rewindFrom r (m.rewindTable r) same

/-! ## Holding a step FAILED (R228) and raising its attempt (R352) -/

/-- Step `k` is held FAILED: unchecked, with no stage 6 after it and no replay of its own. -/
def Mod.holdFailed (m : Mod) (k cause : Nat) : Mod := m.stepsOf fun s => { s with failed := some (k, cause) }

/-- The attempt of step `k` rises by one. -/
def Mod.nextAttempt (m : Mod) (k : Nat) : Mod :=
  m.stepsOf fun s => { s with attempts := tset (fun _ => 0) s.attempts k (m.attempt k + 1) }

/-! ## Faults (R538) -/

/-- What a fault is charged to: `none`, nothing, since its tag names an attempt no longer current; `some none`, the next
step to begin; `some (some j)`, step `j`. -/
def Mod.faultTarget (m : Mod) (tag : Option Nat) : Option (Option Nat) :=
  let open_ := if m.steps.begun.contains m.steps.oldest then m.steps.begun else m.steps.oldest :: m.steps.begun
  let oldestOpen : Option Nat := (open_.filter fun k => !m.steps.submitted.contains k).foldl
    (fun a k => match a with | none => some k | some b => some (min b k)) none
  match tag with
  | none => some oldestOpen
  | some g =>
    let k := m.tagStep g
    if k < m.steps.oldest ∨ m.steps.submitted.contains k then some oldestOpen
    else if g % 16 = m.attempt k then some (some k) else none

/-- The FAULT packet of R538 for step `j`. -/
def Mod.faultPacket (m : Mod) (j reason : Nat) : Mod × Pkt :=
  let g := m.tagFor j
  m.numbered m.id 0 g clsCTRL 6 1 (leBytes 6 j ++ leBytes 2 g ++ leBytes 2 m.id ++ leBytes 1 reason ++ List.replicate 5 0)

/-- The fault replay of step `j` (R538): results discarded, the attempt raised, the module rewound, FAULT_REPLAY raised; at
attempt 15 the step is FAILED and held, and FAULT_HELD is raised with reason 7. -/
def Mod.faultReplay (m : Mod) (j reason : Nat) : Mod :=
  if m.attempt j = 15 then
    ((m.discard j).holdFailed j 4).raiseDUP 13 0 7 j
  else
    (((m.discard j).nextAttempt j).rewind j).raiseDUP 12 0 reason j

/-- A fault charged by this module: the first one of an attempt is broadcast and replayed; a step already held FAILED is not
replayed again. -/
def Mod.chargeFault (m : Mod) (tag : Option Nat) (reason : Nat) : Mod :=
  match m.faultTarget tag with
  | none => m
  | some none => m.stepsOf fun s => { s with nextFault := some reason }
  | some (some j) =>
    if m.steps.failed.any (·.1 == j) then m
    else
      let (m, p) := m.faultPacket j reason
      (m.broadcast p none).faultReplay j reason

/-- The faults noted so far are charged, each step at most once: the first raises the attempt, and the others name the
attempt before it. A fault without a tag takes the tag of the step it is charged to. -/
def Mod.chargeOnce (m : Mod) : Mod :=
  let l := m.steps.todo.map fun e => match m.faultTarget e.1 with
    | some (some j) => (some (m.tagFor j), e.2)
    | _ => e
  l.foldl (fun m e => m.chargeFault e.1 e.2) (m.stepsOf fun s => { s with todo := [] })

/-- The faults met while a command ran are charged; a second round takes those that the first brought up. -/
def Mod.chargeFaults (m : Mod) : Mod :=
  if m.steps.todo.isEmpty then m
  else m.chargeOnce.chargeOnce.stepsOf fun s => { s with todo := [] }

end Sys2Proof.Machine
end

