-- ==== Sys2Proof/Machine/Region.lean ====
section
/-! DEFINITION. Bulk work of the memory-side engines: reads of ranges with their check codes (R263, R270), copies within HBM, the
checkpoint's copy of the own training state (R26, R397) and the state digest of a region (R213). -/

namespace Sys2Proof.Machine

/-- Ranges read in bulk: their units in error, or with an error of the bus before them, are decoded, corrected ones counted, uncorrectable
ones raised. The table is the memory as the reader sees it, miscorrected units with the bytes the decoder gave; false when a unit is
uncorrectable. -/
def Mod.see (m : Mod) (b : By) (rs : List (Nat × Nat)) : Mod × Tbl Byte × Bool :=
  let (m, hit) := m.crossing b b.receives
  let m := m.bulk b MEM.SN_RD_BYTES_LO.o rs
  let us := ((m.memside.hbmErr.map (·.1) ++ m.memside.bus.map (·.1)).dedup).filter (unitIn rs)
  let r := us.foldl (fun (acc : Mod × List (Nat × List Byte) × Bool) u =>
    let m := acc.1
    let wild := m.outcome u == 3
    match (m.awaitSlot u).senseUnit u with
    | (m, some bs, c) =>
      (if c then m.corrected u bs else m, if wild then acc.2.1 ++ [(u, bs)] else acc.2.1, acc.2.2)
    | (m, none, _) => (m.ueUnit b u, acc.2.1, false)) (m, [], !hit)
  (r.1, r.2.1.foldl (fun t e => putBytes byte0 t (64 * e.1) e.2) r.1.mem, r.2.2)

/-- Whether a fetch of R271 is outstanding for a block of the own region (target 0) or the mirror (1) that meets the ranges, given
by region offset. -/
def Mod.fetching (m : Mod) (target : Nat) (rs : List (Nat × Nat)) : Bool :=
  m.memside.fetches.any fun f => f.target == target && rs.any fun r => decide (f.off < r.1 + r.2) && decide (r.1 < f.off + 2048)

/-- Free bytes at the addresses that satisfy `p`, of the `k`th use (log entries 7, 8 and 111). -/
def freeBytes (k : Nat) (p : Nat → Bool) (t : Tbl Byte) : Tbl Byte :=
  ((Config.coldHbm k).filter fun e => p e.1).foldl (fun t e => tset byte0 t e.1 e.2) t

/-- The words of a region that are not zero, by index. -/
def regionWords (mem : Tbl Byte) (base n : Nat) : List (Nat × BitVec 128) :=
  let idx := ((mem.filter fun e => decide (base ≤ e.1) && decide (e.1 < base + n)).map fun e => (e.1 - base) / 16)
  let idx := idx.foldr (fun i l => match l with | [] => [i] | j :: r => if i = j then j :: r else i :: j :: r) []
  idx.map fun i => (i, BitVec.ofNat 128 (leNat (getBytes byte0 mem (base + 16 * i) 16)))

/-- The state digest of a region of `n` bytes (R213). -/
def regionDigest (mem : Tbl Byte) (base n : Nat) : Nat := (stateDigestSparse (regionWords mem base n)).toNat

/-! ## The extent and the checkpoint's copy (R392, R397) -/

/-- E: the state extent in bytes. -/
def Mod.extent (m : Mod) : Nat := m.f UPD.EXTENT.UNITS * 0x1000

/-- First byte of a Bulb generation and of its parity fragment (R34). -/
def Mod.genBase (m : Mod) (g : Nat) : Nat := m.regionBase 3 + g % 2 * m.sizeS
def Mod.fragBase (m : Mod) (g : Nat) : Nat := m.regionBase 4 + g % 2 * (m.sizeS / 8)

/-- The copy of the running checkpoint goes on, in increasing address order, to the end of the extent or to a unit that is
uncorrectable, whose fetch it waits for. -/
def Mod.copyState (m : Mod) : Mod :=
  let e := m.extent
  let g := m.genBase m.ckpt.c
  let pos := m.ckpt.copyPos
  let waits := m.memside.fetches.filterMap fun f => if f.target = 0 ∧ pos < f.off + 2048 then some f.off else none
  match m.see ⟨2, none, 2, 144⟩ [(pos, waits.foldl min e - pos)] with
  | (m, mem, _) =>
    let stop := max pos ((m.memside.ues.filterMap fun x => if x.2 = 2 then some (64 * x.1) else none).foldl min (waits.foldl min e))
    let src := mem.filter fun x => decide (pos ≤ x.1) && decide (x.1 < stop)
    let m := m.zeroRange (g + pos) (stop - pos)
    let m := { m with
      mem := src.foldl (fun (t : Tbl Byte) (x : Nat × Byte) => tset byte0 t (g + x.1) x.2) m.mem
      ckpt := { m.ckpt with copyPos := stop } }
    m.bulkWritten ⟨2, none, 3, 144⟩ [(g + pos, stop - pos)]

/-- Whether the checkpoint engine still has to read the own training state for a generation that it writes (R26). -/
def Mod.copying (m : Mod) : Bool := m.ckpt.order == 2 && decide (m.ckpt.step < m.steps.oldest) && decide (m.ckpt.copyPos < m.extent)

/-- Before stage 6 writes the own training state, the checkpoint engine reads what it still needs (R26). False when its copy waits
for a fetch: then the write waits too. -/
def Mod.ownWritable (m : Mod) : Mod × Bool :=
  if m.copying then
    let m := m.copyState
    (m, !m.copying)
  else (m, true)

end Sys2Proof.Machine
end

