-- ==== Sys2Proof/Machine/Ledger.lean ====
section
/-! DEFINITION. The step ledger: what is recorded in it and released (R357–R363), trackers (R364) and the resend after a hole-set change
(R365). -/

namespace Sys2Proof.Machine

/-- Whether this module acts as the bridge (R335): it is named and its router runs, or as backup it has taken over. -/
def Mod.bridging (m : Mod) : Bool :=
  m.is TOR.BRIDGE_STAT.ACTIVE || (m.is TOR.CFG.ENABLE && m.f TOR.BRIDGE.ID == m.id)

/-- Whether the input ring has room for one more host write, so that REQ credit is given on P7 (R360). -/
def Mod.inRoom (m : Mod) : Bool := decide (ringUsed m.ledger.input + 64 + 16 * 17 ≤ m.inRing)

/-- A Pod put in a segment of a ring: the segment that satisfies `p`, or a new one. -/
def addPod (p : Segment → Bool) (fresh : Segment) (pod : Pkt) (l : List Segment) : List Segment :=
  if l.any p then l.map fun s => if p s then { s with pods := s.pods ++ [pod] } else s
  else l ++ [{ fresh with pods := [pod] }]

/-- The segments that satisfy `p` marked unprotected, a new one added if there is none. -/
def markUnprot (p : Segment → Bool) (fresh : Segment) (l : List Segment) : List Segment :=
  if l.any p then l.map fun s => if p s then { s with unprot := true } else s
  else l ++ [{ fresh with unprot := true }]

/-- Steps that have become unprotected are counted. -/
def Mod.countUnprot (m old : Mod) : Mod :=
  let l (x : Mod) : List Nat := (((x.ledger.marked ++ x.ledger.input).filter (·.unprot)).map (·.step)).dedup
  m.count LDG.SN_UNPROT_LO.o ((l m).filter fun k => !(l old).contains k).length

/-- LEDGER_FULL is raised for a step, once, and no further Pod of it is recorded (R361). -/
def Mod.ledgerFull (m : Mod) (k : Nat) : Mod :=
  if m.ledger.fullSteps.contains k then m
  else (m.ldg fun l => { l with fullSteps := l.fullSteps ++ [k] }).raiseLDG 1 k

/-- A sent Pod recorded under identity `ident` (R357), or, when the marked ring has no room, the step marked UNPROT with
LEDGER_FULL once (R361). -/
def Mod.record (m : Mod) (ident : Nat) (pk : Pkt) : Mod :=
  if !m.is LDG.CFG.ENABLE then m
  else
    let k := m.tagStep (tagOf pk)
    let pod := { pk with replay := false }
    let fresh : Segment := ⟨k, tagOf pk, ident, false, false, ident != m.id, []⟩
    let mine (s : Segment) : Bool := s.step == k && s.ident == ident && !s.copy
    if m.ledger.fullSteps.contains k && (m.ledger.marked.any fun s => s.step == k && !s.copy && s.unprot) then m
    else
      let need := podBytes pod + (if m.ledger.marked.any mine then 0 else 64)
      if ringUsed m.ledger.marked + need ≤ m.markedRing then
        ((m.onMarked (addPod mine fresh pod)).count LDG.SN_PODS_LO.o 1).count
          LDG.SN_POD_BYTES_LO.o (podBytes pod)
      else
        ((m.onMarked (markUnprot mine fresh)).countUnprot m).ledgerFull k

/-- A marked packet of an identity: numbered, recorded before it is sent to another module, and routed (R357). -/
def Mod.sendMarked (m : Mod) (ident dest tag cls typ info : Nat) (payload : List Byte) : Mod × Pkt :=
  let (m, p) := m.numbered ident dest tag cls typ info payload
  let p := { p with marked := true }
  ((if m.mine dest then m else m.record ident p).route p none, p)

/-- Whether a marked packet is applied (R364); its tracker moves on. While `LDG.CFG.ENABLE` is clear no tracker is kept. -/
def Mod.track (m : Mod) (p : Pkt) : Mod × Bool :=
  if !p.marked || !m.is LDG.CFG.ENABLE then (m, true)
  else
    let g := tagOf p
    let key := ((destOf p * 8192 + srcOf p) * 8 + p.cls.toNat) * 2 + m.tagStep g % 2
    let t := tget (fun _ => (0, 0)) m.ledger.trackers key
    let w := if t.1 != g && m.tagCurrent g then 0 else t.2
    let tag := if m.tagCurrent g then g else t.1
    if p.seq.toNat = w ∧ tag = g then (m.setTracker key tag ((w + 1) % 2 ^ 24), true)
    else ((if (tag, w) = t then m else m.setTracker key tag w).count DUP.SN_DUPDISC_LO.o 1, false)

/-- Marked segments of the released steps are released (R24, R359), and input segments `IN_KEEP` steps later. -/
def Mod.releasePods (m : Mod) : Mod :=
  let r := m.steps.released
  let gone (l : List Segment) (p : Segment → Bool) : Nat := ringUsed (l.filter p)
  let pm (s : Segment) : Bool := decide (s.step < r)
  let pi (s : Segment) : Bool := decide (s.step + m.f LDG.IN_KEEP.STEPS < r)
  let m := m.setRing true (m.ledger.mBase + gone m.ledger.marked pm) (m.ledger.marked.filter fun s => !pm s)
  let m := m.setRing false (m.ledger.iBase + gone m.ledger.input pi) (m.ledger.input.filter fun s => !pi s)
  m.ldg fun l => { l with fullSteps := l.fullSteps.filter fun k => decide (r ≤ k) }

/-- The Pods of one segment at a ring offset are read and sent again with REPLAY set. One that cannot be read is not sent, and its segment
is UNPROT from then on (R271, R362). -/
def Mod.resendSegment (m : Mod) (x : Nat × Segment) : Mod :=
  let s := x.2
  let m := if s.unprot then m.raiseLDG 2 s.step else m
  let r := s.pods.foldl (fun (acc : Mod × Nat × Bool) p =>
    match acc.1.ringGet true acc.2.1 (podBytes p) with
    | (m, some bs) =>
      (((m.route { pktOfBytes bs with replay := true } none).count LDG.SN_RESENT_LO.o 1).progress 147, acc.2.1 + podBytes p, acc.2.2)
    | (m, none) => (m, acc.2.1 + podBytes p, true)) (m, x.1 + 64, false)
  if !r.2.2 then r.1
  else
    let m := (r.1.onMarked fun l => l.map fun y => if y = s then { y with unprot := true } else y).countUnprot r.1
    if s.unprot then m else m.raiseLDG 2 s.step

/-- The Pods of the unchecked steps below `upto` are sent again in ledger order (R365); a step with UNPROT raises REPLAY_UNPROT
(R362). -/
def Mod.resendPods (m : Mod) (upto : Nat) : Mod :=
  let segs := (placed m.ledger.mBase m.ledger.marked).filter fun x =>
    !x.2.copy && decide (m.steps.oldest ≤ x.2.step) && decide (x.2.step < upto)
  segs.foldl Mod.resendSegment m

/-- Whether a resend is under way: a replayed Pod still waits at a port or for the router (R365). -/
def Mod.replaying (m : Mod) : Bool :=
  m.router.held.any (·.1.replay) ||
    (List.range 8).any fun p => (m.port p).ready.any fun e => e.1.replay && m.idents.contains (srcOf e.1)

/-- Whether an unchecked step is unprotected (R389). -/
def Mod.unprotected (m : Mod) : Bool :=
  (m.ledger.marked ++ m.ledger.input).any fun s => s.unprot && decide (m.steps.oldest ≤ s.step)

/-- Whether a segment at a ring offset has a Pod in the unit at ring offset `o`. -/
def podIn (size o : Nat) (x : Nat × Segment) : Bool :=
  let d := (o + size - x.1 % size) % max size 1
  decide (0 < d) && decide (d < x.2.bytes) && decide (64 < x.2.bytes)

/-- Every step with a Pod in the unit at byte offset `o` of the step-ledger region becomes unprotected as for a full ledger (R271, R361,
R362). Segments lie one after another in ring order (log entry 14). -/
def Mod.ledgerUnit (m : Mod) (o : Nat) : Mod :=
  let go (marked : Bool) (size start o : Nat) (l : List Segment) : Mod :=
    let steps := (((placed start l).filter (podIn size o)).map (·.2.step)).dedup
    let mark (l : List Segment) : List Segment := l.map fun s => if steps.contains s.step then { s with unprot := true } else s
    steps.foldl Mod.ledgerFull ((if marked then m.onMarked mark else m.onInput mark).countUnprot m)
  if o < 0x100000 then m
  else if o < 0x100000 + m.inRing then go false m.inRing m.ledger.iBase (o - 0x100000) m.ledger.input
  else go true m.markedRing m.ledger.mBase (o - 0x100000 - m.inRing) m.ledger.marked

end Sys2Proof.Machine
end

