-- ==== Sys2Proof/Machine/Queue.lean ====
section
/-! DEFINITION. Command queues (R163–R170), control descriptors (R171–R174) and contexts (R175–R178). -/

namespace Sys2Proof.Machine

/-! ## Descriptor headers (R164, R165) -/

/-- A change to the descriptors a queue holds. -/
def Mod.mapDescs (m : Mod) (n q : Nat) (f : Desc → Desc) : Mod :=
  let x := m.queue n q
  m.setQueue n q { x with taken := x.taken.map f }

/-- A change to one descriptor. -/
def Mod.mapDesc (m : Mod) (n q num : Nat) (f : Desc → Desc) : Mod :=
  m.mapDescs n q fun d => if d.num = num then f d else d

/-- A status that is a fault of its step is noted (R538). -/
def Mod.statusFault (m : Mod) (tag status : Nat) : Mod :=
  match faultReason status with
  | some r => m.fault (some tag) r
  | none => m

/-- A descriptor's work ends with a status; its completion charges a fault of its step (R170, R538). A descriptor that its context's
teardown stopped ends with CTX_ABORT (R177), and a fault its work met is charged at once. -/
def Mod.endDesc (m : Mod) (n q : Nat) (d : Desc) (status : Nat) : Mod :=
  let m := if d.stopped then m.statusFault d.tag status else m
  m.mapDesc n q d.num fun x => { x with phase := 2, status := if d.stopped then sCTX_ABORT else status, wait := 0 }

/-- Earlier descriptors of a queue. -/
def earlier (l : List Desc) (d : Desc) : List Desc := l.takeWhile (·.num != d.num)

/-- Whether a control descriptor keeps R171. -/
def controlOk (bs : List Byte) : Bool :=
  let op := hOpcode bs
  if op = 0x00 ∨ op = 0x03 then dfield bs 8 8 == 0
  else if op = 0x01 then dfield bs 14 2 == 0 && dfield bs 8 8 % 4 == 0 && dfield bs 20 12 == 0
  else if op = 0x02 then
    dfield bs 14 2 == 0 && dfield bs 8 8 % 64 == 0 && dbits bs 16 17 0 != 0 && dbits bs 16 31 20 == 0 &&
      dfield bs 20 12 == 0
  else true

/-- Whether the first three conditions of R166 hold for a taken descriptor, and that of R173 for an ENQUEUE. -/
def Mod.mayStart (m : Mod) (n q : Nat) (d : Desc) : Bool :=
  let l := earlier (m.queue n q).taken d
  let op := hOpcode d.bytes
  d.phase == 0 && l.all (fun e => e.phase != 0 || engineOf (hOpcode e.bytes) != engineOf op) &&
    (!hFence d.bytes || l.isEmpty) && (op != 0x02 || l.isEmpty) &&
    (!hWaitEn d.bytes ||
      decide ((m.f (CORE.Q_DONE.COUNT n (hWaitQ d.bytes)) + 0x10000 - hWaitSeq d.bytes) % 0x10000 < 0x8000))

/-- The descriptor that starts next: the first one that may. A queue that has been disabled starts none (R178, R193). -/
def Mod.nextStart (m : Mod) (n q : Nat) : Option Desc :=
  if m.works n q && m.enabled n q then (m.queue n q).live.find? (m.mayStart n q) else none

/-- Whether the next descriptor waits under R166 (`Q_STAT.WAITING`). -/
def Mod.waiting (m : Mod) (n q : Nat) : Bool :=
  m.works n q && m.enabled n q && (match (m.queue n q).live.find? (·.phase == 0) with
    | some d => !m.mayStart n q d
    | none => false)

/-- The tag of a descriptor: the queue's, moved on by the STEP_MARKs before it that have not switched the queue yet
(R174). -/
def Mod.descTag (m : Mod) (n q : Nat) (d : Desc) : Nat :=
  let marks := ((earlier (m.queue n q).taken d).filter fun e => hOpcode e.bytes == 0x03 && !e.ended).length
  m.tagFor (m.tagStep (m.f (CORE.Q_STAT.GEN n q)) + marks)

/-- Whether a started descriptor goes on: always, but while a rewind waits only the work for which it waits (R354). -/
def Mod.goesOn (m : Mod) (d : Desc) : Bool := m.steps.rerun.isNone || d.runs

/-- The next descriptor starts: a control descriptor that breaks R171 ends with Q_FIELD, one whose context is not OPEN with
CTX_CLOSED (R169, R175). -/
def Mod.startDesc (m : Mod) (n q : Nat) : Mod :=
  match m.nextStart n q with
  | none => m
  | some d =>
    let c := hCtx d.bytes
    let d' := { d with tag := m.descTag n q d, inst := m.f (CORE.CTX_STAT.INSTANCE n c), phase := 1 }
    let m := m.mapDesc n q d.num fun _ => d'
    if engineOf (hOpcode d.bytes) = 0 ∧ !controlOk d.bytes then m.endDesc n q d' sQ_FIELD
    else if m.f (CORE.CTX_STAT.STATE n c) ≠ 1 then m.endDesc n q d' sCTX_CLOSED
    else m.traceRec n q 1 (hTag d.bytes) d'.tag (leBytes 4 d.num ++ leBytes 1 (hOpcode d.bytes) ++ leBytes 1 c)

/-- The oldest started descriptor of a queue with an opcode that does not wait. -/
def Mod.running (m : Mod) (n q opcode : Nat) : Option Desc :=
  (m.queue n q).taken.find? fun d => d.phase == 1 && hOpcode d.bytes == opcode && d.wait == 0 && !d.issued && m.goesOn d

/-- The oldest started descriptor of a queue that waits for `w`. -/
def Mod.waiter (m : Mod) (n q w : Nat) : Option Desc :=
  (m.queue n q).taken.find? fun d => d.phase == 1 && d.wait == w && m.goesOn d

/-! ## Arbiters (R51) -/

/-- The requester after the last granted one in a fixed circular order. -/
def roundRobin (last : Nat) (reqs : List Nat) : Option Nat := (reqs.find? fun r => decide (last < r)).orElse fun _ => reqs.head?

/-- The requester of a resource that is granted among those waiting, which are listed in the fixed order of requesters: while some
have been waiting since the last grant, the next one round-robin; else the one on which the arbiter settles (R51). -/
def Mod.grant (m : Mod) (res : Nat) (reqs : List Nat) (settles : Nat) : Option Nat :=
  match tget (fun _ => 0) m.arbs res with
  | 0 => if reqs.contains settles then some settles else none
  | k + 1 => roundRobin k reqs

/-- Requester `g` has been granted out of those waiting. -/
def Mod.granted (m : Mod) (res : Nat) (reqs : List Nat) (g : Nat) : Mod :=
  { m with arbs := tset (fun _ => 0) m.arbs res (if reqs.any (· != g) then g + 1 else 0) }

/-- What requester `q` of a resource does goes on where its arbiter grants it (R51). -/
def Mod.granting (m : Mod) (res : Nat) (reqs : List Nat) (q : Nat) (f : Mod → Mod) : Mod :=
  if m.grant res reqs q = some q then f (m.granted res reqs q) else m

/-! The engines of a core have one requester for each queue, in the order of queue numbers (DESIGN CHOICE, log entry 112). -/

/-- Queues of a core with a started descriptor that waits for an engine with these opcodes. -/
def Mod.engineRequests (m : Mod) (n : Nat) (ops : List Nat) : List Nat :=
  [0, 1, 2, 3].filter fun q => ops.any fun op => (m.running n q op).isSome

/-! ## Completion (R167, R168, R170) -/

/-- The completion record (R168). -/
def Mod.record168 (m : Mod) (d : Desc) : List Byte :=
  leBytes 4 d.num ++ leBytes 2 (hTag d.bytes) ++ leBytes 1 (hOpcode d.bytes) ++ leBytes 1 d.status ++
    leBytes 6 m.vine.time.toNat ++ leBytes 2 (hCtx d.bytes)

/-- A MARK record of a range marker (R485, R487). -/
def Mod.markRecord (m : Mod) (n q : Nat) (d : Desc) : Mod :=
  let id := hTag d.bytes % 0x8000
  if hOpcode d.bytes = 0 ∧ id ≠ 0 ∧ m.traced 3 n then
    m.tracePut (traceSlot m n q 3 2 (hTag d.bytes) d.tag
      (leBytes 2 id ++ leBytes 1 (hTag d.bytes / 0x8000) ++ List.replicate 5 0 ++
        leBytes 8 (m.cnt (DBG.SN_ARR_BUSY_LO.o n)) ++ leBytes 8 (m.cnt (DBG.SN_ARR_PROD_LO.o n)) ++
        leBytes 8 (m.cnt (DBG.SN_VEC_BUSY_LO.o n)) ++ leBytes 8 (m.cnt (CORE.SN_DMA_BYTES_LO.o n))))
  else m

/-- Descriptor `d` completes ahead of `rest`: record, count word, `Q_DONE`, in this order (R167), then the halt that its status asks for
(R170). A STEP_MARK's `Q_DONE` is recorded for the step it opened, the one after its own tag's (R174). -/
def Mod.completes (m : Mod) (n q : Nat) (d : Desc) (rest : List Desc) : Mod :=
  let x := m.queue n q
  let by_ := By.completion n d.tag
  let size := m.f (CORE.CQ_SIZE.RECORDS n q)
  let m := if size = 0 then m else
    m.unitStore by_ (m.pair48 (CORE.CQ_BASE_LO.o n q) (CORE.CQ_BASE_HI.o n q) +
      (d.num + 2 ^ 32 - 1) % 2 ^ 32 % size * 16) (m.record168 d)
  let m := if m.is (CORE.CNT_HI.EN n q) then
    m.unitStore by_ (m.pair48 (CORE.CNT_LO.o n q) (CORE.CNT_HI.o n q)) (leBytes 4 d.num) else m
  let m := m.wr (CORE.Q_DONE.o n q) (BitVec.ofNat 32 d.num)
  let head := match rest with | e :: _ => e.off | [] => x.next
  let m := m.set (CORE.Q_HEAD.OFFSET n q) head
  let k := m.tagStep d.tag + 1
  let marks := if hOpcode d.bytes = 0x03 ∧ d.status = 0 then ((k, d.num) :: x.marks.filter (·.1 != k)).take 2 else x.marks
  let m := m.setQueue n q { x with taken := rest, marks := marks }
  let m := m.progress n
  let m := m.markRecord n q d
  let m := m.traceRec n q 2 (hTag d.bytes) d.tag (leBytes 4 d.num ++ leBytes 1 (hOpcode d.bytes) ++ leBytes 1 d.status)
  let m := if hIrq d.bytes then m.raiseCORE n 4 [(CORE.EVT_INFO.QUEUE n, q)] else m
  if d.status = 0 then m
  else ((m.sets [(CORE.Q_STAT.HALTED n q, 1), (CORE.Q_STAT.STATUS n q, d.status)]).qHalt n q d.status).statusFault d.tag d.status

/-- The descriptors of a queue that cannot complete next, and those that can, oldest first. A queue whose `ENABLE` is cleared starts no
descriptor, and one that it has only read is passed over: what has started runs to completion, in queue order (R167, R193; DESIGN CHOICE,
log entry 55: the spec does not say what becomes of a started descriptor behind an unstarted one). -/
def Mod.completing (m : Mod) (n q : Nat) : List Desc × List Desc :=
  let l := (m.queue n q).taken
  if m.enabled n q then ([], l) else l.span (·.phase == 0)

/-- The oldest descriptor completes once its work has ended: record, count word, `Q_DONE`, in this order (R167); a STEP_MARK
records `Q_DONE` (R174); a status other than OK halts the queue (R170), and a DATA status is a fault of its step (R538). -/
def Mod.completeDesc (m : Mod) (n q : Nat) : Mod :=
  match m.completing n q with
  | (_, []) => m
  | (idle, d :: rest) =>
    if !d.ended || (d.phase == 3 && m.halted n q) then m
    else if 2 ^ 32 ≤ d.num then
      ((m.setQueue n q { m.queue n q with taken := idle ++ rest }).progress n).statusFault d.tag d.status
    else
      m.completes n q d (idle ++ rest)

/-! ## Control descriptors (R171–R174) -/

/-- A NOP has no effect. -/
def Mod.runNop (m : Mod) (n q : Nat) : Mod :=
  match m.running n q 0x00 with
  | none => m
  | some d => m.endDesc n q d sOK

/-- Whether SYNC's address is allowed (R172). -/
def Mod.syncAddrOk (m : Mod) (a : Nat) : Bool := m.inWork a 4 || (storeOf a 4).isSome

/-- SYNC reads its word and ends when the value is reached (R172). -/
def Mod.pollSync (m : Mod) (n q : Nat) (d : Desc) : Mod :=
  if d.stopped then m.endDesc n q d sOK
  else
  match m.loadNat (By.core n d.tag) (dfield d.bytes 8 6) 4 with
  | (m, none) => m.endDesc n q d sQ_DATA
  | (m, some w) =>
    if (w + 2 ^ 32 - dfield d.bytes 16 4) % 2 ^ 32 < 2 ^ 31 then m.endDesc n q d sOK
    else m.mapDesc n q d.num fun x => { x with wait := 4 }

/-- SYNC starts: its address is checked before it reads anything. -/
def Mod.runSync (m : Mod) (n q : Nat) : Mod :=
  match m.running n q 0x01 with
  | none => m
  | some d =>
    if !m.syncAddrOk (dfield d.bytes 8 6) then m.endDesc n q d sQ_RANGE else m.pollSync n q d

/-- A waiting SYNC reads its word again. -/
def Mod.runSyncPoll (m : Mod) (n q : Nat) : Mod :=
  match m.waiter n q 4 with
  | none => m
  | some d => m.pollSync n q d

/-- Free units of a ring: one unit stays unused (R163). -/
def Mod.ringFree (m : Mod) (n q : Nat) : Nat :=
  let size := m.ringSize n q
  size - 1 - ringDist (max size 1) (m.f (CORE.Q_HEAD.OFFSET n q)) (m.f (CORE.Q_TAIL.OFFSET n q))

/-- Queues whose ENQUEUE waits for room in a ring that now holds it, and the queue whose ENQUEUE asks. They ask in the order of queue
numbers (DESIGN CHOICE, log entry 112). -/
def Mod.roomRequests (m : Mod) (n tq q : Nat) : List Nat :=
  [0, 1, 2, 3].filter fun x => x == q || match m.waiter n x 3 with
    | some e => dbits e.bytes 16 19 18 == tq && decide (dbits e.bytes 16 17 0 ≤ m.ringFree n tq)
    | none => false

/-- ENQUEUE copies its image to the target's tail once the ring has room and its arbiter grants it (R51, R173). -/
def Mod.tryEnqueue (m : Mod) (n q : Nat) (d : Desc) : Mod :=
  let units := dbits d.bytes 16 17 0
  let tq := dbits d.bytes 16 19 18
  if d.stopped then m.endDesc n q d sOK
  else
  let reqs := m.roomRequests n tq q
  if m.ringFree n tq < units ∨ m.grant (1024 + 4 * n + tq) reqs q ≠ some q then m.mapDesc n q d.num fun x => { x with wait := 3 }
  else
    match (m.granted (1024 + 4 * n + tq) reqs q).load (By.core n d.tag) (dfield d.bytes 8 6) (64 * units) with
    | (m, none) => m.endDesc n q d sQ_DATA
    | (m, some bs) =>
      let size := m.ringSize n tq
      let tail := m.f (CORE.Q_TAIL.OFFSET n tq)
      match m.unitStores (By.core n d.tag) (ringPieces (m.ringBase n tq) size tail bs) with
      | (m, false) => m.endDesc n q d sQ_DATA
      | (m, true) => ((m.set (CORE.Q_TAIL.OFFSET n tq) ((tail + units) % size)).endDesc n q d sOK).take n tq

/-- ENQUEUE checks its image and target (R173). -/
def Mod.runEnqueue (m : Mod) (n q : Nat) : Mod :=
  match m.running n q 0x02 with
  | none => m
  | some d =>
    let src := dfield d.bytes 8 6
    let units := dbits d.bytes 16 17 0
    let tq := dbits d.bytes 16 19 18
    let size := m.ringSize n tq
    let endsAtTail := (d.off + d.units) % (max (m.ringSize n q) 1) == m.f (CORE.Q_TAIL.OFFSET n q)
    if !(m.inWork src (64 * units) || inStore n src (64 * units)) || !m.is (CORE.Q_CTL.FEED n tq) ||
        (tq == q && !endsAtTail) || decide (size < units + 1 + (if tq = q then d.units else 0)) then
      m.endDesc n q d sQ_RANGE
    else m.tryEnqueue n q d

def Mod.runEnqueueSpace (m : Mod) (n q : Nat) : Mod :=
  match m.waiter n q 3 with
  | none => m
  | some d => m.tryEnqueue n q d

/-- STEP_MARK: once every earlier descriptor of its queue has started, later transfers carry the next step's tag (R174). -/
def Mod.runStepMark (m : Mod) (n q : Nat) : Mod :=
  match m.running n q 0x03 with
  | none => m
  | some d =>
    if (earlier (m.queue n q).taken d).any (·.phase == 0) then m
    else
      let k := m.tagStep (m.f (CORE.Q_STAT.GEN n q)) + 1
      let m := m.set (CORE.Q_STAT.GEN n q) (m.tagFor k)
      (m.endDesc n q d sOK).openStep k

/-! ## Contexts (R175–R178) -/

def Mod.ctxState (m : Mod) (n c : Nat) : Nat := m.f (CORE.CTX_STAT.STATE n c)

/-- A request leaves the core: its context's outstanding count rises (R176). -/
def Mod.addReq (m : Mod) (r : Req) : Mod :=
  ({ m with reqs := m.reqs ++ [r] }).set (CORE.CTX_OUT.COUNT r.core r.ctx) (m.f (CORE.CTX_OUT.COUNT r.core r.ctx) + 1)

/-- Requests of a descriptor that are still outstanding. -/
def Mod.reqsOf (m : Mod) (n q num : Nat) : List Req :=
  m.reqs.filter fun r => r.core == n && r.q == q && r.num == num && !r.dead

/-- A reply that matches no request of its context's present instance, or one that has been ended, is dropped and counted (R176). -/
def Mod.replyLate (m : Mod) (n : Nat) : Mod := m.count (CORE.SN_LATE_LO.o n) 1

/-- Teardown (R177): DRAINING; started DMA, Fennel, SYNC and ENQUEUE descriptors of the context stop, and end with
CTX_ABORT once nothing they issued is outstanding. An add that waits is given up with its descriptor. -/
def Mod.teardown (m : Mod) (n c : Nat) : Mod :=
  if m.ctxState n c ≠ 1 then m
  else
    let m := m.set (CORE.CTX_STAT.STATE n c) 2
    [0, 1, 2, 3].foldl (fun m q =>
      (m.queue n q).taken.foldl (fun m d =>
        let op := hOpcode d.bytes
        let e := engineOf op
        if d.phase == 1 && hCtx d.bytes == c && (e == 2 || e == 4 || op == 0x01 || op == 0x02) then
          let d' := { d with stopped := true }
          let m := m.mapDesc n q d.num fun _ => d'
          if (m.reqsOf n q d.num).isEmpty then
            let m := if d.wait = 2 ∨ m.fen.ops.any fun o => o.core == n && o.q == q && o.num == d.num then m.hubDone n q d.num else m
            let m := (m.endDesc n q d' sCTX_ABORT).mside fun s => { s with
              waitAdds := s.waitAdds.filter fun a => !(d.wait == 2 && a.remote.isNone && a.core == n && a.q == q) }
            { m with fen := { m.fen with ops := m.fen.ops.filter fun o => !(o.core == n && o.q == q && o.num == d.num) } }
          else m
        else m) m) m

/-- A DRAINING context closes once its outstanding count is zero and every started descriptor of it has completed; its
instance number rises (R177). -/
def Mod.closeContext (m : Mod) (n c : Nat) : Mod :=
  let busy := [0, 1, 2, 3].any fun q => (m.queue n q).taken.any fun d =>
    hCtx d.bytes == c && (d.phase == 1 || (d.phase == 2 && d.status != sCTX_CLOSED && d.status != sQ_FIELD))
  if m.ctxState n c = 2 ∧ m.f (CORE.CTX_OUT.COUNT n c) = 0 ∧ !busy then
    (m.sets [(CORE.CTX_STAT.STATE n c, 0), (CORE.CTX_STAT.INSTANCE n c, m.f (CORE.CTX_STAT.INSTANCE n c) + 1)]).raiseCORE
      n 3 [(CORE.EVT_INFO.CTX n, c)]
  else m

/-! ## Enabling (R193) -/

/-- Work that a queue still has from before it is enabled anew keeps running under numbers that no new descriptor takes; it completes
without a record (log entry 55). -/
def Mod.setAside (m : Mod) (n q : Nat) : Mod :=
  let k := 2 ^ 32
  let x := m.queue n q
  let old := (x.taken.filter fun d => d.phase == 1 || d.phase == 2).map fun d => { d with num := d.num + k }
  let m := m.setQueue n q { x with taken := old }
  let reqs := m.reqs.map fun r => if r.core = n ∧ r.q = q then { r with num := r.num + k } else r
  let ops := m.fen.ops.map fun o => if o.core = n ∧ o.q = q then { o with num := o.num + k } else o
  let arrs := m.arrs.map fun a =>
    if a.1 = n then (a.1, { a.2 with passes := a.2.passes.map fun p => if p.q = q then { p with num := p.num + k } else p }) else a
  let held := m.heldWrites.map fun h => if h.core = n ∧ h.q = q then { h with num := h.num + k } else h
  { m with reqs := reqs, heldWrites := held, fen := { m.fen with ops := ops }, arrs := arrs }

/-- Setting ENABLE: the queue starts afresh. -/
def Mod.enableQueue (m : Mod) (n q : Nat) : Mod :=
  let m := m.setAside n q
  let tail := m.f (CORE.Q_TAIL.OFFSET n q)
  let m := (m.noteReset (3 + 4 * n + q) (m.rd (CORE.Q_DONE.o n q)).toNat).wr (CORE.Q_DONE.o n q) 0
  let m := m.set (CORE.Q_HEAD.OFFSET n q) tail
  let k := m.curStep
  let m := m.wr (CORE.Q_STAT.o n q) (BitVec.ofNat 32 (0x10000 * m.tagFor k))
  let m := m.set (CORE.Q_CTL.ENABLE n q) 1
  let m := m.setQueue n q { (m.queue n q) with
    next := tail, num := 0, marks := [] }
  m.openCurrent

/-- Clearing ENABLE stops the queue from taking descriptors. What has started runs to completion (R193); a descriptor that has only been
read from the ring is not taken yet in the sense of R178, and does not start. -/
def Mod.disableQueue (m : Mod) (n q : Nat) : Mod :=
  m.set (CORE.Q_CTL.ENABLE n q) 0

/-- RESUME leaves the halt (R170). -/
def Mod.resumeQueue (m : Mod) (n q : Nat) : Mod :=
  (m.set (CORE.Q_STAT.HALTED n q) 0).take n q

/-- Warm recovery of a core's queues and contexts (R178, R193). Every other CORE register keeps its value (R193), the outstanding counts
too: the replies that would lower them are dropped (R176). -/
def Mod.warmCore (m : Mod) (n : Nat) : Mod :=
  let m := [0, 1, 2, 3].foldl (fun m q =>
    let m := m.sets [(CORE.Q_CTL.ENABLE n q, 0), (CORE.Q_STAT.HALTED n q, 0), (CORE.Q_HEAD.OFFSET n q, 0),
      (CORE.Q_TAIL.OFFSET n q, 0)]
    (m.wr (CORE.Q_DONE.o n q) 0).setQueue n q Queue.empty) m
  (List.range 16).foldl (fun m c =>
    (m.sets [(CORE.CTX_STAT.STATE n c, 0), (CORE.CTX_STAT.INSTANCE n c, m.f (CORE.CTX_STAT.INSTANCE n c) + 1)])) m

end Sys2Proof.Machine
end

