-- ==== Sys2Proof/Machine/Flags.lean ====
section
/-! DEFINITION. Health flags and counts: the banks of R221, tensor entries and the charge mask of R219, overflow charges
(R103), and the local verdict word (R223). -/

namespace Sys2Proof.Machine

/-- The bank that a count of step `k` reaches, cleared when it held another step (R221); none when the bank is final for that
step. -/
def Mod.bankFor (m : Mod) (k : Nat) : Option Bank :=
  let b := m.bank k
  if b.step = some k then (if b.final then none else some b)
  else some { Bank.empty with step := some k }

/-- A count of step `k`. Counts run while `HLT.CFG.ENABLE` is set. -/
def Mod.countIn (m : Mod) (k : Nat) (f : Bank → Bank) : Mod :=
  if !m.is HLT.CFG.ENABLE then m
  else match m.bankFor k with
    | none => m
    | some b => m.setBank k (f b)

/-- A count that carries a generation tag: dropped when the tag's step is released or its attempt not current (R221). -/
def Mod.countTag (m : Mod) (g : Nat) (f : Bank → Bank) : Mod :=
  if m.tagLive g then m.countIn (m.tagStep g) f else m

def tentry (b : Bank) (r : Nat) : TEntry := tget (fun _ => TEntry.zero) b.tensor r
def lentry (b : Bank) (l : Nat) : LEntry := tget (fun _ => LEntry.zero) b.layer l
def Bank.setT (b : Bank) (r : Nat) (e : TEntry) : Bank := { b with tensor := tset (fun _ => TEntry.zero) b.tensor r e }
def Bank.setL (b : Bank) (l : Nat) (e : LEntry) : Bank := { b with layer := tset (fun _ => LEntry.zero) b.layer l e }

/-- The four counts of a QUANT added to a tensor entry (R219). -/
def Bank.addCounts (b : Bank) (r elems zeros sats nonfin : Nat) : Bank :=
  let e := tentry b r
  b.setT r { e with elems := e.elems + elems, zeros := e.zeros + zeros, sats := e.sats + sats, nonfin := e.nonfin + nonfin }

/-- An overflow charged to a record: OVF, the charge mask, and after vote 1 was submitted LATE_CHARGE (R219, R223). -/
def Bank.chargeRec (b : Bank) (r : Nat) (late : Bool) : Bank :=
  { (b.setT r { tentry b r with ovf := true }) with
    mask := b.mask ||| (BitVec.ofNat 4096 (2 ^ r)), lateCharge := b.lateCharge || late }

/-- Bits [5:0] of the local verdict word of step `k` (R223): the charge mask, and what stage 6 found. -/
def verdictWord (b : Bank) (gradNonfinite rateInvalid listBad : Bool) : Nat :=
  (if b.mask = 0 then 0 else 1) + (if gradNonfinite then 4 else 0) + (if rateInvalid then 8 else 0) +
    (if b.routeNonfin = 0 then 0 else 16) + (if listBad then 32 else 0)

end Sys2Proof.Machine
end

