-- ==== Sys2Proof/Machine/Float.lean ====
section
/-! DEFINITION. Number formats (R87–R94), exact dyadic values, the one rounding of R90, the quotient of FP32 words
and the fold of R117. -/

namespace Sys2Proof.Machine

/-- A value as a unit of the module reads it: NaN, a signed infinity, or ± m × 2^e exactly; the sign of zero is kept
(R88). -/
inductive Num where
  | nan
  | inf (neg : Bool)
  | fin (neg : Bool) (m : Nat) (e : Int)
deriving DecidableEq, Repr

/-- A format of R87: exponent bits, mantissa bits, bias, and its special codes: 2 infinities and NaNs as IEEE 754, 1 the
single NaN S.1111.111 of E4M3, 0 none. `emax` is the exponent of the largest normal value. -/
structure Fmt where
  eb : Nat
  mb : Nat
  bias : Nat
  special : Nat
  emax : Nat
deriving DecidableEq, Repr

def fmtFP32 : Fmt := ⟨8, 23, 127, 2, 127⟩
def fmtBF16 : Fmt := ⟨8, 7, 127, 2, 127⟩
def fmtFP16 : Fmt := ⟨5, 10, 15, 2, 15⟩
def fmtE4M3 : Fmt := ⟨4, 3, 7, 1, 8⟩
def fmtE5M2 : Fmt := ⟨5, 2, 15, 2, 15⟩
def fmtE2M3 : Fmt := ⟨2, 3, 1, 0, 2⟩
def fmtE3M2 : Fmt := ⟨3, 2, 3, 0, 4⟩
def fmtE2M1 : Fmt := ⟨2, 1, 1, 0, 2⟩

/-- The bits of a code. -/
def Fmt.bits (f : Fmt) : Nat := 1 + f.eb + f.mb

/-- The value of a code (R87); subnormal codes in full (R88). -/
def Fmt.decode (f : Fmt) (c : Nat) : Num :=
  let mant := c % 2 ^ f.mb
  let ex := c / 2 ^ f.mb % 2 ^ f.eb
  let neg := c / 2 ^ (f.eb + f.mb) % 2 = 1
  let top := ex = 2 ^ f.eb - 1
  if f.special = 2 ∧ top then (if mant = 0 then .inf neg else .nan)
  else if f.special = 1 ∧ top ∧ mant = 2 ^ f.mb - 1 then .nan
  else if ex = 0 then .fin neg mant (1 - (f.bias : Int) - f.mb)
  else .fin neg (2 ^ f.mb + mant) ((ex : Int) - f.bias - f.mb)

/-- m × 2^e as an integer count of 2^q, rounded to nearest, ties to even (R90). -/
def rneQuot (m : Nat) (e q : Int) : Nat :=
  if q ≤ e then m * 2 ^ (e - q).toNat
  else
    let s := (q - e).toNat
    let k := m / 2 ^ s
    let r := m % 2 ^ s
    let half := 2 ^ (s - 1)
    if r < half then k else if half < r then k + 1 else k + k % 2

/-- The magnitude code of m × 2^e rounded once to the format, without regard to the largest finite value: the codes of
the nonnegative values rise with the value, so a result past the largest finite code is an overflow. -/
def Fmt.magCode (f : Fmt) (m : Nat) (e : Int) : Nat :=
  if m = 0 then 0
  else
    let q := max (e + (Nat.log2 m : Int) - f.mb) (1 - (f.bias : Int) - f.mb)
    let k := rneQuot m e q
    -- q = qmin + (biased exponent − 1): the code of k quanta of 2^q is (biased exponent − 1) × 2^mb + k
    (q - (1 - (f.bias : Int) - f.mb)).toNat * 2 ^ f.mb + k

/-- The largest finite magnitude code. -/
def Fmt.maxCode (f : Fmt) : Nat :=
  if f.special = 2 then (2 ^ f.eb - 1) * 2 ^ f.mb - 1
  else if f.special = 1 then 2 ^ (f.eb + f.mb) - 2
  else 2 ^ (f.eb + f.mb) - 1

/-- The sign bit of a code. -/
def Fmt.signBit (f : Fmt) (neg : Bool) : Nat := if neg then 2 ^ (f.eb + f.mb) else 0

/-- The canonical NaN of R89; formats with no NaN code have none and give the code of +0. -/
def Fmt.nanCode (f : Fmt) : Nat :=
  if f.special = 2 then
    (if f.mb = 2 then 2 ^ (f.eb + f.mb) - 1 else (2 ^ f.eb - 1) * 2 ^ f.mb + 2 ^ (f.mb - 1))
  else if f.special = 1 then 2 ^ (f.eb + f.mb) - 1 else 0

/-- Encoding with one rounding (R90, R91): past the largest finite value lies ±Inf, NaN is canonical (R89). -/
def Fmt.encode (f : Fmt) : Num → Nat
  | .nan => f.nanCode
  | .inf neg => f.signBit neg + (2 ^ f.eb - 1) * 2 ^ f.mb
  | .fin neg m e => f.signBit neg + min (f.magCode m e) ((2 ^ f.eb - 1) * 2 ^ f.mb)

/-- Encoding of a finite value that saturates at the largest finite code (R92, R110); the flag says whether it did. -/
def Fmt.encodeSat (f : Fmt) (neg : Bool) (m : Nat) (e : Int) : Nat × Bool :=
  let c := f.magCode m e
  if c ≤ f.maxCode then (f.signBit neg + c, false) else (f.signBit neg + f.maxCode, true)

/-- The value of an FP32 word. -/
def num32 (w : Word) : Num := fmtFP32.decode w.toNat

/-- The FP32 word of a value, rounded once. -/
def toFP32 (x : Num) : Word := BitVec.ofNat 32 (fmtFP32.encode x)

/-- The canonical FP32 NaN (R89). -/
def nan32 : Word := 0x7FC00000

/-- x × 2^k, exactly. -/
def Num.scale (x : Num) (k : Int) : Num :=
  match x with
  | .fin n m e => .fin n m (e + k)
  | y => y

def Num.neg : Num → Num
  | .nan => .nan
  | .inf n => .inf (!n)
  | .fin n m e => .fin (!n) m e

def Num.abs : Num → Num
  | .nan => .nan
  | .inf _ => .inf false
  | .fin _ m e => .fin false m e

def Num.isNan : Num → Bool
  | .nan => true
  | _ => false

def Num.isFinite : Num → Bool
  | .fin _ _ _ => true
  | _ => false

def Num.isZero : Num → Bool
  | .fin _ m _ => m = 0
  | _ => false

/-- The signed integer of a finite value over 2^q, for q at or below its exponent. -/
def Num.intAt (neg : Bool) (m : Nat) (e q : Int) : Int :=
  let k : Int := (m * 2 ^ (e - q).toNat : Nat)
  if neg then -k else k

/-- IEEE 754 exact sum: opposite infinities are NaN, an exact zero is −0 only when both terms are −0. -/
def Num.add (x y : Num) : Num :=
  match x, y with
  | .nan, _ => .nan
  | _, .nan => .nan
  | .inf a, .inf b => if a = b then .inf a else .nan
  | .inf a, .fin _ _ _ => .inf a
  | .fin _ _ _, .inf b => .inf b
  | .fin n1 m1 e1, .fin n2 m2 e2 =>
    let q := min e1 e2
    let s := Num.intAt n1 m1 e1 q + Num.intAt n2 m2 e2 q
    if s = 0 then .fin (n1 && n2 && m1 = 0 && m2 = 0) 0 q
    else .fin (s < 0) s.natAbs q

/-- IEEE 754 exact product: an infinity times a zero is NaN. -/
def Num.mul (x y : Num) : Num :=
  match x, y with
  | .nan, _ => .nan
  | _, .nan => .nan
  | .inf a, .inf b => .inf (a != b)
  | .inf a, .fin b m _ => if m = 0 then .nan else .inf (a != b)
  | .fin a m _, .inf b => if m = 0 then .nan else .inf (a != b)
  | .fin a m1 e1, .fin b m2 e2 => .fin (a != b) (m1 * m2) (e1 + e2)

/-- Quotient, exact but for a sticky last bit far below any rounding point of the module's formats, so one rounding of
it is the one rounding of the exact quotient (R90). -/
def Num.div (x y : Num) : Num :=
  match x, y with
  | .nan, _ => .nan
  | _, .nan => .nan
  | .inf _, .inf _ => .nan
  | .inf a, .fin b _ _ => .inf (a != b)
  | .fin a _ _, .inf b => .fin (a != b) 0 0
  | .fin a m1 e1, .fin b m2 e2 =>
    if m2 = 0 then (if m1 = 0 then .nan else .inf (a != b))
    else
      let sh := 64 + Nat.log2 m2
      let num := m1 * 2 ^ sh
      let q := num / m2
      .fin (a != b) (2 * q + (if num % m2 = 0 then 0 else 1)) (e1 - e2 - sh - 1)

/-- Square root, with a sticky last bit as in the quotient; a negative value other than −0 gives NaN. -/
def Num.sqrt (x : Num) : Num :=
  match x with
  | .nan => .nan
  | .inf false => .inf false
  | .inf true => .nan
  | .fin n m e =>
    if m = 0 then .fin n 0 0
    else if n then .nan
    else
      let par := (e % 2).toNat
      let big := m * 2 ^ (par + 128)
      let r := Nat.sqrt big
      .fin false (2 * r + (if r * r = big then 0 else 1)) ((e - par) / 2 - 64 - 1)

/-- The order of values; none with a NaN. Zeros of either sign are equal. -/
def Num.lt (x y : Num) : Bool :=
  match x, y with
  | .nan, _ => false
  | _, .nan => false
  | .inf a, .inf b => a && !b
  | .inf a, .fin _ _ _ => a
  | .fin _ _ _, .inf b => !b
  | .fin n1 m1 e1, .fin n2 m2 e2 =>
    let q := min e1 e2
    decide (Num.intAt n1 m1 e1 q < Num.intAt n2 m2 e2 q)

/-- floor(log₂ |x|) of a finite nonzero value. -/
def Num.floorLog2 : Num → Int
  | .fin _ m e => (Nat.log2 m : Int) + e
  | _ => 0

/-- The quotient of two FP32 words (R90). -/
def fdiv (a b : Word) : Word := toFP32 ((num32 a).div (num32 b))

/-- The exact sum of a list of values with the special values of R116: NaN first, then infinities, then the exact finite
sum; an exact zero is −0 only when every term is −0, and an empty sum is +0. -/
def Num.sum (xs : List Num) : Num :=
  match xs with
  | [] => .fin false 0 0
  | x :: r => r.foldl Num.add x

/-- fold(a, s) of R117, with `s` an exact operand: IEEE addition rounded once, NaN canonical. -/
def foldNum (a : Word) (s : Num) : Word := toFP32 ((num32 a).add s)

/-- The fold with an FP32 operand (R123). -/
def fold32 (a p : Word) : Word := foldNum a (num32 p)

/-- fold over ranks: ((P₀ + P₁) + P₂) …, where a lone NaN becomes the canonical NaN (R123). -/
def rankSum : List Word → Word
  | [] => 0
  | p :: r => if (num32 p).isNan && r.isEmpty then nan32 else r.foldl fold32 p

/-- RNE_BF16 of an FP32 value (R91). -/
def toBF16 (x : Num) : Nat := fmtBF16.encode x

/-- E8M0 scale code to exponent; 0xFF is NaN (R87). -/
def e8m0 (c : Nat) : Option Int := if c % 256 = 255 then none else some ((c % 256 : Nat) - 127 : Int)

/-- Block exponent X of R93 from the largest magnitude of a block of finite values. -/
def blockExp (f : Fmt) (a : Num) : Int :=
  if a.isZero then -127 else max (-127) (min 127 (a.floorLog2 - f.emax))

/-- The largest magnitude of a list of finite values. -/
def maxMag (xs : List Num) : Num :=
  xs.foldl (fun a x => if a.lt x.abs then x.abs else a) (.fin false 0 0)

/-- A block of values in MX form: the scale code, the element codes, and how many elements were saturated (R92–R94). -/
structure MxBlock where
  scale : Nat
  codes : List Nat
  sat : Nat
deriving DecidableEq, Repr

/-- A block converted with the exponent X (R92); a block with a non-finite value is scale 0xFF and zero elements (R94). -/
def mxWith (f : Fmt) (x : Int) (vs : List Num) : MxBlock :=
  if vs.all Num.isFinite then
    let r := vs.map fun v => match v with
      | .fin n m e => f.encodeSat n m (e - x)
      | _ => (0, false)
    ⟨(x + 127).toNat, r.map (·.1), (r.filter (·.2)).length⟩
  else ⟨255, vs.map (fun _ => 0), 0⟩

/-- A block converted under R93 with its own exponent. -/
def mxBlock (f : Fmt) (vs : List Num) : MxBlock := mxWith f (blockExp f (maxMag vs)) vs

/-- Two's complement reading of the low `w` bits. -/
def signed (w n : Nat) : Int :=
  let x := n % 2 ^ w
  if x < 2 ^ (w - 1) then (x : Int) else (x : Int) - (2 ^ w : Nat)

end Sys2Proof.Machine
end

