-- ==== Sys2Proof/Machine/Operands.lean ====
section
/-! DEFINITION. Operand forms of the vector engine: its descriptor (R184), the functions' operands (R185), the elements of an
operand, and tensor scale records (R99). -/

namespace Sys2Proof.Machine

/-- How many of a list hold. -/
def countB (l : List Bool) : Nat := (l.filter id).length

/-- A vector descriptor (R184). -/
structure VecD where
  fn : Nat
  fmtIn : Nat
  fmtOut : Nat
  kind : Nat
  baxis : Nat
  bcastB : Nat
  bcastC : Nat
  n : Nat
  rows : Nat
  srcA : Nat
  srcB : Nat
  srcC : Nat
  dst : Nat
  pitchA : Nat
  pitchB : Nat
  pitchC : Nat
  pitchD : Nat
  imm : Nat
  rcd : Nat
  dstS : Nat
  pitchS : Nat
  amaxAt : Nat
  rsv : Nat
deriving DecidableEq, Repr

def vecDesc (bs : List Byte) : VecD where
  fn := dbits bs 8 7 0
  fmtIn := dbits bs 8 9 8
  fmtOut := dbits bs 8 11 10
  kind := dbits bs 8 13 12
  baxis := dbits bs 8 14 14
  bcastB := dbits bs 8 15 15
  bcastC := dbits bs 8 16 16
  n := dbits bs 12 15 0
  rows := dbits bs 12 31 16
  srcA := dbits bs 16 15 0
  srcB := dbits bs 16 31 16
  srcC := dbits bs 20 15 0
  dst := dbits bs 20 31 16
  pitchA := dbits bs 24 15 0
  pitchB := dbits bs 24 31 16
  pitchC := dbits bs 28 15 0
  pitchD := dbits bs 28 31 16
  imm := dfield bs 32 4
  rcd := dbits bs 36 11 0
  dstS := dbits bs 40 15 0
  pitchS := dbits bs 40 31 16
  amaxAt := dbits bs 44 15 0
  rsv := dbits bs 8 31 17 + dbits bs 36 31 12 + dbits bs 44 31 16 + dfield bs 48 16

/-- Vector formats by code: 0 FP32, 1 BF16, 2 FP16, and the bytes of an element. -/
def vecFmt (code : Nat) : Fmt := [fmtFP32, fmtBF16, fmtFP16].getD code fmtFP32
def vecWidth (code : Nat) : Nat := if code = 0 then 4 else 2

/-- Operands of an ELT function (R185); 0 for a value that is not allowed. -/
def eltArgs (fn : Nat) : Nat := if fn = 4 then 3 else if 1 ≤ fn ∧ fn ≤ 6 then 2 else if 7 ≤ fn ∧ fn ≤ 0x10 then 1 else 0

/-- Fields that no operation but the one given uses must be zero (R184). -/
def VecD.eltUnused (d : VecD) : Bool :=
  let k := eltArgs d.fn
  d.kind + d.baxis + d.rcd + d.dstS + d.pitchS + d.amaxAt == 0 &&
    (decide (2 ≤ k) || d.srcB + d.pitchB + d.bcastB == 0) && (k == 3 || d.srcC + d.pitchC + d.bcastC == 0) &&
    (d.fn == 8 || d.imm == 0)

/-- Operands other than A, result pitch, function and format fields that must be zero outside ELT. -/
def VecD.noBC (d : VecD) : Bool := d.srcB + d.pitchB + d.bcastB + d.srcC + d.pitchC + d.bcastC + d.imm == 0
def VecD.noQuant (d : VecD) : Bool := d.kind + d.baxis + d.rcd + d.dstS + d.pitchS + d.amaxAt == 0

/-- A tensor scale record (R99). -/
structure ScaleRec where
  mode : Nat
  tse : Int
  tmin : Int
  tmax : Int
  target : Int
deriving DecidableEq, Repr

def scaleRec (w : Nat) : ScaleRec :=
  ⟨bits w 1 0, signed 8 (bits w 15 8), signed 8 (bits w 23 16), signed 8 (bits w 31 24), signed 8 (bits w 39 32)⟩

/-- Whether a record keeps R99. -/
def recOk (w : Nat) : Bool :=
  let r := scaleRec w
  r.mode != 3 && bits w 7 2 == 0 && bits w 63 40 == 0 && decide (-64 ≤ r.tse) && decide (r.tse ≤ 64) &&
    (r.mode == 1 || r.tse == 0) && decide (-64 ≤ r.tmin) && decide (r.tmin ≤ r.tmax) && decide (r.tmax ≤ 64) &&
    (if r.mode = 2 then decide (-64 ≤ r.target) && decide (r.target ≤ 64) else r.target == 0)

/-- The exponent T of a record, with the amax word of a record in AMAX mode (R101); the flag says that the amax overflowed. -/
def ScaleRec.t (r : ScaleRec) (amax : Num) : Int × Bool :=
  if r.mode = 1 then (r.tse, false)
  else if r.mode = 2 then
    (if !amax.isFinite then (0, true)
     else if amax.isZero then (0, false)
     else (max r.tmin (min r.tmax (r.target - amax.floorLog2)), false))
  else (0, false)

/-- Where a record lies: the table at its offset in the own training state, in 4 KiB units (R217). -/
def Mod.recAddr (m : Mod) (r : Nat) : Nat := m.f UPD.REC_TBL.OFF * 0x1000 + 8 * r

end Sys2Proof.Machine
end

