-- ==== Sys2Proof/Machine/Small.lean ====
section
/-! DEFINITION. Internal collectives (R224, R227, R146, R215, R328, R330, R334, R367, R394, R396, R404): votes, scans, maxima and the loss
over the whole slice. A module hands its contribution to the collectives engine; the engine passes contributions on phase by phase, along
the lines of X, Y and Z, until it holds those of every slice rank, and the results are formed from them in rank order. Operation codes
and payloads of SMALL packets are the implementation's (log entry 47). -/

namespace Sys2Proof.Machine

/-! ## Contributions -/

/-- The ids of the slice in rank order. -/
def Mod.sliceIds (m : Mod) : List Nat := (List.range m.sliceSize).map m.idOfRank

/-- The identities that this module contributes for and passes on for: after a swap the one it took, else its own and as a stand-in the
lost one (R373, R379). -/
def Mod.voters (m : Mod) : List Nat :=
  match m.dup.swapFor with
  | some l => [l]
  | none => m.id :: m.dup.lostId.toList

/-- Whether this module is the target of a swap's re-mirroring and so stands outside the slice: its identity is not yet, or is no longer,
its own there, no SMALL packet reaches it, and the results that its stage 6 needs come with the events that report them (R379, R380; log
entry 122). -/
def Mod.outside (m : Mod) : Bool := m.dup.swapping && m.role == 0 && decide (1 < m.sliceSize)

/-- The ids whose contributions a kind asks for: of votes and scans every identity, a lost one's from its stand-in (R373); of the others
every module, so that a hole has none (log entry 47). In a slice of one module the own contribution is all (R330). -/
def Mod.asked (m : Mod) (kind : Nat) : List Nat :=
  if m.sliceSize ≤ 1 then m.voters.take 1
  else if kind = kVote1 ∨ kind = kVote2 ∨ kind = kScan then m.sliceIds else m.sliceIds.filter fun id => !m.holes.contains id

/-- What the SMALL packets of a kind received with a tag carry: use, identity and words of each contribution. -/
def Mod.smallsIn (m : Mod) (kind : Nat) (tag : Option Nat) : List (Nat × Nat × List Nat) :=
  let l := m.coll.smalls.filter fun e => smallKind e.1 == kind && tag.all (· == e.2.2.1)
  ((l.map fun e => (e.2.1, e.2.2.1)).dedup).flatMap fun x =>
    Config.smallIn kind ((l.filter fun e => e.2.1 == x.1 && e.2.2.1 == x.2).map (·.2.2.2))

/-- Contributions held for use `inst` of a kind, as identity and words; each module's own first. Those of an attempt count only under its
current tag. -/
def Mod.contribs (m : Mod) (kind inst : Nat) : List (Nat × List Nat) :=
  let own := m.coll.own.filter fun c => c.kind == kind && c.inst == inst
  (own.map fun c => (c.ident, c.words)) ++
    ((m.smallsIn kind (if ofStep kind then (own.head?).map (·.tag) else none)).filter (·.1 == inst)).map (·.2)

/-- Whether the engine runs (R330). -/
def Mod.smallsRun (m : Mod) : Bool := m.is TOR.CFG.ENABLE && !m.down 145 && !m.quiesced 145

/-- The words of every slice rank in order, once the module has contributed and all of them are held. -/
def Mod.gathered (m : Mod) (kind inst : Nat) : Option (List (List Nat)) :=
  if !m.smallsRun || m.outside || !(m.coll.own.any fun c => c.kind == kind && c.inst == inst) then none
  else
    let l := m.contribs kind inst
    (m.asked kind).mapM fun id => (l.find? (·.1 == id)).map (·.2)

/-- A contribution is handed to the engine. A contribution for the same use takes the place of an earlier one. -/
def Mod.contribute (m : Mod) (kind inst tag ident : Nat) (words : List Nat) : Mod :=
  { m with coll := { m.coll with
    own := (m.coll.own.filter fun c => !(c.kind == kind && c.inst == inst && c.ident == ident)) ++ [⟨kind, inst, tag, ident, words, false⟩]
    relayed := m.coll.relayed.filter fun r => !(r.1 == kind && r.2.1 == inst) } }

/-- The result of a use has been taken. -/
def Mod.smallTaken (m : Mod) (kind inst : Nat) : Mod :=
  { m with coll := { m.coll with own := m.coll.own.map fun c => if c.kind = kind ∧ c.inst = inst then { c with done := true } else c } }

/-- A contribution of the module for its own identity, in the place of the one it took after a swap. -/
def Mod.contributeOwn (m : Mod) (kind inst tag : Nat) (words : List Nat) : Mod :=
  (m.voters.take 1).foldl (fun m id => m.contribute kind inst tag id words) m

/-! ## The phases (R328–R330) -/

/-- The ids that share the coordinates of `id` on axis `a` and on every later axis: those whose contributions phase `a` passes on. -/
def Mod.spanOf (m : Mod) (kind id a : Nat) : List Nat :=
  (m.asked kind).filter fun j => [0, 1, 2].all fun b => decide (b < a) || m.localAt j b == m.localAt id b

/-- The other ids on the line of `id` along axis `a`. -/
def Mod.lineOf (m : Mod) (id a : Nat) : List Nat :=
  m.sliceIds.filter fun j => j != id && [0, 1, 2].all fun b => b == a || m.localAt j b == m.localAt id b

/-- A SMALL packet of an identity. -/
def Mod.sendSmall (m : Mod) (ident dest tag kind : Nat) (payload : List Byte) : Mod :=
  let (m, p) := m.numbered ident dest tag clsCOLL 2 (Config.smallCode kind).toNat payload
  m.route p none

/-- One identity's packets of phase `a`: all that it holds of its span, to every other module of its line. -/
def Mod.smallPhase (m : Mod) (kind inst tag a : Nat) (held : List (Nat × List Nat)) (ident : Nat) : Mod :=
  let pays := ((m.spanOf kind ident a).filterMap fun j => held.find? (·.1 == j)).flatMap fun e => Config.smallOut kind inst e.1 e.2
  (m.lineOf ident a).foldl (fun m d => pays.foldl (fun m b => m.sendSmall ident d tag kind b) m) m

/-- Phases of a use that have been passed on. -/
def Mod.phasesSent (m : Mod) (kind inst : Nat) : Nat :=
  ((m.coll.relayed.find? fun r => r.1 == kind && r.2.1 == inst).map (·.2.2)).getD 0

/-- Whether a use can go on to its next phase: everything that this phase passes on is held. -/
def Mod.smallDue (m : Mod) (c : Contrib) : Bool :=
  let a := m.phasesSent c.kind c.inst
  let held := m.contribs c.kind c.inst
  decide (a < 3) && m.voters.all fun id => (m.spanOf c.kind id a).all fun j => held.any (·.1 == j)

/-- The next phase of a use, when it is due. -/
def Mod.smallStep (m : Mod) (c : Contrib) : Mod :=
  if !m.smallDue c then m
  else
    let a := m.phasesSent c.kind c.inst
    let held := m.contribs c.kind c.inst
    let m := m.voters.foldl (fun m id => m.smallPhase c.kind c.inst c.tag a held id) m
    { m with coll := { m.coll with relayed :=
        (m.coll.relayed.filter fun r => !(r.1 == c.kind && r.2.1 == c.inst)) ++ [(c.kind, c.inst, a + 1)] } }

/-- Uses whose next phase is due. -/
def Mod.smallsLeft (m : Mod) : List Contrib :=
  if !m.smallsRun || m.sliceSize ≤ 1 || m.outside then [] else m.coll.own.filter m.smallDue

/-- Every use goes on as far as it can; in a slice of one module no packet is sent (R330). -/
def Mod.smallsFlow (m : Mod) : Mod :=
  m.smallsLeft.foldl (fun m c => ((m.smallStep c).smallStep c).smallStep c) m

/-- After a hole-set change the contributions to every unfinished use of the oldest unchecked step are sent again (R367). -/
def Mod.resendSmalls (m : Mod) : Mod :=
  let again := m.coll.own.filter fun c => !c.done && m.tagStep c.tag == m.steps.oldest
  { m with coll := { m.coll with relayed := m.coll.relayed.filter fun r => !(again.any fun c => c.kind == r.1 && c.inst == r.2.1) } }

/-- A SMALL packet: contributions to an internal collective, each taken once (R367). -/
def Mod.takeSmall (m : Mod) (p : Pkt) : Mod :=
  let e := (infoOf p % 16, srcOf p, tagOf p, p.payload)
  if m.coll.smalls.contains e then m
  else ({ m with coll := { m.coll with smalls := m.coll.smalls ++ [e] } }).progress 145

/-! ## Results -/

/-- Word `i` of every contribution. -/
def column (l : List (List Nat)) (i : Nat) : List Nat := l.map fun w => w.getD i 0

/-- Bitwise OR, exact sum and maximum of a column (R330). -/
def orAll (l : List Nat) : Nat := l.foldl (· ||| ·) 0
def maxAll (l : List Nat) : Nat := l.foldl max 0

/-- An event that carries a result comes only with the result that the module holds (log entry 3). -/
def onResult {α : Type} [DecidableEq α] (held : Option α) (r : α) (f : Mod → Mod) (m : Mod) : Mod := if held = some r then f m else m

end Sys2Proof.Machine
end

