-- ==== Sys2Proof/Machine/Array.lean ====
section
/-! DEFINITION. The matrix array of a core: shapes and operand layouts (R58–R76), descriptor checks (R81–R84), group sums
and folds (R65, R115–R118), sparsity and zero skipping (R130–R138), drains (R70), ARR_DATA (R85), accumulator reads
(R126–R128) and the samples of tile checks (R233). Beats are not counted; a pass's folds are formed when its first line issues,
and a row keeps what it was before each of them until the pass completes (log entry 40). -/

namespace Sys2Proof.Machine

/-! ## Formats and shapes -/

/-- Format of an operand code (R59). -/
def arrFmt (code : Nat) : Fmt := [fmtBF16, fmtFP16, fmtE4M3, fmtE5M2, fmtE2M3, fmtE3M2, fmtE2M1].getD code fmtBF16
def arrClass (code : Nat) : Nat := [1, 1, 2, 2, 2, 2, 4].getD code 1

/-- Row bands and column bands of a mode (R67). -/
def rowBands (mode : Nat) : Nat := [1, 2, 1, 2, 4, 4].getD mode 1
def colBands (mode : Nat) : Nat := [1, 1, 2, 2, 1, 2].getD mode 1
def slotCount (mode : Nat) : Nat := rowBands mode * colBands mode

/-- A slot of an array descriptor (R82), its number and the OR of its reserved bits. -/
structure ASlot where
  s : Nat
  aBase : Nat
  m : Nat
  wBase : Nat
  kc : Nat
  nc : Nat
  asBase : Nat
  wsBase : Nat
  outBase : Nat
  accRow : Nat
  outStride : Nat
  metaBase : Nat
  rsv : Nat
deriving DecidableEq, Repr

/-- An array descriptor (R81). -/
structure ADesc where
  len : Nat
  mode : Nat
  fmtA : Nat
  fmtW : Nat
  group : Nat
  sparse : Nat
  zskip : Bool
  reuse : Bool
  init : Bool
  load : Bool
  drain : Bool
  closeAll : Bool
  rsv : Nat
  slots : List ASlot
deriving DecidableEq, Repr

def arrSlot (bs : List Byte) (s : Nat) : ASlot :=
  let o := 16 + 32 * s
  ⟨s, dbits bs o 15 0, dbits bs o 25 16, dbits bs (o + 4) 15 0, dbits bs (o + 4) 23 16, dbits bs (o + 4) 31 24,
   dbits bs (o + 8) 15 0, dbits bs (o + 8) 31 16, dbits bs (o + 12) 15 0, dbits bs (o + 12) 24 16,
   dbits bs (o + 16) 15 0, dbits bs (o + 16) 31 16,
   dbits bs o 31 26 + dbits bs (o + 12) 31 25 + dfield bs (o + 20) 12⟩

def arrDesc (bs : List Byte) : ADesc :=
  let b (o i : Nat) : Bool := dbits bs o i i == 1
  let mode := dbits bs 8 2 0
  ⟨hLen bs, mode, dbits bs 8 5 3, dbits bs 8 8 6, dbits bs 8 10 9, dbits bs 8 12 11, b 8 13, b 8 14, b 12 0, b 12 1,
   b 12 2, b 12 3, dbits bs 8 31 15 + dbits bs 12 31 4,
   (List.range (if mode < 6 then slotCount mode else 0)).map (arrSlot bs)⟩

/-- P_eff (R60) and S (R72) of a pass, and the elements per streamed lane. -/
def ADesc.peff (d : ADesc) : Nat := min (arrClass d.fmtA) (arrClass d.fmtW)
def ADesc.sfac (d : ADesc) : Nat := [1, 2, 4].getD d.sparse 1
def ADesc.ps (d : ADesc) : Nat := d.peff * d.sfac

/-- Cell rows and columns of a slot, and the accumulator rows of its partition (R67). -/
def ADesc.rs (d : ADesc) : Nat := 128 / rowBands d.mode
def ADesc.cs (d : ADesc) : Nat := 128 / colBands d.mode
def ADesc.accRows (d : ADesc) : Nat := 512 / rowBands d.mode

def ADesc.active (d : ADesc) : List ASlot := d.slots.filter (·.m != 0)

/-- Keys of the accumulator rows that a slot of a pass names: physical row × 2 + column band. -/
def ADesc.rowKeys (d : ADesc) (x : ASlot) : List Nat :=
  (List.range x.m).map fun i =>
    2 * (x.s / colBands d.mode * d.accRows + x.accRow + i) + x.s % colBands d.mode

def ADesc.allKeys (d : ADesc) : List Nat := d.active.flatMap d.rowKeys

/-- Bytes of a number of bits, and of a line with its pitch (R72, R74, R131). -/
def bytesOf (nbits : Nat) : Nat := (nbits + 7) / 8
def pitchOf (nbits : Nat) : Nat := (bytesOf nbits + 63) / 64 * 64

/-- Bits of a line of the streamed block, the weight block and the metadata block. -/
def ADesc.aBits (d : ADesc) : Nat := d.rs * d.ps * (arrFmt d.fmtA).bits
def ADesc.wBits (d : ADesc) : Nat := d.cs * d.peff * (arrFmt d.fmtW).bits
def ADesc.metaBits (d : ADesc) : Nat := d.cs * d.peff * 2

/-- MX blocks of a K slice (R75). -/
def ADesc.nb (d : ADesc) : Nat := d.rs * d.ps / 32

/-- Bytes that a block of lines covers (R76). -/
def blockBytes (lines nbits : Nat) : Nat := (lines - 1) * pitchOf nbits + bytesOf nbits

/-- The blocks that a slot reads or writes, as offset and length (R76, R135); under W_REUSE no weight block is read (R83). -/
def ADesc.blocks (d : ADesc) (x : ASlot) : List (Int × Nat) :=
  [((x.aBase : Int) * 64, blockBytes (x.m + d.rs - 1) d.aBits)] ++
  (if d.zskip then [((x.aBase : Int) * 64 - 64, 64)] else []) ++
  (if 2 ≤ d.fmtA then [((x.asBase : Int) * 64, x.m * d.nb)] else []) ++
  (if d.reuse then [] else
    [((x.wBase : Int) * 64, blockBytes d.rs d.wBits)] ++
    (if 2 ≤ d.fmtW then [((x.wsBase : Int) * 64, d.nb * d.cs)] else []) ++
    (if d.sparse ≠ 0 then [((x.metaBase : Int) * 64, blockBytes d.rs d.metaBits)] else [])) ++
  (if d.load || d.drain then [((x.outBase : Int) * 64, (x.m - 1) * x.outStride * 64 + x.nc * 4)] else [])

/-! ## Checks (R84) -/

/-- Check 1 of R84. FMT_A or FMT_W of 7, which R59 marks reserved, counts as a field value that is not allowed (DESIGN CHOICE, log
entry 46). -/
def ADesc.badField (d : ADesc) : Bool :=
  d.rsv != 0 || decide (6 ≤ d.mode) || d.len != 1 + 2 * slotCount d.mode || d.fmtA == 7 || d.fmtW == 7 || d.group == 3 ||
  d.sparse == 3 || (d.load && !d.init) ||
  d.slots.any fun x =>
    x.rsv != 0 ||
    (if x.m = 0 then x != ⟨x.s, 0, 0, 0, 0, 0, 0, 0, 0, 0, 0, 0, 0⟩
     else (decide (d.fmtA < 2) && x.asBase != 0) || (decide (d.fmtW < 2) && x.wsBase != 0) ||
       (d.sparse == 0 && x.metaBase != 0))

/-- R60 and R66. -/
def ADesc.badFormat (d : ADesc) : Bool :=
  (decide (d.fmtA < 2) != decide (d.fmtW < 2)) || (decide (d.fmtA < 2) && d.fmtA != d.fmtW) ||
    (decide (2 ≤ d.fmtA) && d.sparse == 2 && d.group == 2)

def ADesc.badRange (d : ADesc) : Bool :=
  d.active.any fun x =>
    decide (d.accRows < x.m) || decide (d.accRows < x.accRow + x.m) || x.kc == 0 || decide (d.rs < x.kc) || x.nc == 0 ||
    decide (d.cs < x.nc) || ((d.load || d.drain) && decide (x.outStride < (x.nc * 4 + 63) / 64)) ||
    (d.blocks x).any fun b => decide (b.1 < 0) || decide ((lsSize : Int) < b.1 + b.2)

/-- The passes whose drains are still to end. -/
def Arr.drains (a : Arr) : List ADesc :=
  (a.passes.filter (·.phase != 3)).map (fun p => arrDesc p.bytes) |>.filter (·.drain)

/-- Rows that passes in the array will close by their drains. -/
def Arr.draining (a : Arr) : List Nat := a.drains.flatMap ADesc.allKeys

/-- The array as a pass in it finds it: with the passes before it. -/
def Arr.before (a : Arr) (p : Pass) : Arr :=
  { a with passes := a.passes.takeWhile fun e => !(e.q == p.q && e.num == p.num) }

/-- The open rows that a later pass meets: those that no pass in the array will close. -/
def Arr.openRows (a : Arr) : List (Nat × AccRow) :=
  let dr := a.draining
  a.acc.filterMap fun e => match e.2 with
    | some r => if dr.contains e.1 then none else some (e.1, r)
    | none => none

def ADesc.badAcc (d : ADesc) (a : Arr) : Bool :=
  let opened := if d.closeAll then [] else a.openRows
  opened.any (fun e => e.2.mode != d.mode) ||
  (!d.init && d.active.any fun x => (d.rowKeys x).any fun k =>
    match opened.find? (·.1 == k) with
    | some e => e.2.mode != d.mode || e.2.group != d.group || e.2.nc != x.nc
    | none => true)

/-- R64. -/
def ADesc.badCount (d : ADesc) (a : Arr) : Bool :=
  d.active.any fun x => (d.rowKeys x).any fun k =>
    let n := if d.init then 0 else match a.openRows.find? (·.1 == k) with
      | some e => e.2.count
      | none => 0
    decide (16384 < n + x.kc * d.peff)

/-- Whether held weights are those a slot names (R83). -/
def HeldW.fits (h : HeldW) (d : ADesc) (x : ASlot) : Bool :=
  h.mode == d.mode && h.wBase == x.wBase && h.wsBase == x.wsBase && h.fmtW == d.fmtW && h.kc == x.kc && h.nc == x.nc &&
    h.sparse == d.sparse && h.metaBase == x.metaBase

/-- The weights that a pass of a mode finds held: none after a change of mode or under CLOSE_ALL (R83). The eight fields of R83
do not hold FMT_A (DESIGN CHOICE, log entry 40: see `HeldW.elem`). -/
def Arr.heldFor (a : Arr) (d : ADesc) (s : Nat) : Option HeldW :=
  if d.closeAll then none else
  match tget (fun _ => none) a.held s with
  | some h => if h.mode == d.mode then some h else none
  | none => none

def ADesc.badHeld (d : ADesc) (a : Arr) : Bool :=
  d.reuse && d.active.any fun x => match a.heldFor d x.s with
    | some h => !h.fits d x
    | none => true

/-- The status of the first failing check, 0 when the pass may run (R84). -/
def ADesc.check (d : ADesc) (a : Arr) : Nat :=
  if d.badField then 0x20 else if d.badFormat then 0x21 else if d.badRange then 0x22 else if d.badAcc a then 0x23
  else if d.badCount a then 0x24 else if d.badHeld a then 0x25 else 0

/-! ## The array takes a pass -/

/-- What stands before a pass: under CLOSE_ALL every row closes but those that an earlier pass still drains, and no weights are held;
a change of mode discards held weights (R81, R83). That this happens as the array takes the pass, before its weight load, is a
DESIGN CHOICE (log entry 40). -/
def Arr.opens (a : Arr) (d : ADesc) : Arr :=
  let dr := a.draining
  let stale := a.held.any fun e => match e.2 with | some h => h.mode != d.mode | none => false
  { a with
    acc := if d.closeAll then a.acc.filter (fun e => dr.contains e.1) else a.acc
    held := if d.closeAll || stale then [] else a.held }

/-- Whether a pass holds the shadow registers: its weights load, or wait for a drain (R68). -/
def Pass.shadow (p : Pass) : Bool := p.phase == 0 || p.phase == 2

/-- The oldest started array pass of a queue that the array has not taken is checked, and begins its weight load or completes
with its error status (R84). The shadow registers hold one weight tile, so a pass whose load runs comes first (R68). The array stays
idle while the weight tile of its first pass loads: R77 says that it leaves idle first, R79 that it is idle until that pass's first
line, and the model takes R79 (DESIGN CHOICE, log entry 40). -/
def Mod.passTaken (m : Mod) (n q : Nat) : Mod :=
  match m.running n q 0x10 with
  | none => m
  | some d =>
    let a := m.arr n
    if a.passes.any Pass.shadow then m
    else
      let x := arrDesc d.bytes
      match x.check a with
      | 0 =>
        let a := a.opens x
        (m.mapDesc n q d.num fun e => { e with issued := true }).setArr n
          { a with passes := a.passes ++ [⟨q, d.num, d.tag, d.bytes, 0, []⟩] }
      | st => m.endDesc n q d st

/-- Queues of a core whose array passes have started and wait for the array, in the order of queue numbers (DESIGN CHOICE, log entry
112). -/
def Mod.passRequests (m : Mod) (n : Nat) : List Nat := [0, 1, 2, 3].filter fun q => (m.running n q 0x10).isSome

/-- The array takes the pass of the queue that its arbiter grants; `q` is the one it settles on where requests meet (R51). -/
def Mod.arrayPass (m : Mod) (n q : Nat) : Mod :=
  let reqs := m.passRequests n
  match m.grant n reqs q with
  | none => m
  | some g => if (m.arr n).passes.any Pass.shadow then m else (m.granted n reqs g).passTaken n g

/-! ## Reading operands -/

/-- Element `i` of `w` bits of a little-endian bit string (R8). -/
def elemAt (w line i : Nat) : Nat := line / 2 ^ (w * i) % 2 ^ w

/-- The bytes that hold bits [lo, lo + w) of a block at local-store offset `o`, as a number shifted to bit 0. -/
def Mod.lsBits (m : Mod) (n tag o lo w : Nat) : Mod × Option Nat :=
  match m.load (By.core n tag) (lsAddr n (o + lo / 8)) ((lo + w + 7) / 8 - lo / 8) with
  | (m, some bs) => (m, some (leNat bs / 2 ^ (lo % 8) % 2 ^ w))
  | (m, none) => (m, none)

/-- Bit ranges read in turn. -/
def Mod.lsList (m : Mod) (n tag : Nat) : List (Nat × Nat × Nat) → Mod × Option (List Nat)
  | [] => (m, some [])
  | (o, lo, w) :: rest =>
    match m.lsBits n tag o lo w with
    | (m, none) => (m, none)
    | (m, some x) =>
      match Mod.lsList m n tag rest with
      | (m, some xs) => (m, some (x :: xs))
      | (m, none) => (m, none)

/-- MX blocks that the present cell rows of a slot reach. -/
def ADesc.nk (d : ADesc) (x : ASlot) : Nat := (x.kc * d.ps + 31) / 32

/-! The ranges that a pass reads, each as block offset, first bit and bits. Of every line the array reads the KC present cell
rows and the NC columns that the slot uses, and no padding (R73); that it reads no lane, scale or column at and beyond KC and NC is
a DESIGN CHOICE (log entry 40). -/

def ADesc.weightLines (d : ADesc) (x : ASlot) : List (Nat × Nat × Nat) :=
  (List.range x.kc).map fun r => (x.wBase * 64 + r * pitchOf d.wBits, 0, (arrFmt d.fmtW).bits * d.peff * x.nc)
def ADesc.weightScales (d : ADesc) (x : ASlot) : List (Nat × Nat × Nat) :=
  if d.fmtW < 2 then [] else (List.range (d.nk x)).map fun k => (x.wsBase * 64 + k * d.cs, 0, 8 * x.nc)
def ADesc.metaLines (d : ADesc) (x : ASlot) : List (Nat × Nat × Nat) :=
  if d.sparse = 0 then [] else
    (List.range x.kc).map fun r => (x.metaBase * 64 + r * pitchOf d.metaBits, 0, 2 * d.peff * x.nc)
def ADesc.lanes (d : ADesc) (x : ASlot) (i : Nat) : List (Nat × Nat × Nat) :=
  let w := (arrFmt d.fmtA).bits * d.ps
  (List.range x.kc).map fun r => (x.aBase * 64 + (i + r) * pitchOf d.aBits, w * r, w)
def ADesc.laneScales (d : ADesc) (x : ASlot) (i : Nat) : List (Nat × Nat × Nat) :=
  if d.fmtA < 2 then [] else (List.range (d.nk x)).map fun k => (x.asBase * 64 + i * d.nb + k, 0, 8)

/-- What the weight load reads, and what the rows given and the opening of rows read. -/
def ADesc.weightReads (d : ADesc) (x : ASlot) : List (Nat × Nat × Nat) :=
  if d.reuse then [] else d.weightLines x ++ d.weightScales x ++ d.metaLines x
def ADesc.streamReads (d : ADesc) (x : ASlot) (rows : List Nat) : List (Nat × Nat × Nat) :=
  (rows.flatMap fun i => d.lanes x i ++ d.laneScales x i) ++
  (if d.zskip then [(x.aBase * 64 - 64, 0, x.m)] else []) ++
  (if d.load then (List.range x.m).map fun i => (x.outBase * 64 + i * x.outStride * 64, 0, 32 * x.nc) else [])

/-- Whether a range holds a bit of the byte at an offset. -/
def rangeHas (off : Nat) (r : Nat × Nat × Nat) : Bool :=
  decide (r.1 + r.2.1 / 8 ≤ off) && decide (off < r.1 + (r.2.1 + r.2.2 + 7) / 8)

/-- The weight lines, scales by block and column, and metadata lines of a slot: of each line the NC columns of the KC present
cell rows, as numbers. -/
def Mod.loadWeights (m : Mod) (n tag : Nat) (d : ADesc) (x : ASlot) : Mod × Option HeldW :=
  match m.lsList n tag (d.weightLines x) with
  | (m, none) => (m, none)
  | (m, some lines) =>
    match m.lsList n tag (d.weightScales x) with
    | (m, none) => (m, none)
    | (m, some scales) =>
      match m.lsList n tag (d.metaLines x) with
      | (m, none) => (m, none)
      | (m, some metas) =>
        (m, some ⟨d.mode, x.wBase, x.wsBase, d.fmtW, x.kc, x.nc, d.sparse, x.metaBase, lines, scales, metas⟩)

/-- Weight element j of column c in cell row r. A pass that reuses weights under another FMT_A, and so with another P_eff, than the
pass that loaded them cuts the held lines by its own P_eff (DESIGN CHOICE, log entry 40: R83 does not name FMT_A). -/
def HeldW.elem (h : HeldW) (pe r c j : Nat) : Num :=
  let f := arrFmt h.fmtW
  f.decode (elemAt f.bits (h.lines.getD r 0) (pe * c + j))

/-- Whether the part of the held tile that the pass uses holds a non-finite element or a 0xFF scale (R137). -/
def HeldW.special (h : HeldW) (pe : Nat) : Bool :=
  (List.range h.kc).any (fun r => (List.range (h.nc * pe)).any fun i =>
    !((arrFmt h.fmtW).decode (elemAt (arrFmt h.fmtW).bits (h.lines.getD r 0) i)).isFinite) ||
  h.scales.any fun s => (List.range h.nc).any fun c => elemAt 8 s c == 255

/-- The streamed element of a lane that kept weight `j` with entry `e` multiplies (R130, R132). -/
def laneElem (pe s j e : Nat) : Nat :=
  if s = 1 then j
  else if pe = 1 ∧ s = 2 then e % 2
  else if pe = 4 ∧ s = 2 then 4 * (j / 2) + e
  else if pe = 1 ∨ s = 2 then e
  else 4 * j + e

/-- Rows that a slot issues (R135, R137). -/
def Mod.issuedRows (m : Mod) (n tag : Nat) (d : ADesc) (x : ASlot) (h : HeldW) : Mod × Option (List Nat) :=
  if !d.zskip then (m, some (List.range x.m))
  else
    match m.lsBits n tag (x.aBase * 64 - 64) 0 x.m with
    | (m, none) => (m, none)
    | (m, some mask) =>
      (m, some ((List.range x.m).filter fun i => h.special d.peff || !mask.testBit i))

/-- The lanes of streamed row `i` by cell row, and its block scales. -/
def Mod.streamRow (m : Mod) (n tag : Nat) (d : ADesc) (x : ASlot) (i : Nat) : Mod × Option (List Nat × List Nat) :=
  match m.lsList n tag (d.lanes x i) with
  | (m, none) => (m, none)
  | (m, some lanes) =>
    match m.lsList n tag (d.laneScales x i) with
    | (m, none) => (m, none)
    | (m, some scales) => (m, some (lanes, scales))

/-! ## Arithmetic -/

/-- The two elements and the scale exponent of kept weight j of cell row r and column c; a 0xFF scale has none (R115, R116,
R133). -/
def operands (d : ADesc) (h : HeldW) (lanes scales : List Nat) (c r j : Nat) : Num × Num × Option Int :=
  let pe := d.peff
  let e := if d.sparse = 0 then 0 else elemAt 2 (h.metas.getD r 0) (pe * c + j)
  let jj := laneElem pe d.sfac j e
  let f := arrFmt d.fmtA
  let a := f.decode (elemAt f.bits (lanes.getD r 0) jj)
  let k := (d.ps * r + jj) / 32
  let xa := if d.fmtA < 2 then some 0 else e8m0 (scales.getD k 0)
  let xw := if d.fmtW < 2 then some 0 else e8m0 (elemAt 8 (h.scales.getD k 0) c)
  (a, h.elem pe r c j, match xa, xw with | some u, some v => some (u + v) | _, _ => none)

/-- The exact scaled product (R115, R116). -/
def scaledProduct (o : Num × Num × Option Int) : Num :=
  match o.2.2 with
  | some k => (o.1.mul o.2.1).scale k
  | none => .nan

/-- Present cell rows of group `q` (R65). -/
def groupRows (d : ADesc) (kc q : Nat) : List Nat :=
  let g := 4 * 2 ^ d.group / d.peff
  ((List.range g).map (q * g + ·)).filter (· < kc)

/-- The accumulator value of a column after group `q` of a streamed row has folded (R65, R117). -/
def foldColumn (d : ADesc) (h : HeldW) (lanes scales : List Nat) (q c : Nat) (a : Word) : Word :=
  foldNum a (Num.sum ((groupRows d h.kc q).flatMap fun r =>
    (List.range d.peff).map fun j => scaledProduct (operands d h lanes scales c r j)))

/-- A row after one more group, with what it was before it (R64, R65, R128). -/
def AccRow.fold (r : AccRow) (p : Pass) (d : ADesc) (h : HeldW) (lanes scales : List Nat) (q : Nat) : AccRow :=
  { r with
    trail := r.trail ++ [⟨p.q, p.num, r.count, r.vals⟩]
    count := r.count + (groupRows d h.kc q).length * d.peff
    vals := (List.range r.nc).map fun c => foldColumn d h lanes scales q c (r.vals.getD c 0) }

/-- A row after the groups of a streamed row have folded in increasing q; groups that lie wholly at or beyond KC are not folded
(R65). -/
def AccRow.folds (r : AccRow) (p : Pass) (d : ADesc) (h : HeldW) (lanes scales : List Nat) : AccRow :=
  let g := 4 * 2 ^ d.group / d.peff
  (List.range ((h.kc + g - 1) / g)).foldl (fun r q => r.fold p d h lanes scales q) r

/-- An accumulator row as a pass finds or opens it: +0 or the loaded words (R63, R118). -/
def Mod.openRow (m : Mod) (n tag : Nat) (d : ADesc) (x : ASlot) (i : Nat) : Mod × Option AccRow :=
  if !d.load then (m, some ⟨d.mode, d.group, x.nc, 0, List.replicate x.nc 0, []⟩)
  else
    match m.load (By.core n tag) (lsAddr n (x.outBase * 64 + i * x.outStride * 64)) (4 * x.nc) with
    | (m, none) => (m, none)
    | (m, some bs) => (m, some ⟨d.mode, d.group, x.nc, 0, (pieces 4 x.nc bs).map fun w => BitVec.ofNat 32 (leNat w), []⟩)

/-- One row of a slot: opened or continued, its count raised, and its groups folded if the slot issues its line. The first line of a
pass from idle takes the array out of idle (R77). -/
def Mod.runRow (m : Mod) (n : Nat) (p : Pass) (d : ADesc) (x : ASlot) (h : HeldW) (issued : Bool) (i key : Nat) :
    Mod × Option AccRow :=
  let (m, old) := if d.init then m.openRow n p.tag d x i else (m, tget (fun _ => none) (m.arr n).acc key)
  match old with
  | none => (m, none)
  | some r =>
    if !issued then (m, some { r with count := r.count + x.kc * d.peff })
    else
      match m.streamRow n p.tag d x i with
      | (m, none) => (m, none)
      | (m, some (lanes, scales)) =>
        ((m.count (DBG.SN_ARR_PROD_LO.o n) (x.kc * x.nc * d.peff)).setArr n { m.arr n with activity := 1 },
          some (r.folds p d h lanes scales))

/-- A row that a pass opens or continues: its slot and weights, whether its line issues, its place in the block and its key. -/
structure RowPlan where
  slot : ASlot
  held : HeldW
  issued : Bool
  row : Nat
  key : Nat
deriving DecidableEq, Repr

/-- Rows in order; false on an uncorrectable byte. -/
def Mod.runRows (m : Mod) (n : Nat) (p : Pass) (d : ADesc) : List RowPlan → Mod × Bool
  | [] => (m, true)
  | x :: rest =>
    match m.runRow n p d x.slot x.held x.issued x.row x.key with
    | (m, none) => (m, false)
    | (m, some r) =>
      let a := m.arr n
      Mod.runRows (m.setArr n { a with acc := tset (fun _ => none) a.acc x.key (some r) }) n p d rest

/-- The weights of every slot of a pass are loaded, unless it reuses those held. -/
def Mod.loadSlots (m : Mod) (n : Nat) (p : Pass) (d : ADesc) : List ASlot → Mod × Bool
  | [] => (m, true)
  | x :: xs =>
    let (m, w) := if d.reuse then (m, tget (fun _ => none) (m.arr n).held x.s) else m.loadWeights n p.tag d x
    match w with
    | none => (m, false)
    | some h =>
      let a := m.arr n
      Mod.loadSlots (m.setArr n { a with held := tset (fun _ => none) a.held x.s (some h) }) n p d xs

/-- What every slot of a pass does with its rows, from the zero masks. -/
def Mod.planSlots (m : Mod) (n : Nat) (p : Pass) (d : ADesc) : List ASlot → Mod × Option (List (List RowPlan))
  | [] => (m, some [])
  | x :: xs =>
    match tget (fun _ => none) (m.arr n).held x.s with
    | none => (m, none)
    | some h =>
      match m.issuedRows n p.tag d x h with
      | (m, none) => (m, none)
      | (m, some issued) =>
        match Mod.planSlots m n p d xs with
        | (m, none) => (m, none)
        | (m, some rest) =>
          (m, some ((((List.range x.m).zip (d.rowKeys x)).map fun e => ⟨x, h, issued.contains e.1, e.1, e.2⟩) :: rest))

/-- The elements of several lists in turn: the first of each, then the second of each. -/
def beats {α : Type} : Nat → List (List α) → List α
  | 0, _ => []
  | k + 1, ls => ls.filterMap List.head? ++ beats k (ls.map List.tail)

/-- The rows of every slot run: the slots issue their lines beat by beat, and a row without a line is done before them. -/
def Mod.runSlots (m : Mod) (n : Nat) (p : Pass) (d : ADesc) : Mod × Bool :=
  match m.planSlots n p d d.active with
  | (m, none) => (m, false)
  | (m, some ls) =>
    m.runRows n p d (ls.flatMap (·.filter (!·.issued)) ++ beats 512 (ls.map (·.filter (·.issued))))

/-! ## Tile-check samples (R232, R233) -/

/-- Whether tile checks run (R232). -/
def Mod.tileWindow (m : Mod) : Bool :=
  m.is HLT.TC_CTL.EN && (m.health.tcStart || m.is TST.CFG.MODE || m.role == 3 || decide (0 < m.health.tcLeft))

/-- The kept weights of cell row `r` and column `c` in increasing K index (R72, R130): those at each of the row's P_s elements in
turn. -/
def kOrder (d : ADesc) (h : HeldW) (c r : Nat) : List Nat :=
  let at_ (j : Nat) : Nat :=
    laneElem d.peff d.sfac j (if d.sparse = 0 then 0 else elemAt 2 (h.metas.getD r 0) (d.peff * c + j))
  (List.range d.ps).flatMap fun k => (List.range d.peff).filter fun j => at_ j == k

/-- What a tile check of a pass records: per element of 16 rows × 16 columns of slot 0 the value to be drained and the
operands of its products in increasing K index, a NaN scale as a NaN operand. -/
def Mod.sampleOf (m : Mod) (n : Nat) (d : ADesc) : List (Word × List (Word × Word × Int)) :=
  match d.active.find? (·.s == 0) with
  | none => []
  | some x =>
    match tget (fun _ => none) (m.arr n).held 0 with
    | none => []
    | some h =>
      (List.range (min 16 x.m)).flatMap fun i =>
        match (m.streamRow n 0 d x i).2 with
        | none => []
        | some (lanes, scales) =>
          let row := tget (fun _ => none) (m.arr n).acc ((d.rowKeys x).getD i 0)
          (List.range (min 16 x.nc)).map fun c =>
            (((row.map (·.vals)).getD []).getD c 0,
             (List.range x.kc).flatMap fun r => (kOrder d h c r).map fun j =>
               let o := operands d h lanes scales c r j
               match o.2.2 with
               | some k => (toFP32 o.1, toFP32 o.2.1, k)
               | none => (nan32, nan32, 0))

/-! ## Issue, completion, drain and errors -/

/-- ARR_DATA (R85): rows the pass touched close, the held weights of its slots go, and it completes. Rows that an earlier pass
still drains are not the pass's. Every row that the descriptor names counts as touched, also where the pass fails before its first
line (DESIGN CHOICE, log entry 40). -/
def Mod.arrayData (m : Mod) (n : Nat) (p : Pass) : Mod :=
  let d := arrDesc p.bytes
  let a := m.arr n
  let rest := a.passes.filter fun e => !(e.q == p.q && e.num == p.num)
  let keep := (a.before p).draining
  let m := m.setArr n { a with
    passes := rest
    acc := terase (fun k => d.allKeys.contains k && !keep.contains k) a.acc
    held := terase (fun s => (d.active.map (·.s)).contains s) a.held }
  match (m.queue n p.q).taken.find? (·.num == p.num) with
  | some e => m.endDesc n p.q e 0x26
  | none => m

/-- Whether two passes name a common row: the same row and column band, or the same row when one of them has one band only. -/
def ADesc.meets (d e : ADesc) : Bool :=
  d.allKeys.any fun k => e.allKeys.any fun l => k == l || k / 2 == l / 2 && (colBands d.mode == 1 || colBands e.mode == 1)

/-- Whether a pass waits for a drain of a row that it opens or continues (R70). -/
def Arr.waitsDrain (a : Arr) (p : Pass) : Bool := (a.before p).drains.any (arrDesc p.bytes).meets

/-- A pass in the array moves to a phase. -/
def Arr.setPhase (a : Arr) (p : Pass) (phase : Nat) : Arr :=
  { a with passes := a.passes.map fun e => if e.q = p.q ∧ e.num = p.num then { e with phase := phase } else e }

/-- Pass `p` holds its weights and folds its rows (R63, R83). What a tile check of it would record is kept with it (R233). A pass of
which no slot issues a line (R138) leaves an idle array idle: no rule has it take the array out of idle (DESIGN CHOICE, log entry
40). -/
def Mod.loadsWeights (m : Mod) (n : Nat) (p : Pass) : Mod :=
  let d := arrDesc p.bytes
  match (match (m.setArr n ((m.arr n).setPhase p 1)).loadSlots n p d d.active with
    | (m, false) => (m, false)
    | (m, true) => m.runSlots n p d) with
  | (m, false) => m.arrayData n p
  | (m, true) =>
    if d.init && d.drain && !d.load then
      let sm := m.sampleOf n d
      let a := m.arr n
      m.setArr n { a with passes := a.passes.map fun e =>
        if e.q = p.q ∧ e.num = p.num then { e with sample := sm } else e }
    else m

/-- Pass `p` leaves the array with a status before its first line. -/
def Mod.passFails (m : Mod) (n : Nat) (p : Pass) (st : Nat) : Mod :=
  let a := m.arr n
  let m := m.setArr n { a with passes := a.passes.filter fun e => !(e.q == p.q && e.num == p.num) }
  match (m.queue n p.q).taken.find? (·.num == p.num) with
  | some e => m.endDesc n p.q e st
  | none => m

/-- The first line of a pass whose weights are loaded issues, unless it waits for the drain of a row (R69, R70). The checks that rest
on rows and held weights are made again, since an earlier pass of the chain may have ended with ARR_DATA in between (R85). -/
def Mod.passStarts (m : Mod) (n : Nat) (p : Pass) : Mod :=
  let a := m.arr n
  let b := a.before p
  if a.waitsDrain p then m.setArr n (a.setPhase p 2)
  else
    match (arrDesc p.bytes).check b with
    | 0 => m.loadsWeights n p
    | st => m.passFails n p st

/-- The weight load of the pass that loads is complete, and its first line issues (R69, R77): rows open or continue, and its
groups fold. -/
def Mod.weightLoadDone (m : Mod) (n : Nat) : Mod :=
  match (m.arr n).passes.find? (·.phase == 0) with
  | none => m
  | some p => m.passStarts n p

/-- The drained bytes of a slot: columns 0 to NC − 1 of each row (R82). -/
def Arr.drainBytes (a : Arr) (n : Nat) (d : ADesc) (x : ASlot) : List (Nat × List Byte) :=
  ((List.range x.m).zip (d.rowKeys x)).map fun e =>
    (lsAddr n (x.outBase * 64 + e.1 * x.outStride * 64),
      ((((tget (fun _ => none) a.acc e.2).map (·.vals)).getD []).map fun w => leBytes 4 w.toNat).flatten)

/-- A pass that waited for a drain goes on where it need not wait any more (R70). -/
def Mod.wakePass (m : Mod) (n : Nat) : Mod :=
  match (m.arr n).passes.find? (·.phase == 2) with
  | none => m
  | some w => m.passStarts n w

/-- Pass `p` has drained: its rows stand in local store and close, and a pass that waits for them goes on (R70). A parity error on the way to
the local store ends it with its DATA status (R437). -/
def Mod.drainEnds (m : Mod) (n : Nat) (p : Pass) : Mod :=
  let a := m.arr n
  let d := arrDesc p.bytes
  match m.stores (By.core n p.tag) (d.active.flatMap (a.drainBytes n d)) with
  | (m, true) => (m.setArr n { a.setPhase p 3 with acc := terase (fun k => d.allKeys.contains k) a.acc }).wakePass n
  | (m, false) => (m.arrayData n p).wakePass n

/-- The drain of the first pass that drains ends: its bytes are visible in local store and its rows close (R70). -/
def Mod.arrayDrainDone (m : Mod) (n : Nat) : Mod :=
  match (m.arr n).passes.find? (fun p => p.phase == 1 && (arrDesc p.bytes).drain) with
  | none => m
  | some p => m.drainEnds n p

/-- A completed pass is sampled when it is the `EVERY`th that qualifies (R233). -/
def Mod.samplePass (m : Mod) (n : Nat) (p : Pass) : Mod :=
  let d := arrDesc p.bytes
  if !(m.tileWindow && d.init && d.drain && !d.load) then m
  else
    let k := tget (fun _ => 0) m.health.tcPasses n + 1
    let m := { m with health := { m.health with tcPasses := tset (fun _ => 0) m.health.tcPasses n k } }
    if k % (max 1 (m.f HLT.TC_CTL.EVERY)) = 0 ∧ p.sample ≠ [] then
      { m with health := { m.health with samples := m.health.samples ++
          [⟨n, ((d.active.find? (·.s == 0)).map (·.kc)).getD 0 * d.peff, p.sample⟩] } }
    else m

/-- A row whose pass is complete: none of its folds is outstanding. -/
def AccRow.settled (r : AccRow) (p : Pass) : AccRow :=
  { r with trail := r.trail.filter fun e => !(e.q == p.q && e.num == p.num) }

/-- Pass `p` leaves the array and its descriptor's work has ended (R86, R233). -/
def Mod.passEnds (m : Mod) (n : Nat) (p : Pass) : Mod :=
  let a := m.arr n
  let m := m.samplePass n p
  let m := m.setArr n { a with
    passes := a.passes.filter fun e => !(e.q == p.q && e.num == p.num)
    acc := a.acc.map fun e => (e.1, e.2.map (·.settled p)) }
  match (m.queue n p.q).taken.find? (·.num == p.num) with
  | some e => m.endDesc n p.q e sOK
  | none => m

/-- A pass whose last fold is in the accumulator, or whose drain is visible, completes (R86). -/
def Mod.arrayPassComplete (m : Mod) (n : Nat) : Mod :=
  match (m.arr n).passes.find? (fun p => p.phase == 3 || (p.phase == 1 && !(arrDesc p.bytes).drain)) with
  | none => m
  | some p => m.passEnds n p

/-- Whether a pass reads a byte of local store: the weight tile while it loads; from the pass's first line on, the rows it issues, its
mask and the rows it opens from (R73, R83, R135). -/
def Mod.passReads (m : Mod) (n off : Nat) (p : Pass) : Bool :=
  let d := arrDesc p.bytes
  d.active.any fun x =>
    match p.phase with
    | 0 => (d.weightReads x).any (rangeHas off)
    | 1 =>
      let rows := match tget (fun _ => none) (m.arr n).held x.s with
        | some h => (m.issuedRows n p.tag d x h).2.getD []
        | none => List.range x.m
      (d.streamReads x rows).any (rangeHas off)
    | _ => false

/-- A local-store byte that a pass reads proves uncorrectable (R85, R160). The pass is the one that reads: the last in the array
that is not drained and reads the byte, since the lines of a chain issue in order. A pass that waits for a drain goes on where that
drain is not to come. -/
def Mod.arrData (m : Mod) (n off : Nat) : Mod :=
  match (m.arr n).passes.reverse.find? fun p => decide (p.phase < 3) && m.passReads n off p with
  | none => m
  | some p =>
    let a := lsAddr n off
    let m := m.mside fun s => { s with lsErr := tset (fun _ => 0) s.lsErr a 3 }
    (((m.lsByte (By.core n p.tag) a).1).arrayData n p).wakePass n

/-- The ramp-down that began after the last line of the last ready descriptor, or after a stop, ends, and the array is idle (R78, R80). It
may end before the last folds of a pass are in and before its drain ends (R69, R79). Where a pass is still in the array it may have been
a stop, from which the lines of that pass may resume (see `Arr.stopped`). -/
def Mod.rampDownDone (m : Mod) (n : Nat) : Mod := m.setArr n { m.arr n with activity := 0 }

/-- Whether the array is idle with a pass in it whose lines may not all have issued: after a stop they resume under the ramp-up, at a
moment that no command gives (R80; log entry 40). -/
def Arr.stopped (a : Arr) : Bool := a.activity == 0 && a.passes.any (·.phase == 1)

/-! ## Accumulator reads (R126–R128) -/

/-- Whether a row key lies in the column half that a read names. -/
def keyCovers (mode row col k : Nat) : Bool :=
  k / 2 == row && (colBands mode == 1 || (k % 2 == 1) == decide (64 ≤ col))

/-- A row with `lag` folds of running passes outstanding: as it was before them, and what of its trail may still be read (R128). -/
def AccRow.lagged (r : AccRow) (lag : Nat) : AccRow :=
  match r.trail.drop (r.trail.length - lag) with
  | [] => { r with trail := [] }
  | e :: rest => { r with count := e.count, vals := e.vals, trail := e :: rest }

/-- The read requested by `ACC_SEL` word `sel` is answered with the row as it is `lag` folds before the end of the running passes (R126,
R128). A later read shows no fewer folds. Columns at and beyond the NC of the opening pass hold no value of the spec and read as zero
(DESIGN CHOICE, log entry 40). -/
def Mod.accTake (m : Mod) (sel : Word) (coincide : Bool) (lag : Nat) : Mod :=
  let n := DBG.ACC_SEL.CORE.get sel
  let row := DBG.ACC_SEL.ROW.get sel
  let col := 16 * DBG.ACC_SEL.CB.get sel
  let a := m.arr n
  let key := match a.acc.find? fun e => match e.2 with | some r => keyCovers r.mode row col e.1 | none => false with
    | some e => e.1
    | none => 2 * row
  let r := (tget (fun _ => none) a.acc key).bind fun r => if keyCovers r.mode row col key then some r else none
  let opens := a.passes.any fun p => p.shadow && (arrDesc p.bytes).init &&
    (arrDesc p.bytes).allKeys.any (keyCovers (arrDesc p.bytes).mode row col)
  let m := { m with accReq := none }
  let m := m.wr DBG.ACC_STAT.o 0
  let m := m.wr DBG.ACC_CNT.o 0
  let m := (List.range 16).foldl (fun m i => m.wr (DBG.ACC_D.o i) 0) m
  let m := m.sets [(DBG.ACC_STAT.DONE, 1), (DBG.ACC_STAT.COINCIDE, if coincide && opens then 1 else 0)]
  match r with
  | none => m
  | some r =>
    let v := r.lagged lag
    let m := m.setArr n { a with acc := tset (fun _ => none) a.acc key (some { r with trail := v.trail }) }
    let m := m.sets [(DBG.ACC_STAT.OPEN, 1), (DBG.ACC_STAT.MODE, v.mode), (DBG.ACC_STAT.GROUP, v.group),
      (DBG.ACC_STAT.NC, v.nc), (DBG.ACC_CNT.COUNT, v.count)]
    let first := if key % 2 = 1 then 64 else 0
    (List.range 16).foldl (fun m i => m.wr (DBG.ACC_D.o i) (v.vals.getD (col - first + i) 0)) m

/-- The read of the accumulator that was requested is taken: one row segment after a whole number of folds. `coincide` says that the
handshake opens the row, which only a pass that has not issued can do; the state is then that of before. `lag` is how many folds of
the passes that run are still outstanding. -/
def Mod.accReadTaken (m : Mod) (coincide : Bool) (lag : Nat) : Mod :=
  match m.accReq with
  | none => m
  | some sel => if m.is DBG.STAT.DEBUG then m.accTake sel coincide lag else m

end Sys2Proof.Machine
end

