-- ==== Sys2Proof/Machine/Dma.lean ====
section
/-! DEFINITION. The DMA engine: COPY (R179), SKEW (R181) and WEIGHT (R182), the Stalk guard (R197, R198), requests to other
modules and their replies (R176, R302, R303). A descriptor's local work is one step; a transfer to or from another module,
or register space (R457), is a set of request packets whose replies end it. -/

namespace Sys2Proof.Machine

/-! ## Addresses (R31, R38) -/

/-- Whether the module's own DMA engines may read or write a range outside register space (R31, R38). -/
def Mod.dmaReadable (m : Mod) (a n : Nat) : Bool :=
  (storeOf a n).isSome || (inHbm a n && (decide (a + n ≤ m.regionBase 3) || m.inRegion 6 a n))
def Mod.dmaWritable (m : Mod) (a n : Nat) : Bool := (storeOf a n).isSome || (inHbm a n && m.inRegion 6 a n)

/-- The identity that a queue's program sends under: on a stand-in the lost one for the queues of its program (R373), from a swap's
step on the module's own; on a spare that a swap put in, the identity it took (R379). -/
def Mod.identOf (m : Mod) (n q : Nat) : Nat :=
  match m.dup.swapFor with
  | some i => i
  | none =>
    match m.dup.lostId with
    | some i =>
      if m.soloAt (m.tagStep (m.f (CORE.Q_STAT.GEN n q))) && Config.runsLost n q then i else m.id
    | none => m.id

/-! ## The Stalk (R197, R198) -/

/-- Granules that a range touches. -/
def Mod.granules (m : Mod) (a n : Nat) : List Nat :=
  if n = 0 ∨ !m.touchesStalk a n then []
  else
    let lo := max a m.stalkBase - m.stalkBase
    let hi := min (a + n) (m.stalkBase + m.stalkSize) - 1 - m.stalkBase
    (List.range (hi / 0x200000 + 1 - lo / 0x200000)).map (lo / 0x200000 + ·)

/-- A granule's tag plus one, 0 when EMPTY. -/
def Mod.granule (m : Mod) (g : Nat) : Nat := tget (fun _ => 0) m.stalk g

/-- The first granule of the ranges that is not FILLED with the tag. -/
def Mod.badGranule (m : Mod) (tag : Nat) (rs : List (Nat × Nat)) : Option Nat :=
  (rs.flatMap fun r => m.granules r.1 r.2).find? fun g => m.granule g != tag + 1

/-- The granules of the ranges become FILLED with a tag. -/
def Mod.fillGranules (m : Mod) (tag : Nat) (rs : List (Nat × Nat)) : Mod :=
  (rs.flatMap fun r => m.granules r.1 r.2).foldl (fun m g =>
    { m with stalk := tset (fun _ => 0) m.stalk g (tag + 1) }) m

/-! ## Descriptor fields -/

/-- A COPY (R179). -/
structure CopyD where
  src : Nat
  dst : Nat
  rowBytes : Nat
  rows : Nat
  sp : Nat
  dp : Nat
  mark : Bool
  rsv : Nat
deriving DecidableEq, Repr

def copyDesc (bs : List Byte) : CopyD :=
  ⟨dfield bs 8 8, dfield bs 16 8, dbits bs 24 23 0, dbits bs 28 15 0, dfield bs 32 4, dfield bs 36 4,
   dbits bs 24 31 31 == 1, dfield bs 8 8 / 2 ^ 61 + dfield bs 16 8 / 2 ^ 61 + dbits bs 24 30 24 + dbits bs 28 31 16 +
     dfield bs 40 8⟩

/-- A source view (R180). -/
structure View where
  ebase : Nat
  sbase : Nat
  epitch : Nat
  spitch : Nat
  row0 : Nat
  col0 : Nat
  rsv : Nat
deriving DecidableEq, Repr

def viewDesc (bs : List Byte) : View :=
  ⟨dfield bs 8 6, dfield bs 16 6, dbits bs 24 23 0, dbits bs 28 23 0, dbits bs 32 23 0, dbits bs 36 23 0,
   dfield bs 14 2 + dfield bs 22 2 + dbits bs 24 31 24 + dbits bs 28 31 24 + dbits bs 32 31 24 + dbits bs 36 31 24⟩

/-- The address of the scale of Src[i][j] (R180). -/
def View.scaleAt (v : View) (baxis i j : Nat) : Nat :=
  if baxis = 0 then v.sbase + i * v.spitch + j / 32 else v.sbase + i / 32 * v.spitch + j

/-- The byte range of elements [j, j + n) of source row i. -/
def View.rowRange (v : View) (b i j n : Nat) : Nat × Nat :=
  (v.ebase + i * v.epitch + b * j / 8, (b * (j + n) + 7) / 8 - b * j / 8)

/-- A SKEW (R181). -/
structure SkewD where
  v : View
  fmt : Nat
  trans : Nat
  baxis : Nat
  psl : Nat
  lanes : Nat
  mask : Bool
  m : Nat
  aBase : Nat
  asBase : Nat
  rsv : Nat
deriving DecidableEq, Repr

def skewDesc (bs : List Byte) : SkewD :=
  ⟨viewDesc bs, dbits bs 40 2 0, dbits bs 40 3 3, dbits bs 40 4 4, dbits bs 40 7 5, dbits bs 40 9 8, dbits bs 40 10 10 == 1,
   dbits bs 44 9 0, dbits bs 48 15 0, dbits bs 48 31 16, dbits bs 40 31 11 + dbits bs 44 31 10 + dfield bs 52 12⟩

def SkewD.rs (d : SkewD) : Nat := 32 * 2 ^ d.lanes
def SkewD.ps (d : SkewD) : Nat := 2 ^ d.psl
def SkewD.k (d : SkewD) : Nat := d.rs * d.ps
def SkewD.nb (d : SkewD) : Nat := d.k / 32
def SkewD.w (d : SkewD) : Nat := (arrFmt d.fmt).bits

/-- Source row ranges that SKEW reads: of the rows of A, or of its K indices under TRANS. -/
def SkewD.rowReads (d : SkewD) : List (Nat × Nat) :=
  if d.trans = 0 then (List.range d.m).map fun i => d.v.rowRange d.w (d.v.row0 + i) d.v.col0 d.k
  else (List.range d.k).map fun i => d.v.rowRange d.w (d.v.row0 + i) d.v.col0 d.m

/-- Addresses of the scales of row i. -/
def SkewD.scaleReads (d : SkewD) (i : Nat) : List (Nat × Nat) :=
  if d.fmt < 2 then [] else (List.range d.nb).map fun k =>
    (if d.trans = 0 then d.v.scaleAt d.baxis (d.v.row0 + i) (d.v.col0 + 32 * k)
     else d.v.scaleAt d.baxis (d.v.row0 + 32 * k) (d.v.col0 + i), 1)

/-- A WEIGHT (R182). -/
structure WeightD where
  v : View
  fmt : Nat
  wop : Nat
  baxis : Nat
  tile : Bool
  pel : Nat
  sl : Nat
  lanes : Nat
  cs1 : Nat
  mpitch : Nat
  wBase : Nat
  wsBase : Nat
  metaOut : Nat
  mbase : Nat
  rsv : Nat
deriving DecidableEq, Repr

def weightDesc (bs : List Byte) : WeightD :=
  ⟨viewDesc bs, dbits bs 40 2 0, dbits bs 40 4 3, dbits bs 40 5 5, dbits bs 40 6 6 == 1, dbits bs 40 8 7, dbits bs 40 10 9,
   dbits bs 40 12 11, dbits bs 40 13 13, dbits bs 44 23 0, dbits bs 48 15 0, dbits bs 48 31 16, dbits bs 52 15 0,
   dfield bs 56 6, dbits bs 40 31 14 + dbits bs 44 31 24 + dbits bs 52 31 16 + dfield bs 62 2⟩

def WeightD.rs (d : WeightD) : Nat := 32 * 2 ^ d.lanes
def WeightD.cs (d : WeightD) : Nat := 64 * (1 + d.cs1)
def WeightD.pe (d : WeightD) : Nat := 2 ^ d.pel
def WeightD.s (d : WeightD) : Nat := 2 ^ d.sl
def WeightD.w (d : WeightD) : Nat := (arrFmt d.fmt).bits

/-- Whether the output is sparse, and the MX blocks of its K slice. -/
def WeightD.sparse (d : WeightD) : Bool := d.wop == 0 && d.sl != 0
def WeightD.nb (d : WeightD) : Nat := d.rs * d.pe * (if d.sparse then d.s else 1) / 32

/-- Source rows read, with their first row, first column and columns: kept or dense rows for PLAIN, the rows of the columns
for TRANS, the kept rows of the windows that hold the dense rows for EXPAND. -/
def WeightD.srcRows (d : WeightD) : List Nat :=
  if d.wop = 0 then (List.range (d.rs * d.pe)).map (d.v.row0 + ·)
  else if d.wop = 1 then (List.range d.cs).map (d.v.row0 + ·)
  else
    let w := d.pe * d.s
    let lo := d.v.row0 / w * d.pe
    let hi := ((d.v.row0 + d.cs - 1) / w + 1) * d.pe
    (List.range (hi - lo)).map (lo + ·)
def WeightD.srcCols (d : WeightD) : Nat := if d.wop = 0 then d.cs else d.rs * d.pe

def WeightD.rowReads (d : WeightD) : List (Nat × Nat) :=
  d.srcRows.map fun i => d.v.rowRange d.w i d.v.col0 d.srcCols

/-- Metadata rows read with the kept rows. -/
def WeightD.metaReads (d : WeightD) : List (Nat × Nat) :=
  if d.sl = 0 ∨ d.wop = 1 then [] else d.srcRows.map fun i =>
    (d.mbase + i * d.mpitch + 2 * d.v.col0 / 8, (2 * (d.v.col0 + d.srcCols) + 7) / 8 - 2 * d.v.col0 / 8)

/-- The scale of block kb of column c of the output. -/
def WeightD.scaleReads (d : WeightD) : List (Nat × Nat) :=
  if d.fmt < 2 then [] else (List.range d.nb).flatMap fun kb => (List.range d.cs).map fun c =>
    (if d.wop = 0 then d.v.scaleAt d.baxis (d.v.row0 * (if d.sparse then d.s else 1) + 32 * kb) (d.v.col0 + c)
     else d.v.scaleAt d.baxis (d.v.row0 + c) (d.v.col0 + 32 * kb), 1)

/-! ## Reads of a started descriptor -/

/-- Local row ranges of one end of a COPY. -/
def copyRows (base pitch rows n : Nat) : List (Nat × Nat) := (List.range rows).map fun i => (fabLocal base + i * pitch, n)

/-- The ranges that a DMA descriptor reads on this module. -/
def Mod.dmaReads (m : Mod) (bs : List Byte) : List (Nat × Nat) :=
  let op := hOpcode bs
  if op = 0x20 then
    let c := copyDesc bs
    if fabMod c.src = m.id then copyRows c.src c.sp c.rows c.rowBytes else []
  else if op = 0x21 then let d := skewDesc bs; d.rowReads ++ (List.range d.m).flatMap d.scaleReads
  else if op = 0x22 then let d := weightDesc bs; d.rowReads ++ d.metaReads ++ d.scaleReads
  else []

/-- Whether a DMA read that carries tag `g` is outstanding in the Stalk: a started descriptor other than this one reads it. -/
def Mod.stalkRead (m : Mod) (n q num g : Nat) : Bool :=
  m.queues.any fun e => e.2.taken.any fun d =>
    d.phase == 1 && d.tag == g && !(e.1 == 4 * n + q && d.num == num) && engineOf (hOpcode d.bytes) == 2 &&
      (m.dmaReads d.bytes).any fun r => m.touchesStalk r.1 r.2

/-- Whether a write of the ranges under a tag waits (R197). -/
def Mod.stalkHeld (m : Mod) (n q : Nat) (d : Desc) (rs : List (Nat × Nat)) : Bool :=
  (rs.flatMap fun r => m.granules r.1 r.2).any fun g =>
    m.granule g != 0 && m.granule g != d.tag + 1 && m.stalkRead n q d.num (m.granule g - 1)

/-- A DMA read refused by the Stalk: event and status (R198). -/
def Mod.refuseStalk (m : Mod) (n q : Nat) (d : Desc) (g : Nat) : Mod := (m.raiseUPD 5 g).endDesc n q d 0x43

/-! ## Requests to other modules -/

/-- A space of R303 and its base; none beyond what UNIT can name. -/
def spaceOf (a : Nat) : Option (Nat × Nat) :=
  if a < lsBase then some (0, 0) else if a < regBase then some (1, lsBase)
  else if a < regBase + 2 ^ 40 then some (2, regBase) else none

/-- WRITEs of at most 16 units that carry bytes to an address: INFO without LAST, and payload. -/
def writePieces : Nat → Nat → List Byte → List (Nat × List Byte)
  | 0, _, _ => []
  | fuel + 1, a, bs =>
    if bs.isEmpty then []
    else
      let (sp, base) := (spaceOf a).getD (0, 0)
      let off := a - base
      let head := off % 16
      let k := min bs.length (256 - head)
      let units := (head + k + 15) / 16
      let tail := 16 * units - head - k
      (ioInfo sp (off / 16) head tail false, List.replicate head 0 ++ bs.take k ++ List.replicate tail 0) ::
        writePieces fuel (a + k) (bs.drop k)

/-- A request packet of a descriptor is sent, marked or not, and its reply awaited. -/
def Mod.request (m : Mod) (n q : Nat) (d : Desc) (dest cls typ info : Nat) (payload : List Byte) (mark : Bool)
    (kind land bytes : Nat) (last : Bool) : Mod :=
  let src := m.identOf n q
  let (m, p) := if mark then m.sendMarked src dest d.tag cls typ info payload
    else
      let (m, p) := m.numbered src dest d.tag cls typ info payload
      (m.route p none, p)
  m.addReq ⟨n, hCtx d.bytes, d.inst, d.tag, q, d.num, dest, p.seq.toNat, kind, land, bytes, last, false⟩

/-- Bytes written to an address of another module; LAST on the final WRITE if `last`. -/
def Mod.remoteWrite (m : Mod) (n q : Nat) (d : Desc) (fa : Nat) (bs : List Byte) (mark last : Bool) : Mod :=
  let ps := writePieces (bs.length + 1) (fabLocal fa) bs
  (ps.zipIdx).foldl (fun m e =>
    let fin := last && e.2 + 1 == ps.length
    m.request n q d (fabMod fa) 1 0 (e.1.1 + (if fin then 2 ^ 46 else 0)) e.1.2 mark 0 0 0 fin) m

/-- Bytes of another module, or of register space, asked for in READs of at most 65 536 bytes. A READ's requester tag is the low
word of its sequence number (log entry 41). -/
def Mod.remoteRead (m : Mod) (n q : Nat) (d : Desc) : Nat → Nat → Nat → Nat → Mod
  | 0, _, _, _ => m
  | fuel + 1, fa, land, k =>
    if k = 0 then m
    else
      let a := fabLocal fa
      let (sp, base) := (spaceOf a).getD (0, 0)
      let c := min k 65536
      let seq := tget (fun _ => 0) m.router.seqs (((m.identOf n q * 8192 + fabMod fa) * 65536 + d.tag) * 8 + clsREQ)
      let m := m.request n q d (fabMod fa) 1 1 (ioInfo sp ((a - base) / 16) ((a - base) % 16) 0 false)
        (leBytes 4 c ++ leBytes 4 seq ++ List.replicate 8 0) false 1 land c false
      Mod.remoteRead m n q d fuel (fa + c) (land + c) (k - c)

/-- The WRITE that a COPY holds back goes out, with `LAST` when no other follows it (R179). -/
def Mod.sendHeld (m : Mod) (n q : Nat) (d : Desc) (last : Bool) : Mod :=
  match m.heldWrites.find? fun h => h.core == n && h.q == q && h.num == d.num && !h.lands with
  | none => m
  | some h =>
    ({ m with heldWrites := m.heldWrites.erase h }).remoteWrite n q d h.dest h.bytes (dbits d.bytes 24 31 31 == 1) last

/-- Bytes for an address of another module go out in WRITEs of a COPY, each held back until the next one comes. -/
def Mod.queueWrites (m : Mod) (n q : Nat) (d : Desc) : Nat → Nat → List Byte → Mod
  | 0, _, _ => m
  | fuel + 1, fa, bs =>
    if bs.isEmpty then m
    else
      let k := min bs.length (256 - fabLocal fa % 16)
      let m := m.sendHeld n q d false
      Mod.queueWrites { m with heldWrites := m.heldWrites ++ [⟨n, q, d.num, fa, bs.take k, false⟩] } n q d fuel (fa + k) (bs.drop k)

/-- A descriptor whose requests have all been issued ends once none is outstanding, with the status it has met. -/
def Mod.endIfDone (m : Mod) (n q num : Nat) : Mod :=
  match (m.queue n q).taken.find? (·.num == num) with
  | none => m
  | some d =>
    if d.phase = 1 ∧ d.issued ∧ (m.reqsOf n q num).isEmpty ∧ !(m.heldWrites.any fun h => h.core == n && h.q == q && h.num == num && h.lands)
    then m.endDesc n q d d.status else m

/-- A descriptor notes the first status other than OK that a reply brings. -/
def Mod.noteStatus (m : Mod) (n q num st : Nat) : Mod :=
  m.mapDesc n q num fun d => if d.status = 0 then { d with status := st } else d

/-- Whether a waiting local add holds the DMA engine of a core (R257). -/
def Mod.dmaHeld (m : Mod) (n : Nat) : Bool := m.memside.waitAdds.any fun a => a.remote.isNone && a.core == n

/-- Work of queue `q` on the DMA engine of a core, and on its vector engine: the engine's arbiter grants one of the queues that ask
(R51). -/
def Mod.onDma (m : Mod) (n q : Nat) (f : Mod → Mod) : Mod :=
  m.granting (256 + n) (m.engineRequests n [0x20, 0x21, 0x22, 0x23]) q f
def Mod.onVec (m : Mod) (n q : Nat) (f : Mod → Mod) : Mod :=
  m.granting (384 + n) (m.engineRequests n [0x30, 0x31, 0x32, 0x33, 0x34]) q f

/-! ## COPY (R179) -/

/-- Status of COPY's checks (R169, R320), 0 when it may run; local ends lie outside register space here unless a row names it. -/
def Mod.copyCheck (m : Mod) (c : CopyD) : Nat :=
  let sl := fabMod c.src == m.id
  let dl := fabMod c.dst == m.id
  let srcs := copyRows c.src c.sp c.rows c.rowBytes
  let dsts := copyRows c.dst c.dp c.rows c.rowBytes
  let regOk (r : Nat × Nat) : Bool := inRegs r.1 r.2 && r.1 % 4 == 0 && r.2 % 4 == 0
  if c.rsv ≠ 0 ∨ c.rowBytes = 0 ∨ c.rows = 0 ∨ (c.mark ∧ dl) then 0x40
  else if sl && dl && srcs.any (fun s => dsts.any fun d => decide (s.1 < d.1 + d.2) && decide (d.1 < s.1 + s.2)) then 0x42
  else if !(srcs.all fun r => if sl then m.dmaReadable r.1 r.2 || regOk r else m.inSlice (fabMod c.src) && mapped r.1 r.2) ||
      !(dsts.all fun r => if dl then m.dmaWritable r.1 r.2 || regOk r else m.inSlice (fabMod c.dst) && mapped r.1 r.2) then 0x43
  else 0

/-- Whether an end of a COPY is reached by packets: another module, or register space (R457). -/
def Mod.byPacket (m : Mod) (fa : Nat) : Bool := fabMod fa != m.id || decide (regBase ≤ fabLocal fa)

/-- One row moved; false when a unit read or merged is uncorrectable. -/
def Mod.copyRow (m : Mod) (n q : Nat) (d : Desc) (c : CopyD) (i : Nat) : Mod × Bool :=
  let s := c.src + i * c.sp
  let t := c.dst + i * c.dp
  if m.byPacket s then (m.remoteRead n q d (c.rowBytes + 1) s t c.rowBytes, true)
  else
    match m.load (By.core n d.tag) (fabLocal s) c.rowBytes with
    | (m, none) => (m, false)
    | (m, some bs) =>
      let m := m.count (CORE.SN_DMA_BYTES_LO.o n) c.rowBytes
      if m.byPacket t then (m.queueWrites n q d (bs.length + 1) t bs, true)
      else m.store (By.core n d.tag) (fabLocal t) bs

def Mod.copyRowsFrom (m : Mod) (n q : Nat) (d : Desc) (c : CopyD) : List Nat → Mod × Bool
  | [] => (m, true)
  | i :: rest =>
    match m.copyRow n q d c i with
    | (m, false) => (m, false)
    | (m, true) => Mod.copyRowsFrom m n q d c rest

/-- COPY moves its rows, or waits for Stalk granules that it may not write yet (R197); data that comes from another module is judged as it
lands. Rows to another module end at the first one that
cannot be read; the last WRITE of those before it carries `LAST` (R179). -/
def Mod.copyGo (m : Mod) (n q : Nat) (d : Desc) : Mod :=
  let c := copyDesc d.bytes
  let dsts := if fabMod c.dst = m.id ∧ !m.byPacket c.src then copyRows c.dst c.dp c.rows c.rowBytes else []
  if d.stopped then m.endDesc n q d 0
  else if m.stalkHeld n q d dsts then m.mapDesc n q d.num fun x => { x with wait := 1 }
  else
    let m := m.mapDesc n q d.num fun x => { x with wait := 0, issued := true }
    match (m.fillGranules d.tag dsts).copyRowsFrom n q d c (List.range c.rows) with
    | (m, ok) =>
      let m := if m.byPacket c.src then m else m.sendHeld n q d true
      (if ok then m else m.noteStatus n q d.num 0x44).endIfDone n q d.num

def Mod.runCopy (m : Mod) (n q : Nat) (z : Noise) : Mod :=
  match (if m.dmaHeld n then none else m.running n q 0x20) with
  | none => m
  | some d =>
    let c := copyDesc d.bytes
    match m.copyCheck c with
    | 0 =>
      match m.badGranule d.tag (m.dmaReads d.bytes) with
      | some g => m.refuseStalk n q d g
      | none =>
        (m.strike z).copyGo n q d
    | st => m.endDesc n q d st

/-- Read data of a COPY lands at a fabric address of this module: its granules become FILLED, or it waits for them (R197). -/
def Mod.landData (m : Mod) (n q : Nat) (d : Desc) (fa : Nat) (bs : List Byte) : Mod :=
  let r := [(fabLocal fa, bs.length)]
  if m.stalkHeld n q d r then { m with heldWrites := m.heldWrites ++ [⟨n, q, d.num, fa, bs, true⟩] }
  else
    match (m.fillGranules d.tag r).store (By.core n d.tag) (fabLocal fa) bs with
    | (m, true) => m
    | (m, false) => m.noteStatus n q d.num 0x44

/-- A waiting Stalk write goes on once no read of the other tag is outstanding (R197): a COPY that has not begun, whose reads are judged
then (R198), and read data that waited as it landed. -/
def Mod.stalkRelease (m : Mod) (n q : Nat) : Mod :=
  let m := match m.waiter n q 1 with
    | none => m
    | some d => match m.badGranule d.tag (m.dmaReads d.bytes) with
      | some g => m.refuseStalk n q d g
      | none => m.copyGo n q d
  (m.heldWrites.filter fun h => h.core == n && h.q == q && h.lands).foldl (fun m h =>
    match (m.queue n q).taken.find? (·.num == h.num) with
    | some d => (({ m with heldWrites := m.heldWrites.erase h }).landData n q d h.dest h.bytes).endIfDone n q h.num
    | none => { m with heldWrites := m.heldWrites.erase h }) m

/-! ## SKEW (R181) -/

def Mod.skewCheck (m : Mod) (d : SkewD) : Nat :=
  let line := d.k * d.w
  if d.v.rsv ≠ 0 ∨ d.rsv ≠ 0 ∨ d.fmt = 7 ∨ 4 < d.psl ∨ d.lanes = 3 ∨ d.m = 0 ∨ 512 < d.m ∨
      (d.fmt < 2 ∧ (d.v.sbase ≠ 0 ∨ d.asBase ≠ 0)) then 0x40
  else if (d.mask ∧ d.aBase = 0) ∨ lsSize < d.aBase * 64 + blockBytes (d.m + d.rs - 1) line ∨
      (2 ≤ d.fmt ∧ lsSize < d.asBase * 64 + d.m * d.nb) then 0x42
  else if !((d.rowReads ++ (List.range d.m).flatMap d.scaleReads).all fun r => m.dmaReadable r.1 r.2) then 0x43
  else if d.v.epitch % 16 ≠ 0 ∨ (2 ≤ d.fmt ∧ (d.baxis ≠ d.trans ∨
      (if d.trans = 0 then d.v.col0 else d.v.row0) % 32 ≠ 0)) then 0x41
  else 0

/-- The code of A[i][k], from the source rows read as numbers shifted to their first element. -/
def SkewD.elem (d : SkewD) (rows : List Nat) (i k : Nat) : Nat :=
  if d.trans = 0 then elemAt d.w (rows.getD i 0) k else elemAt d.w (rows.getD k 0) i

/-- Line t of the skewed block (R72), zero in padding. -/
def SkewD.line (d : SkewD) (rows : List Nat) (t : Nat) : Nat :=
  (List.range d.rs).foldl (fun acc r =>
    if r ≤ t ∧ t - r < d.m then
      (List.range d.ps).foldl (fun acc j => acc + d.elem rows (t - r) (d.ps * r + j) * 2 ^ (d.w * (d.ps * r + j))) acc
    else acc) 0

/-- Whether a row is zero throughout, of either sign, with no 0xFF scale (R136). -/
def SkewD.zeroRow (d : SkewD) (rows : List Nat) (scales : List Nat) (i : Nat) : Bool :=
  (List.range d.k).all (fun k => d.elem rows i k % 2 ^ (d.w - 1) == 0) && scales.all (· != 255)

/-- Source rows as numbers whose bit 0 is the first element's. -/
def shiftRows (b j : Nat) (bs : List (List Byte)) : List Nat := bs.map fun x => leNat x / 2 ^ (b * j % 8)

/-- What a skew conversion writes of the rows and scales it has read (R181): the skewed block, the scales, and the zero mask. -/
def Mod.skewWrite (m : Mod) (n q : Nat) (e : Desc) (d : SkewD) (raw sc : List (List Byte)) : Mod :=
  let rows := shiftRows d.w d.v.col0 raw
  let scales := (List.range d.m).map fun i => ((sc.drop (i * d.nb)).take d.nb).map leNat
  let lineBits := d.k * d.w
  let lines := d.m + d.rs - 1
  let block := (List.range lines).flatMap fun t =>
    leBytes (if t + 1 = lines then bytesOf lineBits else pitchOf lineBits) (d.line rows t)
  let out := [(lsAddr n (d.aBase * 64), block)] ++
    (if 2 ≤ d.fmt then [(lsAddr n (d.asBase * 64), sc.flatten)] else []) ++
    (if d.mask then [(lsAddr n (d.aBase * 64 - 64),
      leBytes 64 (bitsOf d.m fun i => d.zeroRow rows (if d.fmt < 2 then [] else scales.getD i []) i))] else [])
  match m.stores (By.core n e.tag) out with
  | (m, true) => (m.count (CORE.SN_DMA_BYTES_LO.o n) (out.map (·.2.length)).sum).endDesc n q e 0
  | (m, false) => m.endDesc n q e 0x44

def Mod.runSkew (m : Mod) (n q : Nat) : Mod :=
  match (if m.dmaHeld n then none else m.running n q 0x21) with
  | none => m
  | some e =>
    let d := skewDesc e.bytes
    let by_ := By.core n e.tag
    match m.skewCheck d with
    | 0 =>
      match m.badGranule e.tag (m.dmaReads e.bytes) with
      | some g => m.refuseStalk n q e g
      | none =>
        match m.loads by_ d.rowReads with
        | (m, none) => m.endDesc n q e 0x44
        | (m, some raw) =>
          match m.loads by_ ((List.range d.m).flatMap d.scaleReads) with
          | (m, none) => m.endDesc n q e 0x44
          | (m, some sc) =>
            m.skewWrite n q e d raw sc
    | st => m.endDesc n q e st

/-! ## WEIGHT (R182) -/

def Mod.weightCheck (m : Mod) (d : WeightD) : Nat :=
  let wBits := d.cs * d.pe * d.w
  let mBits := d.cs * d.pe * 2
  if d.v.rsv ≠ 0 ∨ d.rsv ≠ 0 ∨ d.fmt = 7 ∨ d.wop = 3 ∨ d.pel = 3 ∨ d.sl = 3 ∨ d.lanes = 3 ∨
      (d.fmt < 2 ∧ (d.v.sbase ≠ 0 ∨ d.wsBase ≠ 0)) ∨ (!d.sparse ∧ d.metaOut ≠ 0) ∨
      ((d.sl = 0 ∨ d.wop = 1) ∧ (d.mbase ≠ 0 ∨ d.mpitch ≠ 0)) then 0x40
  else if lsSize < d.wBase * 64 + blockBytes d.rs wBits ∨ (2 ≤ d.fmt ∧ lsSize < d.wsBase * 64 + d.nb * d.cs) ∨
      (d.sparse ∧ lsSize < d.metaOut * 64 + blockBytes d.rs mBits) then 0x42
  else if !((d.rowReads ++ d.metaReads ++ d.scaleReads).all fun r => m.dmaReadable r.1 r.2) then 0x43
  else if d.v.epitch % 16 ≠ 0 ∨ (d.wop = 0 ∧ !(d.baxis == 1 || d.tile)) ∨
      (d.wop = 1 ∧ (!(d.baxis == 0 || d.tile) ∨ d.sl ≠ 0)) ∨ (d.wop = 2 ∧ !d.tile) then 0x41
  else 0

/-- The code of element j of column c in line r of the output, from source rows and metadata rows read as numbers. -/
def WeightD.elem (d : WeightD) (rows metas : List Nat) (r c j : Nat) : Nat :=
  let k := d.pe * r + j
  if d.wop = 0 then elemAt d.w (rows.getD k 0) c
  else if d.wop = 1 then elemAt d.w (rows.getD c 0) k
  else
    let win := d.pe * d.s
    let first := d.v.row0 / win * d.pe
    let i := d.v.row0 + c
    let base := i / win * d.pe - first
    let hits := (List.range d.pe).filterMap fun t =>
      let e := if d.sl = 0 then 0 else elemAt 2 (metas.getD (base + t) 0) k
      if laneElem d.pe d.s t e = i % win then some (elemAt d.w (rows.getD (base + t) 0) k) else none
    match hits with
    | [] => 0
    | [x] => x
    | xs => Config.expandClash xs % 2 ^ d.w

/-- A line of Cs × P_eff elements of `w` bits. -/
def packLine (w count : Nat) (f : Nat → Nat) : Nat :=
  (List.range count).foldl (fun acc i => acc + f i * 2 ^ (w * i)) 0

/-- What a weight conversion writes of the rows, metadata and scales it has read (R182): weight block, scale plane and metadata block. -/
def Mod.weightWrite (m : Mod) (n q : Nat) (e : Desc) (d : WeightD) (raw mraw sc : List (List Byte)) : Mod :=
  let rows := shiftRows d.w d.v.col0 raw
  let metas := shiftRows 2 d.v.col0 mraw
  let per := d.cs * d.pe
  let lines (base w : Nat) (f : Nat → Nat → Nat) : List (Nat × List Byte) :=
    (List.range d.rs).map fun r =>
      (lsAddr n (base * 64 + r * pitchOf (per * w)), leBytes (bytesOf (per * w)) (packLine w per (f r)))
  let out := lines d.wBase d.w (fun r i => d.elem rows metas r (i / d.pe) (i % d.pe)) ++
    (if 2 ≤ d.fmt then [(lsAddr n (d.wsBase * 64), sc.flatten)] else []) ++
    (if d.sparse then lines d.metaOut 2 (fun r i => elemAt 2 (metas.getD (d.pe * r + i % d.pe) 0) (i / d.pe))
     else [])
  match m.stores (By.core n e.tag) out with
  | (m, true) => (m.count (CORE.SN_DMA_BYTES_LO.o n) (out.map (·.2.length)).sum).endDesc n q e 0
  | (m, false) => m.endDesc n q e 0x44

def Mod.runWeight (m : Mod) (n q : Nat) : Mod :=
  match (if m.dmaHeld n then none else m.running n q 0x22) with
  | none => m
  | some e =>
    let d := weightDesc e.bytes
    let by_ := By.core n e.tag
    match m.weightCheck d with
    | 0 =>
      match m.badGranule e.tag (m.dmaReads e.bytes) with
      | some g => m.refuseStalk n q e g
      | none =>
        match m.loads by_ d.rowReads with
        | (m, none) => m.endDesc n q e 0x44
        | (m, some raw) =>
          match m.loads by_ d.metaReads with
          | (m, none) => m.endDesc n q e 0x44
          | (m, some mraw) =>
            match m.loads by_ d.scaleReads with
            | (m, none) => m.endDesc n q e 0x44
            | (m, some sc) =>
              m.weightWrite n q e d raw mraw sc
    | st => m.endDesc n q e st

/-! ## Replies (R176, R302) -/

/-- Whether a reply to a request is late: a rewind has ended it, or its context has another instance (R176). -/
def Mod.reqLate (m : Mod) (r : Req) : Bool := r.dead || r.inst != m.f (CORE.CTX_STAT.INSTANCE r.core r.ctx)

/-- The request that a reply names, one still in force before one that has been ended. -/
def Mod.reqFor (m : Mod) (p : Req → Bool) : Option Req := (m.reqs.find? fun r => !r.dead && p r).orElse fun _ => m.reqs.find? p

/-- READ `r` has its last data or is refused: when no other READ of its COPY is outstanding, the WRITE held back is the last one. -/
def Mod.readEnds (m : Mod) (r : Req) : Mod :=
  let others := (m.reqsOf r.core r.q r.num).any fun x => x.kind == 1 && x != r
  match (m.queue r.core r.q).taken.find? (·.num == r.num) with
  | some d => if r.kind = 1 ∧ !r.dead ∧ !others then m.sendHeld r.core r.q d true else m
  | none => m

/-- Requests are answered: they leave the list, and their context's count falls, unless the reply is late. -/
def Mod.answer (m : Mod) (r : Req) (gone : Req → Bool) : Mod :=
  if m.reqLate r then
    ({ m with reqs := m.reqs.filter fun x => !gone x }).replyLate r.core
  else
    let k := (m.reqs.filter gone).length
    (({ m with reqs := m.reqs.filter fun x => !gone x }).ctxFalls r.core r.ctx k).endIfDone r.core r.q r.num

/-- The requests that a reply to `r` covers: itself, and for a request that asked for an ACK the WRITEs before it. -/
def covers (r x : Req) : Bool :=
  x == r || (r.last && x.core == r.core && x.q == r.q && x.num == r.num && x.dest == r.dest && x.tag == r.tag &&
    x.kind == 0 && r.kind == 0 && x.dead == r.dead && decide (x.seq < r.seq))

/-- An ACK (R303): the request it names, if it still waits. -/
def Mod.takeAck (m : Mod) (p : Pkt) : Mod :=
  let s := infoOf p % 2 ^ 24
  match m.reqFor fun r => r.dest == srcOf p && r.tag == tagOf p && r.seq == s && r.kind != 1 && r.kind != 3 with
  | none => m
  | some r => m.answer r (covers r)

/-- A REFUSED (R302): the descriptor completes with DMA_ADDR, or DMA_DATA for reason 0x06 (R253). -/
def Mod.takeRefused (m : Mod) (p : Pkt) : Mod :=
  let s := infoOf p % 2 ^ 24
  match m.reqFor fun r => r.dest == srcOf p && r.tag == tagOf p && r.seq == s && r.kind != 3 with
  | none => m
  | some r =>
    if m.reqLate r then m.answer r (covers r)
    else
      ((m.noteStatus r.core r.q r.num (if infoOf p / 2 ^ 24 % 256 = 6 then 0x44 else 0x43)).readEnds r).answer r (covers r)

/-- Teardown of a context (R177). The WRITE that a stopped COPY holds back is the one further WRITE, with `LAST`, when WRITEs it has sent
wait for a request for an ACK; else it is not sent. -/
def Mod.teardownCtx (m : Mod) (n c : Nat) : Mod :=
  let m := m.teardown n c
  [0, 1, 2, 3].foldl (fun m q =>
    (m.queue n q).taken.foldl (fun m d =>
      if d.stopped && d.phase == 1 then
        if (m.reqsOf n q d.num).any (·.kind == 0) then m.sendHeld n q d true
        else { m with heldWrites := m.heldWrites.filter fun h => !(h.core == n && h.q == q && h.num == d.num && !h.lands) }
      else m) m) m

/-- A READ_DATA (R302): its bytes land on this module or go on in WRITEs to another, and the READ is answered once all its bytes
have come. -/
def Mod.takeReadData (m : Mod) (p : Pkt) : Mod :=
  let t := infoOf p % 2 ^ 32
  let idx := infoOf p / 2 ^ 32
  match m.reqFor fun r => r.dest == srcOf p && r.tag == tagOf p && r.kind == 1 && r.seq == t % 2 ^ 24 with
  | none => m
  | some r =>
    let k := min r.bytes (min 256 p.payload.length)
    let rest (m : Mod) : Mod := { m with reqs := m.reqs.map fun x => if x = r then { r with bytes := r.bytes - k } else x }
    if m.reqLate r then (if r.bytes ≤ k then m.answer r (· == r) else (rest m).replyLate r.core)
    else
      let bs := p.payload.take k
      let at_ := r.land + 256 * idx
      let m := m.count (CORE.SN_DMA_BYTES_LO.o r.core) k
      let m := match (m.queue r.core r.q).taken.find? (·.num == r.num) with
        | none => m
        | some d =>
          if m.byPacket at_ then (if d.stopped then m else m.queueWrites r.core r.q d (bs.length + 1) at_ bs)
          else m.landData r.core r.q d at_ bs
      if r.bytes ≤ k then (m.readEnds r).answer r (· == r) else rest m

/-- A reply to requests of a context within the module arrives (R176): one of another instance or tag is dropped and counted. -/
def Mod.requestReply (m : Mod) (n c inst gen count : Nat) : Mod :=
  let waiting := m.reqs.filter fun r => r.core == n && r.ctx == c && r.tag == gen && !r.dead
  if inst ≠ m.f (CORE.CTX_STAT.INSTANCE n c) ∨ waiting = [] then m.replyLate n
  else (waiting.take count).foldl (fun m r => m.answer r (· == r)) m

end Sys2Proof.Machine
end

