-- ==== Sys2Proof/Machine/Squash.lean ====
section
/-! DEFINITION. Squash adders (R246–R258): the scatter-add, ADD packets, waiting adds and window clears; and what fabric packets
share: the addresses a stand-in serves (R33) and responses (R301, R302). -/

namespace Sys2Proof.Machine

/-! ## Serving and answering -/

/-- The address at which a range of a packet's destination lies on this module: its own, or under R33 that of the lost identity
it stands in for; none where R33 refuses it. -/
def Mod.servedAt (m : Mod) (dest a n : Nat) : Option Nat :=
  if dest = m.id ∨ m.dup.swapFor = some dest then some a
  else if lsBase ≤ a ∧ (storeOf a n).isSome then some (lsAddr (m.f DUP.LS_CORE.CORE) ((a - lsBase) % lsPitch))
  else
    let lo := m.regionBase 6 + m.pair48 DUP.SW_LOFF_LO.o DUP.SW_LOFF_HI.o
    let size := m.f DUP.SW_SIZE.UNITS * 0x200000
    if lo ≤ a ∧ a + n ≤ lo + size then some (m.pair48 DUP.SW_WIN_LO.o DUP.SW_WIN_HI.o + (a - lo)) else none

/-- A response to a packet (R301, R302), sent as the identity that the packet names. -/
def Mod.respond (m : Mod) (p : Pkt) (typ info : Nat) (payload : List Byte) : Mod :=
  let (m, r) := m.numbered (destOf p) (srcOf p) (tagOf p) clsRSP typ info payload
  m.route r none

def Mod.sendAck (m : Mod) (p : Pkt) : Mod := m.respond p 0 p.seq.toNat []
def Mod.sendRefused (m : Mod) (p : Pkt) (reason : Nat) : Mod := m.respond p 2 (p.seq.toNat + 2 ^ 24 * reason) []

/-! ## Windows -/

/-- Squash kind of a window: 0 none, 1 FLOAT, 2 INT; its exponent WLSB. -/
def Mod.winKind (m : Mod) (w : Nat) : Nat := m.f (MEM.WIN_ATTR.SQUASH w)
def Mod.wlsb (m : Mod) (w : Nat) : Int := signed 9 (m.f (MEM.WIN_ATTR.WLSB w))

/-- Addition to a FLOAT word (R247): the new word, whether the addend was rounded, above the window, or not finite. -/
def addFloat (wlsb : Int) (word : Nat) (x : Num) : Nat × Bool × Bool × Bool :=
  match x with
  | .nan => (word ||| 2 ^ 124, false, false, true)
  | .inf neg => (word ||| 2 ^ (if neg then 126 else 125), false, false, true)
  | .fin neg mt e =>
    let n := rneQuot mt e wlsb
    let exact := if wlsb ≤ e then true else mt % 2 ^ (wlsb - e).toNat == 0
    if 2 ^ 96 ≤ n then (word ||| 2 ^ 127, !exact, true, false)
    else
      let s := word % 2 ^ 124
      let s' := (if neg then s + 2 ^ 124 - n else s + n) % 2 ^ 124
      (word - s + s', !exact, false, false)

/-- The FP32 value of a FLOAT word (R248). -/
def floatValue (wlsb : Int) (word : Nat) : Word :=
  let nan := word.testBit 124
  let pinf := word.testBit 125
  let ninf := word.testBit 126
  if nan || (pinf && ninf) then nan32
  else if pinf then toFP32 (.inf false)
  else if ninf then toFP32 (.inf true)
  else if word.testBit 127 then nan32
  else
    let s := signed 124 word
    toFP32 (.fin (decide (s < 0)) s.natAbs wlsb)

/-- Addition to an INT word (R250). -/
def addInt (afmt word raw : Nat) : Nat :=
  let x := if afmt = 2 then signed 32 raw else signed 64 raw
  (((word : Int) + x) % 2 ^ 64).toNat

/-- One add applied to an element word and counted. -/
def Mod.addWord (m : Mod) (w afmt word raw : Nat) : Mod × Nat :=
  let m := m.count MEM.SN_SQ_ADDS_LO.o 1
  if m.winKind w = 2 then (m, addInt afmt word raw)
  else
    let x := if afmt = 1 then fmtBF16.decode raw else fmtFP32.decode raw
    let (v, rounded, out, nonfin) := addFloat (m.wlsb w) word x
    let m := if rounded then m.count MEM.SN_SQ_ROUNDED_LO.o 1 else m
    let m := if out then m.count MEM.SN_SQ_OUT_LO.o 1 else m
    (if nonfin then m.count MEM.SN_SQ_NONFIN_LO.o 1 else m, v)

/-! ## Applying adds (R253, R254) -/

/-- The memory side's own accesses. -/
def By.side (tag : Option Nat) : By := ⟨3, tag, 3, 128⟩

/-- Room for a line in the merge buffer of a stack: with its 1024 lines taken one is evicted and written back. Which one the manual leaves
open (R254). -/
def Mod.mergeRoom (m : Mod) (s : Nat) : Mod :=
  let mine := m.memside.merge.filter fun v => stackOf (64 * v) == s
  if mine.length < 1024 then m
  else
    let (m, k) := m.fresh
    let v := mine.getD (Config.freeNat k % mine.length) 0
    ((m.mside fun x => { x with merge := x.merge.erase v }).sinkUnit (By.side none) v (m.unitBytes v)).1

/-- The access units of element addresses, each once. -/
def Mod.addUnits (m : Mod) (adds : List (Nat × Nat)) : List Nat :=
  (adds.map fun a => m.viewed (a.1 - a.1 % 64) / 64).dedup

/-- The lines of the units come into the merge buffers. A miss reads its unit as the adders see it from then on; one that is uncorrectable
raises UE (R270), brings no line in, and is answered. -/
def Mod.mergeLines (m : Mod) (b : By) : List Nat → Mod × List Nat
  | [] => (m, [])
  | u :: us =>
    if m.memside.merge.contains u then Mod.mergeLines m b us
    else
      let m := (m.awaitSlot u).traffic (By.side none) u MEM.SN_RD_BYTES_LO.o 64
      let m := m.count MEM.SN_SQ_MISS_LO.o 1
      match m.senseUnit u with
      | (m, some bs, c) =>
        let m := if c then ({ m with mem := putBytes byte0 m.mem (64 * u) bs }).corrected u bs else m
        Mod.mergeLines ((m.mergeRoom (stackOf (64 * u))).mside fun x => { x with merge := u :: x.merge }) b us
      | (m, none, _) =>
        let (m, bad) := Mod.mergeLines (m.ueUnit b u) b us
        (m, u :: bad)

/-- One add applied in memory. -/
def Mod.addOne (m : Mod) (w afmt : Nat) (a : Nat × Nat) : Mod :=
  let e := elemWidth afmt
  let at_ := m.viewed (a.1 - a.1 % 64) + a.1 % 64
  let (m, v) := m.addWord w afmt (leNat (getBytes byte0 m.mem at_ e)) a.2
  ({ m with mem := putBytes byte0 m.mem at_ (leBytes e v) }).setUnitErr (at_ / 64) []

/-- Addends on their way to a stack of the other compute die cross the C0–C1 link (R240, R259; log entry 99). -/
def Mod.addsCross (m : Mod) (die afmt : Nat) (adds : List (Nat × Nat)) : Mod :=
  let far := adds.filter fun a => farFrom die (m.viewed (a.1 - a.1 % 64) / 64)
  if far.isEmpty then m else m.count MEM.SN_FAR_BYTES_LO.o (far.length * addWidth afmt)

/-- The adds of a packet or descriptor, as element address and addend; false when a unit is uncorrectable: then each add to
another unit may or may not have been applied (R253). -/
def Mod.applyAdds (m : Mod) (b : By) (w afmt : Nat) (adds : List (Nat × Nat)) : Mod × Bool :=
  let us := m.addUnits adds
  match (m.addsCross b.die afmt adds).mergeLines b us with
  | (m, []) =>
    let m := adds.foldl (fun m a => m.addOne w afmt a) m
    (us.foldl (fun m u => m.progress (128 + stackOf (64 * u))) m, true)
  | (m, bad) =>
    (adds.foldl (fun m a =>
      if bad.contains (m.viewed (a.1 - a.1 % 64) / 64) then m
      else
        let (m, k) := m.fresh
        if Config.freeBit k then m.addOne w afmt a else m) m, false)

/-- Checks 3 and 4 of R252 on a range of elements: the window, or the reason that refuses it (0x03, 0x04). An add never reaches a Stalk
byte, whatever window lies over it: reason 0x01 (R196). -/
def Mod.addWindow (m : Mod) (a n afmt : Nat) : Nat ⊕ Nat :=
  if m.touchesStalk a n then .inr 1
  else match (if m.is MEM.CFG.SQ_EN then m.winAt a n else none) with
  | none => .inr 3
  | some w =>
    if m.winKind w = 0 ∨ (a - m.winBase w) % elemWidth afmt ≠ 0 then .inr 3
    else if (m.winKind w == 1) != decide (afmt < 2) then .inr 4
    else .inl w

/-- Whether an add's tag is late: a step whose stage 6 has begun or that is released, or another attempt (R256). -/
def Mod.addLate (m : Mod) (g : Nat) : Bool :=
  m.sixBegun (m.tagStep g) || decide (m.tagStep g < m.steps.released) || g % 16 != m.attempt (m.tagStep g)

/-- Adds dropped as late (R256). -/
def Mod.lateAdds (m : Mod) (w n : Nat) : Mod := (m.count MEM.SN_SQ_LATE_LO.o n).raiseMEM 2 [(MEM.EVT_INFO.WIN, w)]

/-- What becomes of adds to a window: 0 applied, 1 late, 2 wait. A FREE step-tagged window opens (R256). -/
def Mod.addAdmission (m : Mod) (w g : Nat) : Mod × Nat :=
  if !m.is (MEM.WIN_ATTR.STEPTAG w) then (m, 0)
  else if m.addLate g then (m, 1)
  else if !m.is (MEM.WIN_STAT.OPEN w) then (m.sets [(MEM.WIN_STAT.OPEN w, 1), (MEM.WIN_STAT.TAG w, g)], 0)
  else if m.f (MEM.WIN_STAT.TAG w) = g then (m, 0) else (m, 2)

/-! ## The scatter-add (R251–R254) -/

structure ScatterD where
  dst : Nat
  idx : Nat
  val : Nat
  n : Nat
  vpitch : Nat
  rowlen : Nat
  afmt : Nat
  dpitch : Nat
  limit : Nat
  rsv : Nat
deriving DecidableEq, Repr

def scatterDesc (bs : List Byte) : ScatterD :=
  ⟨dfield bs 8 8, dbits bs 16 15 0, dbits bs 16 31 16, dbits bs 20 15 0, dbits bs 20 31 16, dbits bs 24 13 0, dbits bs 24 15 14,
   dfield bs 28 4, dfield bs 32 4, dfield bs 8 8 / 2 ^ 61 + dbits bs 24 31 16 + dfield bs 36 28⟩

/-- The indices and value rows of a scatter-add. -/
def Mod.scatterAdds (m : Mod) (n tag : Nat) (d : ScatterD) (ids : List Nat) : Mod × Option (List (List Nat)) :=
  let w := addWidth d.afmt
  match m.loads (By.core n tag) ((List.range ids.length).map fun i => (lsAddr n (d.val * 64 + i * d.vpitch * 64), d.rowlen * w)) with
  | (m, none) => (m, none)
  | (m, some rows) => (m, some (rows.map fun r => (pieces w d.rowlen r).map leNat))

/-- Local adds of a scatter-add: applied, waiting or late. -/
def Mod.scatterLocal (m : Mod) (n q : Nat) (e : Desc) (d : ScatterD) (w : Nat) (adds : List (Nat × Nat)) : Mod :=
  match m.addAdmission w e.tag with
  | (m, 1) => (m.lateAdds w adds.length).endDesc n q e 0x43
  | (m, 2) =>
    ((m.mapDesc n q e.num fun x => { x with wait := 2 }).hubTaken n e).mside fun s =>
      { s with waitAdds := s.waitAdds ++ [⟨w, n, q, none, n / 64, (adds.map fun x => stackOf x.1).dedup, e.tag⟩] }
  | (m, _) =>
    match m.applyAdds (By.core n e.tag) w d.afmt adds with
    | (m, true) => m.endDesc n q e 0
    | (m, false) => m.endDesc n q e 0x44

/-- The ADD packets of a row (R304): first element address and the addends of each, at most 256 bytes of them. -/
def addPackets (a afmt : Nat) (row : List Nat) : List (Nat × List Nat) :=
  let per := 256 / addWidth afmt
  ((pieces per ((row.length + per - 1) / per) row).zipIdx).map fun e => (a + e.2 * per * elemWidth afmt, e.1)

/-- Rows of a scatter-add to another module, as marked ADD packets that each ask for an ACK (R253). -/
def Mod.scatterRemote (m : Mod) (n q : Nat) (e : Desc) (d : ScatterD) (rows : List (Nat × List Nat)) : Mod :=
  let m := m.mapDesc n q e.num fun x => { x with issued := true }
  let m := rows.foldl (fun m r =>
    (addPackets r.1 d.afmt r.2).foldl (fun m p =>
      let info := p.1 / 8 + 2 ^ 36 * d.afmt + 2 ^ 38 * (p.2.length - 1) + 2 ^ 45
      let pay := padUnits (p.2.flatMap fun x => leBytes (addWidth d.afmt) x)
      m.request n q e (fabMod d.dst) clsSQ 0 info pay true 2 0 0 true) m) m
  m.endIfDone n q e.num

/-- The scatter-add descriptor with its index list read: R252 in order, then its adds. For another module's memory only what an ADD
packet can name is checked here (log entry 100); the receiver checks each packet. -/
def Mod.scatterGo (m : Mod) (n q : Nat) (e : Desc) (d : ScatterD) (ids : List Nat) : Mod :=
  let here := fabMod d.dst == m.id
  let base := fabLocal d.dst
  let span := (d.limit - 1) * d.dpitch + d.rowlen * elemWidth d.afmt
  let named := base % 8 == 0 && ids.all fun i => decide (base + i * d.dpitch + d.rowlen * elemWidth d.afmt ≤ 2 ^ 39)
  if ids.any (d.limit ≤ ·) then m.endDesc n q e 0x42
  else
    match (if here then m.addWindow base span d.afmt
           else if m.inSlice (fabMod d.dst) ∧ named then .inl 0 else .inr 3) with
    | .inr r => m.endDesc n q e (if r = 4 then 0x41 else 0x43)
    | .inl w =>
      match m.scatterAdds n e.tag d ids with
      | (m, none) => m.endDesc n q e 0x44
      | (m, some vals) =>
        let rows := (ids.zip vals).map fun r => (base + r.1 * d.dpitch, r.2)
        if here then
          m.scatterLocal n q e d w (rows.flatMap fun r => (r.2.zipIdx).map fun x => (r.1 + x.2 * elemWidth d.afmt, x.1))
        else m.scatterRemote n q e d rows

def Mod.scatterDescGo (m : Mod) (n q : Nat) (e : Desc) : Mod :=
  let d := scatterDesc e.bytes
  if d.rsv ≠ 0 ∨ d.n = 0 ∨ d.rowlen = 0 ∨ d.limit = 0 ∨ d.dpitch % elemWidth d.afmt ≠ 0 then m.endDesc n q e 0x40
  else if lsSize < d.idx * 64 + 4 * d.n ∨ lsSize < d.val * 64 + (d.n - 1) * d.vpitch * 64 + d.rowlen * addWidth d.afmt then
    m.endDesc n q e 0x42
  else
    match m.load (By.core n e.tag) (lsAddr n (d.idx * 64)) (4 * d.n) with
    | (m, none) => m.endDesc n q e 0x44
    | (m, some bs) => m.scatterGo n q e d ((pieces 4 d.n bs).map leNat)

def Mod.runScatter (m : Mod) (n q : Nat) : Mod :=
  if m.dmaHeld n then m
  else match m.running n q 0x23 with
    | none => m
    | some e => m.scatterDescGo n q e

/-! ## ADD packets (R253, R256, R257) -/

/-- A squash packet refused at its receiver: SQ_REFUSED, the answer, and a fault of its step (R538). -/
def Mod.refuseAdd (m : Mod) (p : Pkt) (reason : Nat) : Mod :=
  ((m.raiseMEM 1 [(MEM.EVT_INFO.MODULE, srcOf p)]).sendRefused p reason).fault (some (tagOf p)) 2

/-- An ADD packet whose tag names no live attempt opens no window and never waits: one to a step-tagged window is counted as late and
answered with reason 0x05 (R256); any other is dropped. -/
def Mod.dropAdd (m : Mod) (p : Pkt) : Mod :=
  let cnt := addCount (infoOf p)
  let n := cnt * elemWidth (addFmt (infoOf p))
  match m.servedAt (destOf p) (8 * addElem (infoOf p)) n with
  | none => m
  | some a =>
    match m.addWindow a n (addFmt (infoOf p)) with
    | .inr _ => m
    | .inl w => if m.is (MEM.WIN_ATTR.STEPTAG w) then (m.lateAdds w cnt).sendRefused p 5 else m

/-- An ADD packet is applied, held, dropped as late or refused. `port` is where it came in. DESIGN CHOICE (log entry 98): an address that
R33 does not serve, or of the Stalk, is refused with reason 0x01 (protection, R302), any other address outside a valid squash window with
0x03, also where R32 protects its region. -/
def Mod.takeAdd (m : Mod) (port : Nat) (p : Pkt) : Mod :=
  let i := infoOf p
  let fmt := addFmt i
  let cnt := addCount i
  match m.servedAt (destOf p) (8 * addElem i) (cnt * elemWidth fmt) with
  | none => m.refuseAdd p 1
  | some a =>
    match m.addWindow a (cnt * elemWidth fmt) fmt with
    | .inr r => m.refuseAdd p r
    | .inl w =>
      match m.addAdmission w (tagOf p) with
      | (m, 1) => (m.lateAdds w cnt).sendRefused p 5
      | (m, 2) => m.mside fun s => { s with waitAdds := s.waitAdds ++ [⟨w, 0, 0, some (port, p), stackOf a / 4,
        (List.range 8).filter fun s => stackUnits s a (cnt * elemWidth fmt) != 0, tagOf p⟩] }
      | (m, _) =>
        match m.applyAdds (By.hub (some (tagOf p))) w fmt
            (((pieces (addWidth fmt) cnt p.payload).zipIdx).map fun x => (a + x.2 * elemWidth fmt, leNat x.1)) with
        | (m, true) => if addLast i then m.sendAck p else m
        | (m, false) => m.sendRefused p 6

/-- One add that waited is tried again. -/
def Mod.retryAdd (m : Mod) (a : WaitAdd) : Mod :=
  match a.remote with
  | some (port, p) => m.takeAdd port p
  | none =>
    match m.waiter a.core a.q 2 with
    | some e => ((m.hubDone a.core a.q e.num).mapDesc a.core a.q e.num fun x => { x with wait := 0 }).scatterDescGo a.core a.q { e with wait := 0 }
    | none => m

/-- A step-tagged window is FREE: adds that waited on it open it and are applied, in the order they came (R256). -/
def Mod.releaseAdds (m : Mod) (w : Nat) : Mod :=
  if m.is (MEM.WIN_STAT.OPEN w) then m
  else
    let l := m.memside.waitAdds.filter (·.win == w)
    l.foldl Mod.retryAdd (m.mside fun s => { s with waitAdds := s.waitAdds.filter (·.win != w) })

/-- SQ_EN is cleared: every add that waits is refused (R257). -/
def Mod.refuseWaiting (m : Mod) : Mod :=
  let l := m.memside.waitAdds
  l.foldl (fun m a => match a.remote with
    | some (_, p) => m.refuseAdd p 3
    | none => match m.waiter a.core a.q 2 with
      | some e => (m.hubDone a.core a.q e.num).endDesc a.core a.q e 0x43
      | none => m) (m.mside fun s => { s with waitAdds := [] })

/-- Bytes that a die's hold buffer has in use (R257). -/
def Mod.holdUsed (m : Mod) (die : Nat) : Nat :=
  (m.memside.waitAdds.map fun a => match a.remote with
    | some (_, p) => if a.die = die then 16 * pktSize p else 0
    | none => 0).sum

/-- Squash-class units granted on all ports and not yet received. -/
def Mod.squashGranted (m : Mod) : Nat :=
  ((List.range 8).map fun p =>
    (tget (fun _ => 0) (m.port p).clSent clsSQ + 65536 - tget (fun _ => 0) (m.port p).got clsSQ) % 65536).sum

/-- Whether a hold buffer is full (R257). -/
def Mod.holdFull (m : Mod) : Bool :=
  [0, 1].any fun d => decide (0x100000 < m.holdUsed d + 16 * m.squashGranted + 272)

/-- A window is cleared by WIN_CTL.CLEAR (R259). -/
def Mod.clearWindow (m : Mod) (w : Nat) : Mod := m.zeroWindow (m.winBase w) (m.winSize w)

end Sys2Proof.Machine
end

