-- ==== Sys2Proof/Machine/Update.lean ====
section
/-! DEFINITION. The memory-side update: stage 6 (R202–R215), its tables and table writes (R99–R114, R216), and its votes
(R223–R231). -/

namespace Sys2Proof.Machine

def Mod.updOf (m : Mod) (f : Upd → Upd) : Mod := { m with upd := f m.upd }
def Mod.hltOf (m : Mod) (f : Health → Health) : Mod := { m with health := f m.health }

/-! ## Tables (R112, R205) -/

/-- A layer entry. -/
structure LayerE where
  lr : Int
  mo1 : Int
  mo2 : Int
  wfmt : Nat
  grec : Nat
deriving DecidableEq, Repr

def layerOf (w : Nat) : LayerE :=
  ⟨signed 8 w, signed 8 (bits w 15 8), signed 8 (bits w 23 16), bits w 25 24, bits w 47 32⟩

/-- Whether an entry keeps R112. -/
def layerOk (w : Nat) : Bool :=
  let l := layerOf w
  decide (-32 ≤ l.lr) && decide (l.lr ≤ 31) && decide (-64 ≤ l.mo1) && decide (l.mo1 ≤ 63) && decide (-64 ≤ l.mo2) &&
    decide (l.mo2 ≤ 63) && decide (l.wfmt < 2) && bits w 31 26 == 0 && bits w 63 48 == 0 && decide (l.grec < 4096)

/-- Offsets of the tables in a region. -/
def Mod.layerOff (m : Mod) (i : Nat) : Nat := m.f UPD.LAYER_TBL.OFF * 0x1000 + 8 * i
def Mod.hdrOff (m : Mod) : Nat := m.f UPD.HDR.OFF * 0x1000
def Mod.listOff (m : Mod) : Nat := m.f UPD.LIST.OFF * 0x1000
def Mod.layerN (m : Mod) : Nat := m.f UPD.LAYER_N.COUNT
def Mod.listN (m : Mod) : Nat := m.f UPD.LIST_N.COUNT

/-- The update header's length: 16 rule sets and 64 rebase notes (R205, R218). -/
def hdrBytes : Nat := 784

/-- The ranges that the latch reads, by region offset (R207). -/
def Mod.latchRanges (m : Mod) : List (Nat × Nat) :=
  [(m.layerOff 0, 8 * m.layerN), (m.recAddr 0, 8 * 4096), (m.hdrOff, hdrBytes)]

/-- A number in a latched or stored region. -/
def regNat (t : Tbl Byte) (off n : Nat) : Nat := leNat (getBytes byte0 t off n)

/-- A layer entry, a record and a header word of a latch. -/
def Mod.layerIn (m : Mod) (t : Tbl Byte) (i : Nat) : Nat := regNat t (m.layerOff i) 8
def Mod.recIn (m : Mod) (t : Tbl Byte) (r : Nat) : Nat := regNat t (m.recAddr r) 8
def Mod.hdrWord (m : Mod) (t : Tbl Byte) (o : Nat) : Num := num32 (BitVec.ofNat 32 (regNat t (m.hdrOff + o) 4))

/-- Valid rebase notes: note, layer, moment (0 first, 1 second), old offset (R205). -/
def Mod.notesIn (m : Mod) (t : Tbl Byte) : List (Nat × Nat × Nat × Int) :=
  (List.range 64).filterMap fun n =>
    let w := regNat t (m.hdrOff + 272 + 8 * n) 8
    if w.testBit 13 then some (n, w % 4096, bits w 12 12, signed 8 (bits w 23 16)) else none

/-! ## The update list (R202, R203) -/

structure TEnt where
  rule : Nat
  rset : Nat
  ccopy : Bool
  sparse : Nat
  freeze : Nat
  gsrc : Bool
  layer : Nat
  rows : Nat
  cols : Nat
  hi : Nat
  res : Nat
  mom1 : Nat
  mom2 : Nat
  cc : Nat
  ccs : Nat
  meta_ : Nat
  fmap : Nat
  grad : Nat
  gradp : Nat
  rsv : Nat
deriving DecidableEq, Repr

/-- A tensor entry. Bits [63:48] of `GRAD` and `GRADP`, which R202 names nowhere, are taken as reserved, so that they must be zero (DESIGN
CHOICE, log entry 116). -/
def tentOf (bs : List Byte) : TEnt where
  rule := dbits bs 0 1 0
  rset := dbits bs 0 5 2
  ccopy := dbits bs 0 6 6 == 1
  sparse := dbits bs 0 8 7
  freeze := dbits bs 0 10 9
  gsrc := dbits bs 0 11 11 == 1
  layer := dbits bs 0 27 16
  rows := dfield bs 4 4
  cols := dbits bs 8 23 0
  hi := dbits bs 12 29 0
  res := dbits bs 16 29 0
  mom1 := dbits bs 20 29 0
  mom2 := dbits bs 24 29 0
  cc := dbits bs 28 29 0
  ccs := dbits bs 32 29 0
  meta_ := dbits bs 36 29 0
  fmap := dbits bs 40 29 0
  grad := dfield bs 48 6
  gradp := dfield bs 56 6
  rsv := dbits bs 0 15 12 + dbits bs 0 31 28 + dbits bs 8 31 24 + ((List.range 8).map fun i => dbits bs (12 + 4 * i) 31 30).sum +
    dfield bs 44 4 + dfield bs 54 2 + dfield bs 62 2

/-- S of SPARSE. -/
def TEnt.s (e : TEnt) : Nat := if e.sparse = 1 then 2 else if e.sparse = 2 then 4 else 1

/-- A field that breaks R202. -/
def TEnt.bad (e : TEnt) : Bool :=
  e.rsv != 0 || e.sparse == 3 || e.freeze == 3 || (e.sparse != 0 && !e.ccopy) || e.rows == 0 || e.rows % 32 != 0 ||
    e.cols == 0 || e.cols % 32 != 0 || (e.rule == 0 && e.mom1 != 0) || (e.rule != 2 && e.mom2 != 0) ||
    (!e.ccopy && (e.cc != 0 || e.ccs != 0)) || (e.sparse == 0 && e.meta_ != 0) || (e.freeze == 0 && e.fmap != 0)

/-- Bits of the freeze map (R203). -/
def TEnt.mapBits (e : TEnt) : Nat :=
  if e.freeze = 1 then e.rows else if e.freeze = 2 then e.rows / 32 * (e.cols / 32) else 0

/-- Whether an element is frozen by a map read as a number (R203). -/
def TEnt.frozen (e : TEnt) (map i j : Nat) : Bool :=
  if e.freeze = 1 then map.testBit i else if e.freeze = 2 then map.testBit (i / 32 * (e.cols / 32) + j / 32) else false

/-- Bits of a compute-copy element (R112). -/
def wbitsOf (wfmt : Nat) : Nat := if wfmt = 1 then 4 else 8
def wfmtOf (wfmt : Nat) : Fmt := if wfmt = 1 then fmtE2M1 else fmtE4M3

/-- Planes of an entry by region offset and length (R202). -/
def TEnt.planes (e : TEnt) (wfmt : Nat) : List (Nat × Nat) :=
  let n := e.rows * e.cols * 2
  [(64 * e.hi, n), (64 * e.res, n)] ++ (if e.rule = 0 then [] else [(64 * e.mom1, n)]) ++
    (if e.rule = 2 then [(64 * e.mom2, n)] else []) ++
    (if e.ccopy then [(64 * e.cc, e.rows / e.s * (e.cols * wbitsOf wfmt / 8)), (64 * e.ccs, e.rows / 32 * e.cols)] else []) ++
    (if e.sparse = 0 then [] else [(64 * e.meta_, e.rows / e.s * (e.cols / 4))]) ++
    (if e.freeze = 0 then [] else [(64 * e.fmap, (e.mapBits + 7) / 8)])

def overlap (a b : Nat × Nat) : Bool := decide (a.1 < b.1 + b.2) && decide (b.1 < a.1 + a.2)

/-- Whether a gradient range lies in the Stalk and workspace region outside the Stalk. -/
def Mod.gradOk (m : Mod) (a n : Nat) : Bool := m.inWork a n

/-- Whether a range lies in one valid FLOAT window. -/
def Mod.inFloat (m : Mod) (a n : Nat) : Bool := (m.winAt a n).any fun w => m.winKind w == 1

/-- The checks of R206 on one entry, apart from overlaps. -/
def Mod.entryBad (m : Mod) (lat : Tbl Byte) (e : TEnt) : Bool :=
  let lw := m.layerIn lat e.layer
  let rc := e.rows * e.cols
  e.bad || decide (m.layerN ≤ e.layer) || !layerOk lw || !recOk (m.recIn lat (layerOf lw).grec) ||
    ((e.planes (layerOf lw).wfmt).any fun p => decide (m.extent < p.1 + p.2)) ||
    !m.gradOk e.grad (rc * if e.gsrc then 16 else 4) || !m.gradOk e.gradp (rc * 4) ||
    (e.gsrc && !m.inFloat e.grad (rc * 16))

/-- The entries of the update list. -/
def Mod.listIn (m : Mod) (t : Tbl Byte) : List TEnt :=
  (List.range m.listN).map fun i => tentOf (getBytes byte0 t (m.listOff + 64 * i) 64)

/-- Planes of an entry under a latch. -/
def Mod.planesOf (m : Mod) (lat : Tbl Byte) (e : TEnt) : List (Nat × Nat) := e.planes (layerOf (m.layerIn lat e.layer)).wfmt

/-- Whether a range of a region lies in the ranges that a fill has received. -/
def filledIn (got : List (Nat × Nat × Nat)) (target : Nat) (p : Nat × Nat) : Bool :=
  got.any fun g => g.1 == target && decide (g.2.1 ≤ p.1) && decide (p.1 + p.2 ≤ g.2.2)

/-- The entries on which stage 6 works in a region: while the module is the target of a re-mirroring, those whose planes have all
arrived (R380). -/
def Mod.ready6 (m : Mod) (lat : Tbl Byte) (target : Nat) (l : List TEnt) : List TEnt :=
  if m.dup.rmIn = 3 then l.filter fun e => (m.planesOf lat e).all (filledIn m.dup.rmGot target) else l

/-- Whether two planes of an entry, or one of it and one of an earlier entry, overlap (R204). -/
def Mod.entryClash (m : Mod) (lat : Tbl Byte) (before : List TEnt) (e : TEnt) : Bool :=
  let ps := (m.planesOf lat e).zipIdx
  ps.any (fun p => ps.any fun q => decide (p.2 < q.2) && overlap p.1 q.1) ||
    before.any fun f => (m.planesOf lat f).any fun q => ps.any fun p => overlap p.1 q

/-- The first entry that fails the check of R206. -/
def Mod.listBad (m : Mod) (lat : Tbl Byte) (l : List TEnt) : Option Nat :=
  (List.range l.length).find? fun i => match l[i]? with
    | some e => m.entryBad lat e || m.entryClash lat (l.take i) e
    | none => false

/-! ## Elements and gradients -/

/-- Kept weights of an entry as kept row, column and row (R130, R182 with P_eff 2); every element of a dense one. -/
def TEnt.kept (e : TEnt) (lat : Tbl Byte) : List (Nat × Nat × Nat) :=
  if e.sparse = 0 then (List.range e.rows).flatMap fun i => (List.range e.cols).map fun j => (i, j, i)
  else (List.range (e.rows / e.s)).flatMap fun ip => (List.range e.cols).map fun j =>
    let b := regNat lat (64 * e.meta_ + ip * (e.cols / 4) + j / 4) 1
    (ip, j, 2 * e.s * (ip / 2) + laneElem 2 e.s (ip % 2) (bits b (2 * (j % 4) + 1) (2 * (j % 4))))

/-- The freeze map as a number. -/
def TEnt.mapIn (e : TEnt) (lat : Tbl Byte) : Nat := regNat lat (64 * e.fmap) ((e.mapBits + 7) / 8)

/-- Elements that the step updates, by row and column: unfrozen and unpruned, of an entry with a rule (R207, R209). Freeze maps and
metadata are those that the pre-check read, since a write that the stage applies governs the next step (R216). -/
def TEnt.live (e : TEnt) (lat : Tbl Byte) : List (Nat × Nat) :=
  if e.rule = 0 then []
  else
    let map := e.mapIn lat
    (((e.kept lat).map fun k => (k.2.2, k.2.1)).dedup).filter fun x => !e.frozen map x.1 x.2

/-- Where a gradient element lies: own shard or the partner's copy (R210, R212). -/
def TEnt.gradAt (e : TEnt) (own : Bool) (x : Nat × Nat) : Nat :=
  if own && e.gsrc then e.grad + 16 * (x.1 * e.cols + x.2)
  else (if own then e.grad else e.gradp) + 4 * (x.1 * e.cols + x.2)

/-- The gradient of an element as the FP32 value read (R212). -/
def Mod.gradIn (m : Mod) (mem : Tbl Byte) (e : TEnt) (own : Bool) (x : Nat × Nat) : Word :=
  let a := e.gradAt own x
  let v := m.viewed (a - a % 64) + a % 64
  if own && e.gsrc then floatValue (match m.winAt a 16 with | some w => m.wlsb w | none => 0) (regNat mem v 16)
  else BitVec.ofNat 32 (regNat mem v 4)

/-- Units of the gradients of some elements. -/
def Mod.gradUnits (m : Mod) (e : TEnt) (own : Bool) (l : List (Nat × Nat)) : List Nat :=
  (l.map fun x => let a := e.gradAt own x; m.viewed (a - a % 64) / 64).dedup

/-- The gradients of the live elements of an entry; none when a unit is uncorrectable. -/
def Mod.grads (m : Mod) (tag : Nat) (why : Nat) (lat : Tbl Byte) (own : Bool) (e : TEnt) :
    Mod × Option (List ((Nat × Nat) × Word)) :=
  let l := e.live lat
  match m.see ⟨3, some tag, why, 128⟩ ((m.gradUnits e own l).map fun u => (64 * u, 64)) with
  | (m, mem, true) => (m, some (l.map fun x => (x, m.gradIn mem e own x)))
  | (m, _, false) => (m, none)

/-! ## Starting (R207) -/

/-- An uncorrectable unit of the own or mirror region stops stage 6 until its block is fetched (R207). -/
def Mod.sixData (m : Mod) : Mod := m.raiseUPD 6 0

/-- Reads of stage 6 in a region, by region offset: the memory as seen, or none when stage 6 has to wait for a fetch. -/
def Mod.sixRead (m : Mod) (target : Nat) (rs : List (Nat × Nat)) : Mod × Option (Tbl Byte) :=
  let base := if target = 0 then 0 else m.regionBase 2
  if m.fetching target rs then (m, none)
  else match m.see ⟨3, some (m.tagFor m.upd.step), 1, 128⟩ (rs.map fun r => (base + r.1, r.2)) with
    | (m, mem, true) => (m, some mem)
    | (m, _, false) => (m.sixData, none)

/-- The bytes of ranges, by region offset. -/
def latchOf (mem : Tbl Byte) (base : Nat) (rs : List (Nat × Nat)) : Tbl Byte :=
  (mem.filter fun x => rs.any fun r => decide (base + r.1 ≤ x.1) && decide (x.1 < base + r.1 + r.2)).map fun x => (x.1 - base, x.2)

/-- A latch with further bytes. -/
def tmerge (a b : Tbl Byte) : Tbl Byte := b.foldl (fun t e => tset byte0 t e.1 e.2) a

/-- The loss word is read at the latch and submitted (R215). -/
def Mod.readLoss (m : Mod) : Mod :=
  match m.load (By.hub (some (m.tagFor m.upd.step))) (m.pair48 UPD.LOSS_LO.o UPD.LOSS_HI.o) 16 with
  | (m, none) => m.updOf fun u => { u with lossBad := true }
  | (m, some bs) =>
    let k := m.upd.step
    let m := m.updOf fun u => { u with
      loss := BitVec.ofNat 32 (dfield bs 0 4), tokens := dfield bs 8 8, lossDue := some k, lossVoted := false }
    (m.voters.take 1).foldl (fun m id => m.contribute kLoss k (m.tagFor k) id [dfield bs 0 4, dfield bs 8 8]) m

/-- The latch and the list check; it waits where a unit needs a fetch. -/
def Mod.sixLatch (m : Mod) : Mod :=
  let rs := m.latchRanges
  match m.sixRead 0 (rs ++ [(m.listOff, 64 * m.listN)]) with
  | (m, none) => m
  | (m, some own) =>
    match m.sixRead 1 rs with
    | (m, none) => m
    | (m, some mir) =>
      let lat := latchOf own 0 rs
      let m := m.updOf fun u => { u with
        latOwn := lat, latMir := latchOf mir (m.regionBase 2) rs, latched := true }
      let m := m.readLoss
      match m.listBad lat (m.listIn own) with
      | some i => (m.updOf fun u => { u with listBad := some i }).raiseUPD 4 i
      | none => m.updOf fun u => { u with listBad := none }

/-- Whether stage 6 of the oldest unchecked step may begin (R21, R207, R394). -/
def Mod.sixReady (m : Mod) : Bool :=
  let k := m.steps.oldest
  m.is UPD.CFG.ENABLE && !m.quiesced 128 && !m.upd.running && m.steps.failed.isNone && m.steps.rerun.isNone && !m.steps.six.contains k &&
    m.upd.shards.contains (k, 0, 2) &&
    (!m.is BLB.CFG.ENABLE || decide (k ≤ m.vine.step)) &&
    (match m.ckpt.awaitStart with | some b => decide (k < b) | none => true)

/-- The step registers of R216: c, and SKIP. -/
def Mod.setStepRegs (m : Mod) (k skip : Nat) : Mod :=
  m.sets [(UPD.STEP_LO.VAL, k), (UPD.STEP_HI.VAL, k / 2 ^ 32), (UPD.STEP_HI.SKIP, skip)]

/-- Stage 6 begins: the latch, the list check, and the pre-check starts. -/
def Mod.startSix (m : Mod) : Mod :=
  if !m.sixReady then m
  else
    let k := m.steps.oldest
    let m := m.stepsOf fun s => { s with six := s.six ++ [k] }
    let m := { m with dup := { m.dup with sentDigest := false, recheck := false } }
    let m := m.updOf fun u => { u with
      running := true, step := k, latched := false, listBad := none, lossBad := false, word := 0, vote1 := 0, word1 := 0,
      vote2 := 0, allowed := false, ownDone := false, mirDone := false }
    ((m.setStepRegs k 0).set UPD.STAT.PHASE 1).sixLatch

/-! ## The pre-check (R207, R208) -/

/-- η of a layer under a latch, and whether it is a finite normal FP32 value (R113). -/
def Mod.eta (m : Mod) (lat : Tbl Byte) (l : LayerE) : Num × Bool :=
  let x := (m.hdrWord lat 0).scale l.lr
  let ok := match x with
    | .fin _ mt e => mt != 0 && decide (-126 ≤ (Nat.log2 mt : Int) + e) && decide ((Nat.log2 mt : Int) + e ≤ 127)
    | _ => false
  (x, ok)

/-- Counts of the pre-check over an entry's own gradients (R214). -/
def Bank.addGrads (b : Bank) (l zeros nonfin : Nat) : Bank :=
  let e := lentry b l
  b.setL l { e with gradZeros := e.gradZeros + zeros, gradNonfin := e.gradNonfin + nonfin }

/-- The pre-check of one shard of an entry: its non-finite gradients charge the layer's record, or in OFF mode set bit 2. -/
def Mod.precheckShard (m : Mod) (own : Bool) (e : TEnt) : Mod × Option Bool :=
  let k := m.upd.step
  match m.grads (m.tagFor k) 0 (if own then m.upd.latOwn else m.upd.latMir) own e with
  | (m, none) => (m, none)
  | (m, some g) =>
    -- progress by each 4 KiB of gradients (R415)
    let us := m.gradUnits e own (e.live m.upd.latOwn)
    let m := (List.range 8).foldl (fun m s =>
      m.progressBy (128 + s) ((us.filter fun u => stackOf (64 * u) == s).length / 64)) m
    let xs := g.map fun x => num32 x.2
    let bad := countB (xs.map fun x => !x.isFinite)
    let l := layerOf (m.layerIn m.upd.latOwn e.layer)
    let r := scaleRec (m.recIn m.upd.latOwn l.grec)
    let m := if own then m.countIn k fun b => b.addGrads e.layer (countB (xs.map Num.isZero)) bad else m
    if bad = 0 then (m, some false)
    else if r.mode = 0 then (m, some true)
    else (m.countIn k fun b => b.chargeRec l.grec false, some false)

/-- Both shards of every entry; the flag is bit 2 of the verdict word. -/
def Mod.precheckAll (m : Mod) : List (Bool × TEnt) → Mod × Option Bool
  | [] => (m, some false)
  | (own, e) :: rest =>
    match m.precheckShard own e with
    | (m, none) => (m, none)
    | (m, some x) =>
      match Mod.precheckAll m rest with
      | (m, none) => (m, none)
      | (m, some y) => (m, some (x || y))

/-- Vote 1 is submitted: the word and the charge mask as they stand now, for each identity that the module votes for (R224, R373). -/
def Mod.submitVote1 (m : Mod) (gradBad rateBad : Bool) : Mod :=
  let k := m.upd.step
  let word := verdictWord (match m.bankFor k with | some b => b | none => Bank.empty) gradBad rateBad m.upd.listBad.isSome
  let mask := match m.bankFor k with | some b => b.mask.toNat | none => 0
  let m := m.updOf fun u => { u with word := word, vote1 := 1 }
  let m := m.voters.foldl (fun m id => m.contribute kVote1 k (m.tagFor k) id [word % 256, mask]) m
  (m.stepsOf fun s => { s with submitted := s.submitted ++ [k] }).set HLT.STAT.VOTING 1

/-- Ranges of a region that the pre-check and the passes read first: the list, and each entry's freeze map and metadata. -/
def Mod.maskRanges (l : List TEnt) : List (Nat × Nat) :=
  l.flatMap fun e => (if e.freeze = 0 then [] else [(64 * e.fmap, (e.mapBits + 7) / 8)]) ++
    (if e.sparse = 0 then [] else [(64 * e.meta_, e.rows / e.s * (e.cols / 4))])

/-- The masks are latched, every gradient that a ready element names is judged, and vote 1 is submitted. -/
def Mod.precheckTaken (m : Mod) (l : List TEnt) (own mem : Tbl Byte) : Mod :=
  let m := m.updOf fun u => { u with
    latOwn := tmerge u.latOwn (latchOf own 0 (Mod.maskRanges l))
    latMir := tmerge u.latMir (latchOf mem (m.regionBase 2) (Mod.maskRanges l)) }
  let ruled := l.filter (·.rule != 0)
  let rateBad := ruled.any fun e => !(m.eta m.upd.latOwn (layerOf (m.layerIn m.upd.latOwn e.layer))).2
  let own6 := m.ready6 m.upd.latOwn 0 ruled
  let mir6 := m.ready6 m.upd.latMir 1 ruled
  match m.precheckAll (own6.map (true, ·) ++ mir6.map (false, ·)) with
  | (m, none) => m
  | (m, some gradBad) => m.submitVote1 gradBad rateBad

/-- The pre-check reads masks and gradients, and vote 1 is submitted (R224). -/
def Mod.precheckRun (m : Mod) : Mod :=
  match m.sixRead 0 [(m.listOff, 64 * m.listN)] with
  | (m, none) => m
  | (m, some own) =>
    let l := m.listIn own
    match m.sixRead 0 (Mod.maskRanges l) with
    | (m, none) => m
    | (m, some own) =>
      match m.sixRead 1 (Mod.maskRanges l) with
      | (m, none) => m
      | (m, some mem) =>
        m.precheckTaken l own mem

/-- The pre-check ends. -/
def Mod.precheckEnd (m : Mod) : Mod :=
  if !m.upd.running ∨ !m.upd.latched ∨ m.upd.vote1 ≠ 0 ∨ m.upd.lossBad then m
  else if m.upd.listBad.isSome then m.submitVote1 false false
  else
    m.precheckRun

/-! ## Table writes (R216) -/

/-- Bytes written in a region of the training state by stage 6. -/
def Mod.sixWrite (m : Mod) (base off : Nat) (bs : List Byte) : Mod := (m.store ⟨3, none, 3, 128⟩ (base + off) bs).1

/-- A rebase note is added for a layer's moment, unless a valid one stands (R216). `hdr` is the region as read, and `lat` its latch: a note
that this stage 6 has latched is used and cleared by its pass, so that the moments then lie under the latched offset, which the new note
holds (R111). -/
def Mod.addNote (m : Mod) (hdr lat : Tbl Byte) (base layer which : Nat) (old : Int) : Mod × Tbl Byte :=
  let notes := m.notesIn (latchOf hdr base [(m.hdrOff, hdrBytes)])
  let used := (m.notesIn lat).map (·.1)
  if notes.any (fun n => n.2.1 == layer && n.2.2.1 == which && !used.contains n.1) then (m, hdr)
  else match (List.range 64).find? fun i => !(notes.any fun n => n.1 == i) with
    | none => (m, hdr)
    | some i =>
      let bs := leBytes 8 (layer + 2 ^ 12 * which + 2 ^ 13 + 2 ^ 16 * (old % 256).toNat)
      (m.sixWrite base (m.hdrOff + 272 + 8 * i) bs, putBytes byte0 hdr (base + m.hdrOff + 272 + 8 * i) bs)

def resetTbl (t : Tbl Nat) (k : Nat) : Tbl Nat := tset (fun _ => 0) t k 0

/-- What applying a table write reads of its region, its target too: the rebase notes with a layer entry, and for a word of a freeze map
(known once its tensor entry is read) that entry. -/
def Mod.writeReads (m : Mod) (w : TableWrite) : List (Nat × Nat) :=
  match w.table with
  | 0 => [(m.recAddr w.index, 8)]
  | 1 => [(m.layerOff w.index, 8), (m.hdrOff, hdrBytes)]
  | 2 | 3 => [(m.hdrOff, hdrBytes)]
  | _ => [(m.listOff + 64 * w.index, 64)]

/-- The place of a word of a freeze map by region offset, from the region as read. -/
def Mod.fmapWord (m : Mod) (mem : Tbl Byte) (base : Nat) (w : TableWrite) : Nat :=
  64 * bits (regNat mem (base + m.listOff + 64 * w.index + 40) 4) 29 0 + 8 * w.word

/-- A table write applied in a region, which `mem` gives as read. The offsets that it changes are those latched. -/
def Mod.applyWrite (m : Mod) (w : TableWrite) (mem : Tbl Byte) : Mod :=
  let base := if w.mirror then m.regionBase 2 else 0
  let lat := if w.mirror then m.upd.latMir else m.upd.latOwn
  let d (i : Nat) : List Byte := leBytes 4 (w.data.getD i 0).toNat
  match w.table with
  | 0 => m.sixWrite base (m.recAddr w.index) (d 0 ++ d 1)
  | 1 =>
    let o := layerOf (m.layerIn lat w.index)
    let n := layerOf (leNat (d 0 ++ d 1))
    let m := if o.lr = n.lr then m else m.hltOf fun h => { h with
      quiet := if w.mirror then h.quiet else resetTbl h.quiet w.index, mquiet := resetTbl h.mquiet w.index }
    let (m, mem) := if o.mo1 = n.mo1 then (m, mem) else m.addNote mem lat base w.index 0 o.mo1
    let m := if o.mo2 = n.mo2 then m else (m.addNote mem lat base w.index 1 o.mo2).1
    m.sixWrite base (m.layerOff w.index) (d 0 ++ d 1)
  | 2 => m.sixWrite base (m.hdrOff + 16 + 16 * w.index) (d 0 ++ d 1 ++ d 2 ++ d 3)
  | 3 => m.sixWrite base m.hdrOff (d 0 ++ d 1 ++ d 2)
  | _ => m.sixWrite base (m.fmapWord mem base w) (d 0 ++ d 1)

/-- A table write whose bytes are read and applied; it stays pending while a unit that it reads or writes waits for a fetch (R207). -/
def Mod.tryWrite (m : Mod) (w : TableWrite) : Mod :=
  let target := if w.mirror then 1 else 0
  let put (m : Mod) (mem : Tbl Byte) : Mod :=
    (m.updOf fun u => { u with writes := u.writes.filter (· != w) }).applyWrite w mem
  match m.sixRead target (m.writeReads w) with
  | (m, none) => m
  | (m, some mem) =>
    if w.table < 4 then put m mem
    else match m.sixRead target [(m.fmapWord mem (if w.mirror then m.regionBase 2 else 0) w, 8)] with
      | (m, none) => m
      | (m, some mem) => put m mem

/-- Whether this module has no partner that acknowledges its table writes (R216). -/
def Mod.alone (m : Mod) : Bool := !m.dup.paired

/-- Writes of the running stage 6 that wait for the partner's acknowledgement. -/
def Mod.writesWait (m : Mod) : Bool :=
  !m.alone && m.upd.writes.any fun w => w.step == m.upd.step + 1 && !w.acked && !w.mirror

/-- Pending writes of the own tables, or of the mirror's, that name the next step and that the partner has acknowledged, where it is not
lost. -/
def Mod.dueWrites (m : Mod) (mirror : Bool) : List TableWrite :=
  m.upd.writes.filter fun w => w.step == m.upd.step + 1 && w.mirror == mirror && (w.mirror || w.acked || m.alone)

/-- The due writes are applied (R209, R210, R216). -/
def Mod.applyWrites (m : Mod) (mirror : Bool) : Mod := (m.dueWrites mirror).foldl Mod.tryWrite m

/-! ## Vote 1 (R208, R224, R226) -/

/-- Charged records, from a mask. -/
def maskList (mask : BitVec 4096) : List Nat := if mask = 0 then [] else (List.range 4096).filter fun i => mask.getLsbD i

/-- Whether a record can be lowered (R104, R106). -/
def lowerable (w : Nat) : Bool := let r := scaleRec w; r.mode == 1 && decide (r.tmin < r.tse)

/-- STATIC records above TSE_MIN, as latched, are lowered by one, in the own state and in the mirror (R104). -/
def Mod.lowerRecs (m : Mod) (l : List Nat) : Mod :=
  [(0, m.upd.latOwn), (m.regionBase 2, m.upd.latMir)].foldl (fun m x => l.foldl (fun m r =>
    let w := m.recIn x.2 r
    if lowerable w then m.sixWrite x.1 (m.recAddr r + 1) (leBytes 1 ((scaleRec w).tse - 1 + 256).toNat) else m) m) m

/-- Squash regions of the list's entries are cleared, and the step's windows freed (R212, R258). -/
def Mod.clearSquash (m : Mod) (l : List TEnt) : Mod :=
  let m := l.foldl (fun m e => if !e.gsrc then m
    else (List.range (e.rows * e.cols * 16 / 64)).foldl (fun m i =>
      let a := m.viewed (e.grad + 64 * i)
      (m.zeroRange a 64).bulkWritten ⟨3, none, 3, 128⟩ [(a, 64)]) m) m
  m.clearWindows (fun j => j == m.upd.step)

/-- The update list as stage 6 reads it, no entries when the list check failed; none while it waits for a fetch. -/
def Mod.listNow (m : Mod) : Mod × Option (List TEnt) :=
  if m.upd.listBad.isSome then (m, some [])
  else match m.sixRead 0 [(m.listOff, 64 * m.listN)] with
    | (m, none) => (m, none)
    | (m, some own) => (m, some (m.listIn own))

/-- The UPD event of a failed vote (R208). -/
def Mod.voteEvent (m : Mod) (v : Nat) : Mod :=
  if v.testBit 2 then m.raiseUPD 2 0
  else if v.testBit 3 then m.raiseUPD 3 0
  else if v.testBit 4 then m.raiseUPD 7 0
  else if v.testBit 5 then (if m.upd.listBad.isSome then m else m.raiseUPD 4 0)
  else m.raiseUPD 1 0

/-- The verdict registers (R228, R236). -/
def Mod.setVerdict (m : Mod) (k word : Nat) : Mod :=
  m.sets [(HLT.VERDICT.WORD, word), (HLT.VSTEP_LO.VAL, k), (HLT.VSTEP_HI.VAL, k / 2 ^ 32),
    (HLT.VSTEP_HI.SKIPS, tget (fun _ => 0) m.health.skips k)]

/-- Outcome of vote 1 (R226): 0 the passes run, 1 SKIPPED, otherwise FAILED with cause n − 2. -/
def Mod.decide1 (m : Mod) (k v : Nat) (charged : List Nat) : Nat :=
  if bits v 5 2 ≠ 0 then 2
  else if v % 2 = 0 then 0
  else if m.attempt k = 15 then 5
  else
    let can := charged.any fun r => lowerable (m.recIn m.upd.latOwn r)
    if can ∧ tget (fun _ => 0) m.health.skips k < m.f HLT.CFG.SKIP_MAX then 1
    else if !can then 3
    else 4

/-- A step becomes FAILED on its numbers: held, the later step discarded, FAIL raised (R227, R228). -/
def Mod.failStep (m : Mod) (k word cause why : Nat) : Mod :=
  let m := (m.discard (k + 1)).holdFailed k why
  (m.count HLT.SN_FAIL_LO.o 1).raiseHLT 2 [(HLT.EVT_INFO.WORD, word), (HLT.EVT_INFO.CAUSE, cause)]

/-- The reduced loss of step `k` reaches the loss holding registers (R215). -/
def Mod.lossReport (m : Mod) (k : Nat) (sum : Word) (tokens : Nat) : Mod :=
  let m := m.lset UPD.SN_LOSS_SUM.o sum.toNat
  let m := (m.lset UPD.SN_LOSS_TOK_LO.o tokens).lset UPD.SN_LOSS_TOK_HI.o (tokens / 2 ^ 32)
  let m := (m.lset UPD.SN_LOSS_STEP_LO.o k).lset UPD.SN_LOSS_STEP_HI.o
    (k / 2 ^ 32 % 0x10000 + if m.upd.lossSkip then 0x10000 else 0)
  m.updOf fun u => { u with lossDue := none }

/-- The loss reduction that may be reported: its step, the fold and the exact token sum, once vote 1 of the step has returned and every
loss word is held. -/
def Mod.lossReady (m : Mod) : Option (Nat × Word × Nat) :=
  if !m.upd.lossVoted then none
  else m.upd.lossDue.bind fun k => (m.gathered kLoss k).map fun l => (k, rankSum ((column l 0).map (BitVec.ofNat 32)), (column l 1).sum)

/-- The fold and the token sum that the loss reduction returns with. -/
def Mod.lossHeld (m : Mod) : Option (Word × DWord) := m.lossReady.map fun x => (x.2.1, BitVec.ofNat 64 x.2.2)

/-- The loss records written since the module last began to act as bridge; `LR_HEAD` counts them modulo 2^32 (R336). -/
def Mod.setRecords (m : Mod) (n : Nat) : Mod :=
  ({ m with coll := { m.coll with records := n } }).wr TOR.LR_HEAD.o (BitVec.ofNat 32 n)

/-- The bridge writes a loss record into its ring, and then raises `LR_HEAD` (R336). Where the record does not lie in the workspace its
write is refused (R38), and `LR_HEAD` counts no record. -/
def Mod.lossRecord (m : Mod) (k : Nat) (skip : Bool) (sum tokens : Nat) : Mod :=
  let n := m.coll.records
  let r := m.f TOR.LR_BASE_HI.RECORDS
  if !m.bridging || r == 0 then m
  else
    let bs := leBytes 6 k ++ leBytes 1 skip.toNat ++ [0] ++ leBytes 4 sum ++ [0, 0, 0, 0] ++ leBytes 8 tokens ++ leBytes 4 n ++ [0, 0, 0, 0]
    let a := m.pair48 TOR.LR_BASE_LO.o TOR.LR_BASE_HI.o + n % r * 32
    match m.storeOwn (By.hub none) a bs with
    | (m, true) => (m.setRecords (n + 1)).progress 150
    | (m, false) => m

/-- The reduced loss of step `k` is reported (R215), and recorded for the host by the bridge. -/
def Mod.lossWith (m : Mod) (k : Nat) (sum : Word) (tokens : Nat) : Mod :=
  ((m.smallTaken kLoss k).lossReport k sum tokens).lossRecord k m.upd.lossSkip sum.toNat tokens

/-- The slice's loss, once it may be reported. -/
def Mod.lossIn (m : Mod) : Mod :=
  match m.lossReady with
  | none => m
  | some (k, sum, tokens) => m.lossWith k sum tokens

/-- The loss of a module that stands outside the slice, as it is reported to it. -/
def Mod.lossGiven (m : Mod) (sum : Word) (tokens : DWord) : Mod :=
  match m.upd.lossDue with
  | none => m
  | some k => if m.upd.lossVoted then m.lossWith k sum tokens.toNat else m

/-- A vote that does not allow the passes: nothing is written but lowered records, and the step is skipped or failed. A step that is
skipped reports its loss before the replay, which reports again (R215). -/
def Mod.refusePasses (m : Mod) (k v out : Nat) (charged : List Nat) (l : List TEnt) : Mod :=
  let m := if out = 1 then m.lowerRecs charged else m
  let m := m.voteEvent v
  let m := m.clearSquash l
  let m := (m.setStepRegs k 1).count UPD.SN_SKIP_LO.o 1
  let m := m.updOf fun u => { u with lossVoted := true, lossSkip := true }
  if out = 1 then
    let m := m.hltOf fun h => { h with skips := tset (fun _ => 0) h.skips k (tget (fun _ => 0) h.skips k + 1) }
    let m := (m.setVerdict k v).count HLT.SN_SKIP_LO.o 1
    let m := m.raiseHLT 1 [(HLT.EVT_INFO.WORD, v)]
    ((m.lossIn.discard k).nextAttempt k).rewind k
  else
    ((m.setVerdict k v).stopSix).failStep k v (out - 2) 0

/-- The result of vote 1 is held, as slice-wide word and charge mask, and decides whether the passes run (R226). `l` is the update list. -/
def Mod.vote1Taken (m : Mod) (v : Nat) (charged : List Nat) (l : List TEnt) : Mod :=
  let k := m.upd.step
  let m := (m.stepsOf fun s => { s with held := s.held ++ [k] }).set HLT.STAT.VOTING 0
  let m := m.updOf fun u => { u with vote1 := 2, word1 := v }
  match m.decide1 k v charged with
  | 0 =>
    let m := m.hltOf fun h => { h with skips := tset (fun _ => 0) h.skips k 0 }
    let m := m.updOf fun u => { u with allowed := true, lossVoted := true, lossSkip := false }
    (((m.setVerdict k v).set UPD.STAT.PHASE 2).applyWrites false).applyWrites true
  | out => m.refusePasses k v out charged l

/-- The word and the charge mask that vote 1 returns with, once every contribution is held. -/
def Mod.vote1Held (m : Mod) : Option (BitVec 8 × BitVec 4096) :=
  (m.gathered kVote1 m.upd.step).map fun l => (BitVec.ofNat 8 (orAll (column l 0)), BitVec.ofNat 4096 (orAll (column l 1)))

/-- What the outcome of vote 1 reads first: the update list, and the records that it lowers in both regions; none while one of them waits
for a fetch (R207). -/
def Mod.vote1Reads (m : Mod) (charged : List Nat) : Mod × Option (List TEnt) :=
  match m.listNow with
  | (m, none) => (m, none)
  | (m, some l) =>
    let rs := charged.map fun r => (m.recAddr r, 8)
    match m.sixRead 0 rs with
    | (m, none) => (m, none)
    | (m, some _) =>
      match m.sixRead 1 rs with
      | (m, none) => (m, none)
      | (m, some _) => (m, some l)

/-- The outcome of vote 1 with the slice-wide word and charge mask. Where it lowers records, it waits for the checkpoint's copy (R26). -/
def Mod.vote1With (m : Mod) (word mask : Nat) : Mod :=
  if !m.upd.running ∨ m.upd.vote1 ≠ 1 then m
  else match m.ownWritable with
    | (m, false) => m
    | (m, true) =>
      let charged := maskList (BitVec.ofNat 4096 mask)
      match m.vote1Reads charged with
      | (m, none) => m
      | (m, some es) => (m.smallTaken kVote1 m.upd.step).vote1Taken word charged es

/-- The slice-wide result of vote 1, once every contribution is held: the OR of the words and of the masks (R224). -/
def Mod.vote1Result (m : Mod) : Mod :=
  match m.gathered kVote1 m.upd.step with
  | none => m
  | some l => m.vote1With (orAll (column l 0)) (orAll (column l 1))

/-! ## The passes (R209–R211) -/

/-- Rounded to FP32. -/
def r32 (x : Num) : Num := num32 (toFP32 x)
def fma32 (a b c : Num) : Num := r32 ((a.mul b).add c)

/-- A moment stored: BF16, a value past the largest finite one saturating there, an infinite one too (R110). -/
def storeMom (x : Num) : Nat × Bool :=
  match x with
  | .fin n mt e => fmtBF16.encodeSat n mt e
  | .inf n => fmtBF16.encodeSat n 1 200
  | .nan => (fmtBF16.encode .nan, false)

/-- Constants of a rule: η, T, β1, β2, ε, λ, c1, c2, MO1, MO2. -/
structure RuleC where
  rule : Nat
  eta : Num
  t : Int
  b1 : Num
  b2 : Num
  eps : Num
  lam : Num
  c1 : Num
  c2 : Num
  mo1 : Int
  mo2 : Int
deriving DecidableEq, Repr

def Mod.ruleOf (m : Mod) (lat : Tbl Byte) (e : TEnt) : RuleC :=
  let l := layerOf (m.layerIn lat e.layer)
  let r := scaleRec (m.recIn lat l.grec)
  let h (o : Nat) : Num := m.hdrWord lat o
  let s := 16 + 16 * e.rset
  ⟨e.rule, (m.eta lat l).1, if r.mode = 1 then r.tse else 0, h s, h (s + 4), h (s + 8), h (s + 12), h 4, h 8, l.mo1, l.mo2⟩

def numOne : Num := .fin false 1 0

/-- sign(x) as R209 uses it. -/
def signNum (x : Num) : Num :=
  match x with
  | .nan => .nan
  | .inf n => .fin n 1 0
  | .fin n mt _ => if mt = 0 then .fin false 0 0 else .fin n 1 0

/-- The rule of R209 on one element: u, m' and v'. -/
def ruleStep (c : RuleC) (g w m v : Num) : Num × Num × Num :=
  let omb (b : Num) : Num := r32 (numOne.add b.neg)
  match c.rule with
  | 1 =>
    let m' := fma32 c.b1 m g
    (fma32 c.lam w m', m', v)
  | 2 =>
    let m' := fma32 c.b1 m (r32 ((omb c.b1).mul g))
    let v' := fma32 c.b2 v (r32 ((omb c.b2).mul (r32 (g.mul g))))
    let den := r32 ((r32 (r32 (v'.mul c.c2)).sqrt).add c.eps)
    (fma32 c.lam w (r32 ((r32 (m'.mul c.c1)).div den)), m', v')
  | _ =>
    let s := signNum (fma32 c.b1 m (r32 ((omb c.b1).mul g)))
    (fma32 c.lam w s, fma32 c.b2 m (r32 ((omb c.b2).mul g)), v)

/-- What a pass counts for a layer: underflows, moment and compute-copy saturations, non-finite masters, elements updated. -/
structure PassC where
  under : Nat
  mom : Nat
  cc : Nat
  nonfin : Nat
  updated : Nat
deriving DecidableEq, Repr

def PassC.zero : PassC := ⟨0, 0, 0, 0, 0⟩
def PassC.add (a b : PassC) : PassC := ⟨a.under + b.under, a.mom + b.mom, a.cc + b.cc, a.nonfin + b.nonfin, a.updated + b.updated⟩

/-- A master in a region's planes (R108). -/
def TEnt.master (e : TEnt) (mem : Tbl Byte) (base i j : Nat) : Word :=
  let o := 2 * (i * e.cols + j)
  BitVec.ofNat 32 (regNat mem (base + 64 * e.res + o) 2 + 0x10000 * regNat mem (base + 64 * e.hi + o) 2)

/-- One element updated. A moment is read as s × 2^MO exactly, also where that lies outside FP32: R110 states no rounding for it
(DESIGN CHOICE, log entry 108). -/
def updElem (c : RuleC) (e : TEnt) (base : Nat) (acc : Tbl Byte × PassC) (x : (Nat × Nat) × Word) : Tbl Byte × PassC :=
  let (mem, cnt) := acc
  let o := 2 * (x.1.1 * e.cols + x.1.2)
  let wb := e.master mem base x.1.1 x.1.2
  let w := num32 wb
  let mom (plane : Nat) (mo : Int) : Num := (fmtBF16.decode (regNat mem (base + 64 * plane + o) 2)).scale mo
  let v0 := if c.rule = 2 then mom e.mom2 c.mo2 else zeroNum'
  let r := ruleStep c (r32 ((num32 x.2).scale (-c.t))) w (mom e.mom1 c.mo1) v0
  let d := r32 (c.eta.neg.mul r.1)
  let nw := toFP32 (w.add d)
  let m1 := storeMom (r.2.1.scale (-c.mo1))
  let m2 := if c.rule = 2 then storeMom (r.2.2.scale (-c.mo2)) else (0, false)
  let put (t : Tbl Byte) (plane v : Nat) : Tbl Byte := putBytes byte0 t (base + 64 * plane + o) (leBytes 2 v)
  let mem := put (put (put mem e.hi (nw.toNat / 0x10000)) e.res nw.toNat) e.mom1 m1.1
  let mem := if c.rule = 2 then put mem e.mom2 m2.1 else mem
  (mem, cnt.add ⟨if nw = wb ∧ d.isFinite ∧ !d.isZero then 1 else 0, m1.2.toNat + m2.2.toNat, 0,
    if (num32 nw).isFinite then 0 else 1, 1⟩)
where zeroNum' : Num := .fin false 0 0

/-- The stored moments of a plane rebased by 2^d (R111), but for those that came rebased (R384). -/
def rebasePlane (kept : Nat → Bool) (at_ n : Nat) (d : Int) (mem : Tbl Byte) : Tbl Byte × Nat :=
  (List.range n).foldl (fun (acc : Tbl Byte × Nat) i =>
    let a := at_ + 2 * i
    if kept a then acc
    else
    let s := storeMom ((fmtBF16.decode (regNat acc.1 a 2)).scale d)
    (putBytes byte0 acc.1 a (leBytes 2 s.1), acc.2 + s.2.toNat)) (mem, 0)

/-- The moments of an entry rebased under the latched notes of its layer. -/
def TEnt.rebase (e : TEnt) (l : LayerE) (notes : List (Nat × Nat × Nat × Int)) (kept : Nat → Bool) (base : Nat) (mem : Tbl Byte) :
    Tbl Byte × Nat :=
  notes.foldl (fun (acc : Tbl Byte × Nat) n =>
    if n.2.1 ≠ e.layer ∨ e.rule = 0 ∨ (n.2.2.1 = 1 ∧ e.rule ≠ 2) then acc
    else
      let r := rebasePlane kept (base + 64 * (if n.2.2.1 = 0 then e.mom1 else e.mom2)) (e.rows * e.cols)
        (n.2.2.2 - (if n.2.2.1 = 0 then l.mo1 else l.mo2)) acc.1
      (r.1, acc.2 + r.2)) (mem, 0)

/-- A compute-copy code put in its place. -/
def putCode (at_ bit w v : Nat) (mem : Tbl Byte) : Tbl Byte :=
  let a := at_ + bit / 8
  if w = 8 then putBytes byte0 mem a (leBytes 1 v)
  else
    let old := regNat mem a 1
    putBytes byte0 mem a (leBytes 1 (if bit % 8 = 0 then old / 16 * 16 + v else old % 16 + 16 * v))

/-- The compute copy of a tile re-formed from its masters (R211). -/
def TEnt.formTile (e : TEnt) (wfmt base : Nat) (kept : List (Nat × Nat × Nat)) (ti tj : Nat) (acc : Tbl Byte × Nat) : Tbl Byte × Nat :=
  let l := kept.filter fun k => k.2.2 / 32 == ti && k.2.1 / 32 == tj
  let f := wfmtOf wfmt
  let vs := l.map fun k => num32 (e.master acc.1 base k.2.2 k.2.1)
  let b := mxBlock f vs
  let w := wbitsOf wfmt
  let mem := (l.zip b.codes).foldl (fun t x =>
    putCode (base + 64 * e.cc) (x.1.1 * (e.cols * w) + x.1.2.1 * w) w x.2 t) acc.1
  let mem := (List.range 32).foldl (fun t j =>
    putBytes byte0 t (base + 64 * e.ccs + ti * e.cols + 32 * tj + j) (leBytes 1 b.scale)) mem
  (mem, acc.2 + b.sat)

/-- The compute copy of an entry. -/
def TEnt.formCopy (e : TEnt) (wfmt base : Nat) (kept : List (Nat × Nat × Nat)) (mem : Tbl Byte) : Tbl Byte × Nat :=
  (List.range (e.rows / 32)).foldl (fun acc ti =>
    (List.range (e.cols / 32)).foldl (fun acc tj => e.formTile wfmt base kept ti tj acc) acc) (mem, 0)

/-- The addresses at which an element of an entry with a rule is stored: high part, residue and moments. -/
def TEnt.spots (e : TEnt) (base : Nat) (x : Nat × Nat) : List Nat :=
  ([e.hi, e.res, e.mom1] ++ (if e.rule = 2 then [e.mom2] else [])).map fun p => base + 64 * p + 2 * (x.1 * e.cols + x.2)

/-- An element of which a part came from the partner with the step's update is updated no second time (R384). What its other parts then
hold is stated nowhere, and is a free value (log entry 117). -/
def TEnt.leave (e : TEnt) (kept : Nat → Bool) (use base : Nat) (mem : Tbl Byte) (x : Nat × Nat) : Tbl Byte :=
  (e.spots base x).foldl (fun t a =>
    if kept a then t else putBytes byte0 t a [Config.freeCell use a, Config.freeCell use (a + 1)]) mem

/-- The pass over one entry with its gradients. `kept` are the bytes that came with the step's update (R384), and `use` a number that no
other use of free values has. Every tile of an entry with a rule is re-formed, and those of an entry with `RULE` NONE, whose masters no
pass changes, are left in place (R211 allows either; DESIGN CHOICE, log entry 116). -/
def Mod.passEntry (m : Mod) (lat : Tbl Byte) (kept : Nat → Bool) (use base : Nat) (e : TEnt) (g : List ((Nat × Nat) × Word)) (mem : Tbl Byte) :
    Tbl Byte × PassC :=
  let l := layerOf (m.layerIn lat e.layer)
  let (mem, rs) := e.rebase l (m.notesIn lat) kept base mem
  let (ahead, g) := g.partition fun x => (e.spots base x.1).any kept
  let mem := ahead.foldl (fun t x => e.leave kept use base t x.1) mem
  let r := g.foldl (updElem (m.ruleOf lat e) e base) (mem, { PassC.zero with mom := rs })
  if e.ccopy ∧ e.rule ≠ 0 then
    let c := e.formCopy l.wfmt base (e.kept lat) r.1
    (c.1, { r.2 with cc := r.2.cc + c.2 })
  else r

/-- The pass over every entry: the region's new memory and its counts by layer. -/
def Mod.passAll (m : Mod) (lat : Tbl Byte) (kept : Nat → Bool) (use base : Nat) (own : Bool) :
    List TEnt → Tbl Byte → List (Nat × PassC) → Mod × Option (Tbl Byte × List (Nat × PassC))
  | [], mem, cnt => (m, some (mem, cnt))
  | e :: rest, mem, cnt =>
    match m.grads (m.tagFor m.upd.step) 4 lat own e with
    | (m, none) => (m, none)
    | (m, some g) =>
      let r := m.passEntry lat kept use base e g mem
      Mod.passAll m lat kept use base own rest r.1 (cnt ++ [(e.layer, r.2)])

/-- Counts of a pass joined by layer. -/
def joinCounts (l : List (Nat × PassC)) : List (Nat × PassC) :=
  ((l.map (·.1)).dedup).map fun k => (k, (l.filter (·.1 == k)).foldl (fun a x => a.add x.2) PassC.zero)

/-- Notes that were latched are cleared once their moments are rebased (R209). -/
def Mod.clearNotes (m : Mod) (lat : Tbl Byte) (base : Nat) : Mod :=
  (m.notesIn lat).foldl (fun m n => m.sixWrite base (m.hdrOff + 272 + 8 * n.1) (List.replicate 8 0)) m

/-- A gradient that a pass cannot read: the step is FAILED with cause FAULT and held (R538). -/
def Mod.passFault (m : Mod) : Mod :=
  let k := m.upd.step
  (((m.discard (k + 1)).holdFailed k 3).stopSix).raiseDUP 13 0 6 k

/-- Blocks that came from the partner with the update of the pass's step in them stay as they are (R384). -/
def keepBlocks (blocks : List (Nat × Nat × Nat)) (base : Nat) (seen mem : Tbl Byte) : Tbl Byte :=
  blocks.foldl (fun t x => putBytes byte0 t (base + x.2.1) (getBytes byte0 seen (base + x.2.1) 2048)) mem

/-- A pass over the own region (0) or the mirror (1) with the own region's entries (R207, R210), from the region as read. -/
def Mod.passOver (m : Mod) (target : Nat) (es : List TEnt) (seen : Tbl Byte) : Mod × Option (List (Nat × PassC)) :=
  let base := if target = 0 then 0 else m.regionBase 2
  let lat := if target = 0 then m.upd.latOwn else m.upd.latMir
  let l := m.ready6 lat target es
  let came := m.memside.updated.filter fun x => x.1 == target && x.2.2 == m.upd.step
  let kept (a : Nat) : Bool := came.any fun x => decide (base + x.2.1 ≤ a) && decide (a < base + x.2.1 + 2048)
  let (m, use) := if came.isEmpty then (m, 0) else m.fresh
  match m.passAll lat kept use base (target == 0) l seen [] with
    | (m, none) => (m.passFault, none)
    | (m, some (mem, cnt)) =>
      let errs := l.flatMap fun e => if e.rule = 0 then [] else (m.planesOf lat e).map fun p => (base + p.1, p.2)
      let mem := keepBlocks came base seen mem
      let m := { m with mem := mem }.mside fun s => { s with
        hbmErr := terase (unitInside errs) s.hbmErr
        updated := s.updated.filter fun x => !(x.1 == target && decide (x.2.2 ≤ m.upd.step)) }
      ((m.bulkWritten ⟨3, some (m.tagFor m.upd.step), 3, 128⟩ errs).clearNotes lat base, some (joinCounts cnt))
where
  unitInside (rs : List (Nat × Nat)) (u : Nat) : Bool :=
    rs.any fun r => decide (r.1 ≤ 64 * u) && decide (64 * u + 64 ≤ r.1 + r.2)

/-- A pass with all that it reads; none when it waits for a fetch or fails. -/
def Mod.runPass (m : Mod) (target : Nat) : Mod × Option (List (Nat × PassC)) :=
  match m.sixRead 0 [(m.listOff, 64 * m.listN)] with
  | (m, none) => (m, none)
  | (m, some own) =>
    match m.sixRead target [(0, m.extent)] with
    | (m, none) => (m, none)
    | (m, some seen) => m.passOver target (m.listIn own) seen

/-! ## Quiet layers (R229–R231) -/

/-- The next value of a quiet counter. -/
def quietNext (share q under updated : Nat) : Nat := if share * updated < under * 65536 then min (q + 1) 65535 else 0

/-- Own quiet counters after the own pass; QUIET where one reaches QUIET_STEPS (R229). -/
def Mod.quietOwn (m : Mod) (cnt : List (Nat × PassC)) : Mod :=
  cnt.foldl (fun m x =>
    if x.2.updated = 0 then m
    else
      let old := tget (fun _ => 0) m.health.quiet x.1
      let q := quietNext (m.f HLT.QUIET_SHARE.SHARE) old x.2.under x.2.updated
      let m := m.hltOf fun h => { h with quiet := tset (fun _ => 0) h.quiet x.1 q }
      if q = m.f HLT.QUIET_STEPS.STEPS ∧ q ≠ old then m.raiseHLT 3 [(HLT.EVT_INFO.INDEX, x.1)] else m) m

/-- Mirror quiet counters after the mirror pass; on a stand-in they are the lost identity's and raise QUIET with IDENT. -/
def Mod.quietMirror (m : Mod) (cnt : List (Nat × PassC)) : Mod :=
  cnt.foldl (fun m x =>
    if x.2.updated = 0 then m
    else
      let old := tget (fun _ => 0) m.health.mquiet x.1
      let q := quietNext (m.f HLT.QUIET_SHARE.SHARE) old x.2.under x.2.updated
      let m := m.hltOf fun h => { h with mquiet := tset (fun _ => 0) h.mquiet x.1 q }
      if q = m.f HLT.QUIET_STEPS.STEPS ∧ q ≠ old ∧ m.dup.lostId.isSome then
        m.raiseHLT 3 [(HLT.EVT_INFO.INDEX, x.1), (HLT.EVT_INFO.IDENT, 1)] else m) m

/-! ## Pass ends (R213, R214, R227) -/

/-- Counts of the own pass (R214). -/
def Bank.addPass (b : Bank) (l : Nat) (c : PassC) : Bank :=
  let e := lentry b l
  b.setL l { e with underflows := e.underflows + c.under, momSats := e.momSats + c.mom, ccSats := e.ccSats + c.cc,
                    masterNonfin := e.masterNonfin + c.nonfin, updated := e.updated + c.updated }

/-- PHASE while a pass is left: 3 MIRROR once the own pass has ended. -/
def Mod.sixPhase (m : Mod) : Mod := m.set UPD.STAT.PHASE (if m.upd.ownDone then 3 else 2)

/-- Whether a pass may run now. -/
def Mod.passDue (m : Mod) : Bool :=
  m.upd.running && m.upd.allowed && !m.writesWait &&
    (match m.steps.failed with | none => true | some f => f == (m.upd.step, 1))

/-- Bits [15:8] of the verdict word after a pass (R223). -/
def Mod.word2 (m : Mod) (cnt : List (Nat × PassC)) : Nat :=
  let late := match m.bankFor m.upd.step with | some b => b.lateCharge | none => false
  (if cnt.any (fun x => x.2.nonfin != 0) then 1 else 0) + (if late then 2 else 0)

/-- The counts of the own pass are taken, its digest formed, and vote 2 submitted (R214, R227). -/
def Mod.ownPassCounted (m : Mod) (cnt : List (Nat × PassC)) : Mod :=
  let k := m.upd.step
  let m := cnt.foldl (fun m x => (m.countIn k fun b => b.addPass x.1 x.2).count UPD.SN_UPD_ELEM_LO.o x.2.updated) m
  let w := m.word2 cnt
  let m := m.updOf fun u => { u with
    ownDone := true, digOwn := regionDigest m.mem 0 m.extent, vote2 := 1, word := u.word % 256 + 256 * w }
  let m := (m.voters.take 1).foldl (fun m id => m.contribute kVote2 k (m.tagFor k) id [w]) m
  (((m.quietOwn cnt).set HLT.STAT.VOTING 1).sixPhase).stackProgress 0 m.extent (· / 64)

/-- The own pass ends, after every table write that was still pending for the next step: digest, counts, quiet counters, and vote 2 is submitted. -/
def Mod.ownPassEnd (m : Mod) : Mod :=
  if !m.passDue ∨ m.upd.ownDone then m
  else
    match m.ownWritable with
    | (m, false) => m
    | (m, true) =>
      let m := m.applyWrites false
      if !(m.dueWrites false).isEmpty then m
      else match m.runPass 0 with
        | (m, none) => m
        | (m, some cnt) => m.ownPassCounted cnt

/-- The result of vote 2 is held: health of the step passes, or it is FAILED (R227). -/
def Mod.vote2Taken (m : Mod) (v : Nat) : Mod :=
  let k := m.upd.step
  let m := (m.updOf fun u => { u with vote2 := 2 }).set HLT.STAT.VOTING 0
  let m := m.setVerdict k (m.upd.word1 % 256 + 256 * v)
  let m := match m.bankFor k with
    | some b => m.setBank k { b with final := true }
    | none => m
  if v = 0 then m.stepsOf fun s => { s with healthOk := s.healthOk ++ [k] }
  else m.failStep k (m.upd.word1 % 256 + 256 * v) 0 1

/-- The word that vote 2 returns with. -/
def Mod.vote2Held (m : Mod) : Option (BitVec 8) := (m.gathered kVote2 m.upd.step).map fun l => BitVec.ofNat 8 (orAll (column l 0))

/-- The outcome of vote 2 with the slice-wide word (R227). -/
def Mod.vote2With (m : Mod) (word : Nat) : Mod :=
  if m.upd.vote2 ≠ 1 then m else (m.smallTaken kVote2 m.upd.step).vote2Taken word

/-- The slice-wide result of vote 2, once every contribution is held (R227). -/
def Mod.vote2Result (m : Mod) : Mod :=
  match m.gathered kVote2 m.upd.step with
  | none => m
  | some l => m.vote2With (orAll (column l 0))

/-- Stage 6 is over once both passes have ended: squash regions cleared, windows freed (R212, R258). -/
def Mod.sixOver (m : Mod) : Mod :=
  if m.upd.ownDone ∧ m.upd.mirDone ∧ m.upd.running then
    match m.listNow with
    | (m, none) => m
    | (m, some l) => ((m.clearSquash l).updOf fun u => { u with running := false, digStep := u.step }).set UPD.STAT.PHASE 0
  else m

/-- The lost identity's word of vote 2 goes to the vote once the mirror pass has ended (R373). -/
def Mod.lostVote2 (m : Mod) : Mod :=
  if !m.upd.mirDone then m
  else (m.voters.drop 1).foldl (fun m id => m.contribute kVote2 m.upd.step (m.tagFor m.upd.step) id [m.upd.mirWord]) m

/-- The mirror pass has ended with counts: mirror digest, mirror quiet counters, and on a stand-in the lost identity's vote 2. -/
def Mod.mirrorPassCounted (m : Mod) (cnt : List (Nat × PassC)) : Mod :=
  let w := m.word2 cnt
  let m := m.updOf fun u => { u with
    mirDone := true, mirWord := w, digMir := regionDigest m.mem (m.regionBase 2) m.extent }
  ((m.quietMirror cnt).lostVote2).stackProgress (m.regionBase 2) m.extent (· / 64)

/-- The mirror pass ends, after every forwarded table write that was still pending for the next step (R210). -/
def Mod.mirrorPassEnd (m : Mod) : Mod :=
  if !m.passDue ∨ m.upd.mirDone then m
  else
    let m := m.applyWrites true
    if !(m.dueWrites true).isEmpty then m
    else match m.runPass 1 with
      | (m, none) => m
      | (m, some cnt) => m.mirrorPassCounted cnt

end Sys2Proof.Machine
end

