-- ==== Sys2Proof/Machine/Health.lean ====
section
/-! DEFINITION. Numeric health as software sees it: the window read (R222, R236, R237), tile checks (R233, R234), and what warm
recovery does to the counts (R231, R238). -/

namespace Sys2Proof.Machine

/-! ## Window reads (R237) -/

/-- A 64-bit count as two words, low word first. -/
def words64 (n : Nat) : List Nat := [n % 2 ^ 32, n / 2 ^ 32 % 2 ^ 32]

/-- The sixteen words of a selected entry (R237). -/
def Mod.windowWords (m : Mod) (bank table index : Nat) : List Nat :=
  let b := m.bank bank
  if table = 0 then
    let e := tentry b index
    [e.elems, e.zeros, e.sats, e.nonfin, e.ovf.toNat].flatMap words64
  else if table = 1 then
    let e := lentry b index
    [e.gradZeros, e.gradNonfin, e.underflows, e.momSats, e.ccSats, e.masterNonfin, e.updated,
      tget (fun _ => 0) m.health.quiet index].flatMap words64
  else words64 (tget (fun _ => 0) m.health.mquiet index)

/-- A window read fills the data registers with the entry as it stands (R222). -/
def Mod.windowRead (m : Mod) : Mod :=
  let bank := m.f HLT.WIN_SEL.BANK
  let b := m.bank bank
  let ws := m.windowWords bank (m.f HLT.WIN_SEL.TABLE) (m.f HLT.WIN_SEL.INDEX)
  let m := (List.range 16).foldl (fun m i => m.wr (HLT.WIN_D.o i) (BitVec.ofNat 32 (ws.getD i 0))) m
  let k := b.step.getD 0
  let m := m.sets [(HLT.WIN_STAT.DONE, 1), (HLT.WIN_STAT.FINAL, b.final.toNat), (HLT.WIN_STEP_LO.VAL, k), (HLT.WIN_STEP_HI.VAL, k / 2 ^ 32)]
  m.hltOf fun h => { h with winDue := false }

/-- `GO` asks for a window read, and `DONE` is clear until it is done: when a register shows it, at the end of the next command, or when
the block idles (log entry 107). -/
def Mod.windowGo (m : Mod) : Mod := (m.set HLT.WIN_STAT.DONE 0).hltOf fun h => { h with winDue := true }

/-- The module with a window read that was asked for done. -/
def Mod.windowDone (m : Mod) : Mod := if m.health.winDue then m.windowRead else m

/-- The last final bank: the final one of the later step; none when neither is final. -/
def Mod.lastFinal (m : Mod) : Option Bank :=
  match m.health.bank0.final, m.health.bank1.final with
  | false, false => none
  | true, false => some m.health.bank0
  | false, true => some m.health.bank1
  | true, true => some (if m.health.bank0.step.getD 0 < m.health.bank1.step.getD 0 then m.health.bank1 else m.health.bank0)

/-- The four sums over the entries of the last final bank (R236). -/
def Mod.healthSums (m : Mod) : List Nat :=
  match m.lastFinal with
  | none => [0, 0, 0, 0]
  | some b =>
    let t := b.tensor
    [(t.map fun e => e.2.elems).sum, (t.map fun e => e.2.zeros).sum, (t.map fun e => e.2.sats).sum, (t.map fun e => e.2.nonfin).sum]

/-! ## Tile checks (R233, R234) -/

/-- A recorded product, exact. -/
def sampleProduct (o : Word × Word × Int) : Num := ((num32 o.1).mul (num32 o.2.1)).scale o.2.2

/-- Whether an element agrees with its recomputation (R233). -/
def tileAgrees (n : Nat) (e : Word × List (Word × Word × Int)) : Bool :=
  let ps := e.2.map sampleProduct
  let r := num32 (ps.foldl (fun a p => foldNum a p) 0)
  let a := num32 e.1
  match a, r with
  | .nan, .nan => true
  | .inf x, .inf y => x == y
  | .fin _ _ _, .fin _ _ _ =>
    let diff := (a.add r.neg).abs
    -- 2.002 × n × 2⁻²⁴ × Σ|p| + 2.002 × n × 2⁻¹⁵⁰, compared after multiplication by 1000
    let bound := ((Num.sum (ps.map Num.abs)).mul (.fin false (2002 * n) (-24))).add (.fin false (2002 * n) (-150))
    !(bound.lt (diff.mul (.fin false 1000 0)))
  | _, _ => false

/-- Tile checks run in the `RECOV` checked steps to come (R232). -/
def Mod.openTiles (m : Mod) : Mod := m.hltOf fun h => { h with tcLeft := m.f HLT.TC_CTL.RECOV }

/-- The oldest sample of a core is checked, while checks run and under the tile-check budget (R27, R232): a mismatch is counted,
raised and handed to the classification. -/
def Mod.tileCheck (m : Mod) (n : Nat) : Mod :=
  match m.health.samples.find? (fun s => s.core == n && m.tileWindow && m.budget 1 != 0) with
  | none => m
  | some s =>
    let m := m.hltOf fun h => { h with samples := h.samples.eraseP (·.core == n) }
    let m := m.count HLT.SN_TC_RUN_LO.o 1
    if s.elems.all (tileAgrees s.n) then m
    else
      let m := (m.count HLT.SN_TC_BAD_LO.o 1).raiseHLT 4 [(HLT.EVT_INFO.INDEX, n)]
      m.charge 0x04 n 0 0 0 0

/-! ## Recovery (R231, R238) -/

/-- Every quiet counter becomes zero. -/
def Mod.clearQuiet (m : Mod) : Mod := m.hltOf fun h => { h with quiet := [], mquiet := [] }

/-- Warm recovery clears both banks and the quiet counters and cancels a vote; tile checks run in the `RECOV` checked steps after it
(R232). -/
def Mod.warmHealth (m : Mod) : Mod :=
  (m.clearQuiet.hltOf fun h => { h with
    bank0 := Bank.empty, bank1 := Bank.empty, winDue := false, samples := [], tcLeft := m.f HLT.TC_CTL.RECOV }).set HLT.STAT.VOTING 0

/-- Warm recovery of the UPD block (R218). -/
def Mod.warmUpdate (m : Mod) : Mod :=
  { (m.updOf fun u => { Upd.init with nextWrite := u.nextWrite, digOwn := u.digOwn, digMir := u.digMir, digStep := u.digStep }) with
    stalk := [] }.set UPD.STAT.PHASE 0

/-- The Stalk's highest filled granule plus one (R199). -/
def Mod.stalkHigh (m : Mod) : Nat := m.stalk.foldl (fun a e => max a (e.1 + 1)) 0

end Sys2Proof.Machine
end

