-- ==== Sys2Proof/Machine/Transc.lean ====
section
/-! DEFINITION. exp, ln, tanh, the logistic function and 1/√ of R185 and R144, correctly rounded: each is formed to more than
200 bits, with a sticky last bit. No value of these functions at an FP32 argument other than the exact cases lies within
2⁻¹⁵⁰ of a rounding boundary, so one rounding of the result is the rounding of the exact value (log entry 43). -/

namespace Sys2Proof.Machine

/-- Bits after the point. -/
def tP : Nat := 320

/-- ln 2 × 2^P, by 2 × artanh(1/3). -/
def ln2P : Nat :=
  2 * ((List.range 110).map fun k => 2 ^ tP / ((2 * k + 1) * 3 ^ (2 * k + 1))).sum

/-- exp(r) × 2^P for 0 ≤ r < 1, r given × 2^P. -/
def expSeries (r : Nat) : Nat :=
  ((List.range 75).foldl (fun (acc : Nat × Nat) k =>
    let t := acc.2 * r / 2 ^ tP / (k + 1)
    (acc.1 + t, t)) (2 ^ tP, 2 ^ tP)).1

/-- A value just above m × 2^e, below (m + 1) × 2^e. -/
def sticky (neg : Bool) (m : Nat) (e : Int) : Num := .fin neg (2 * m + 1) (e - 1)

/-- exp of a finite value. From ±256 on the result rounds to an infinity or to zero in every format. -/
def expFin (neg : Bool) (m : Nat) (e : Int) : Num :=
  if m = 0 then .fin false 1 0
  else if 8 ≤ (Nat.log2 m : Int) + e then .fin false 1 (if neg then -1000 else 1000)
  else
    -- x × 2^P, exact for every FP32 argument
    let x : Int := Num.intAt neg m (e + tP) 0
    let n : Int := x / ln2P
    let r := (x - n * ln2P).toNat
    sticky false (expSeries r) (n - tP)

/-- exp (R144, R185). -/
def Num.exp : Num → Num
  | .nan => .nan
  | .inf false => .inf false
  | .inf true => .fin false 0 0
  | .fin n m e => expFin n m e

/-- ln of a positive finite value. -/
def lnFin (m : Nat) (e : Int) : Num :=
  let k := Nat.log2 m
  let f := m * 2 ^ tP / 2 ^ k
  let n : Int := e + k
  if m = 2 ^ k ∧ n = 0 then .fin false 0 0
  else
    let z := (f - 2 ^ tP) * 2 ^ tP / (f + 2 ^ tP)
    let z2 := z * z / 2 ^ tP
    let s := ((List.range 110).foldl (fun (acc : Nat × Nat) i =>
      (acc.1 + acc.2 / (2 * i + 1), acc.2 * z2 / 2 ^ tP)) (0, z)).1
    let v : Int := 2 * (s : Int) + n * (ln2P : Int)
    sticky (decide (v < 0)) v.natAbs (-(tP : Int))

/-- tanh of a finite value. Below 2⁻⁴⁰ the result lies just inside x; beyond 64 just inside ±1. -/
def tanhFin (neg : Bool) (m : Nat) (e : Int) : Num :=
  if m = 0 then .fin neg 0 0
  else if (Nat.log2 m : Int) + e < -40 then .fin neg (m * 2 ^ 64 - 1) (e - 64)
  else if 6 ≤ (Nat.log2 m : Int) + e then .fin neg (2 ^ 200 - 1) (-200)
  else
    let t := expFin false m (e + 1)
    match (t.add (.fin true 1 0)).div (t.add (.fin false 1 0)) with
    | .fin _ a b => .fin neg a b
    | y => y

def Num.tanh : Num → Num
  | .nan => .nan
  | .inf n => .fin n 1 0
  | .fin n m e => tanhFin n m e

/-- 1 / (1 + exp(−a)). -/
def Num.sigmoid : Num → Num
  | .nan => .nan
  | .inf false => .fin false 1 0
  | .inf true => .fin false 0 0
  | .fin n m e =>
    if m = 0 then .fin false 1 (-1)
    else (Num.fin false 1 0).div ((Num.fin false 1 0).add (expFin (!n) m e))

/-- 1 / √a of a positive finite value. -/
def rsqrtFin (m : Nat) (e : Int) : Num :=
  let odd := (e % 2).toNat
  let m := m * 2 ^ odd
  let r := Nat.sqrt (2 ^ 400 / m)
  let x : Int := -(e - odd) / 2 - 200
  if r * r * m = 2 ^ 400 then .fin false r x else sticky false r x

end Sys2Proof.Machine
end

