-- ==== Sys2Proof/Machine/Fennel.lean ====
section
/-! DEFINITION. Fennel: its descriptors (R139–R142), gating (R143, R144), placement (R146–R148), route and slot records (R149,
R150), ROW packets (R151–R154) and the four operations (R155, R156). -/

namespace Sys2Proof.Machine

/-! ## Descriptor (R140) -/

structure FenD where
  t : Nat
  k : Nat
  norm : Nat
  lfmt : Nat
  pfmt : Nat
  zfill : Bool
  e : Nat
  layer : Nat
  mb : Nat
  c : Nat
  nsub : Nat
  d : Nat
  logit : Nat
  row : Nat
  rowPitch : Nat
  rr : Nat
  stg : Nat
  place : Nat
  buf : Nat
  hostStride : Nat
  subStride : Nat
  bufPitch : Nat
  srec : Nat
  fill : Nat
  ggrad : Nat
  rsv : Nat
deriving DecidableEq, Repr

/-- The descriptor's fields. Bits [63:40] of HOST_STRIDE, which the table names nowhere, count as reserved (DESIGN CHOICE, log entry
94). -/
def fenDesc (bs : List Byte) : FenD where
  t := dbits bs 8 15 0
  k := dbits bs 8 19 16
  norm := dbits bs 8 21 20
  lfmt := dbits bs 8 22 22
  pfmt := dbits bs 8 23 23
  zfill := dbits bs 8 24 24 == 1
  e := dbits bs 12 10 0
  layer := dbits bs 12 23 16
  mb := dbits bs 12 31 24
  c := dbits bs 16 15 0
  nsub := dbits bs 16 23 16
  d := dbits bs 20 14 0
  logit := dfield bs 24 6
  row := dfield bs 32 6
  rowPitch := dbits bs 40 23 0
  rr := dfield bs 48 6
  stg := dfield bs 56 6
  place := dfield bs 64 6
  buf := dfield bs 72 6
  hostStride := dfield bs 80 5
  subStride := dfield bs 88 4
  bufPitch := dbits bs 92 23 0
  srec := dfield bs 96 6
  fill := dfield bs 104 6
  ggrad := dfield bs 112 6
  rsv := dbits bs 8 31 25 + dbits bs 12 15 11 + dbits bs 16 31 24 + dbits bs 20 31 15 + dfield bs 30 2 + dfield bs 38 2 +
    dbits bs 40 31 24 + dfield bs 44 4 + dfield bs 54 2 + dfield bs 62 2 + dfield bs 70 2 + dfield bs 78 2 + dfield bs 85 3 +
    dbits bs 92 31 24 + dfield bs 102 2 + dfield bs 110 2 + dfield bs 118 2 + dfield bs 120 8

/-- Bytes of an element and of a row in buffers and packets (PFMT). -/
def FenD.pw (d : FenD) : Nat := if d.pfmt = 1 then 4 else 2
def FenD.rowBytes (d : FenD) : Nat := d.d * d.pw

/-- The address of slot `s` of the hosted expert with host index `h` (R148). -/
def FenD.slotAddr (d : FenD) (h s : Nat) : Nat :=
  d.buf + h * d.hostStride + s % d.nsub * d.subStride + s / d.nsub * d.bufPitch

/-- Entries of the placement table (R141). -/
def plMod (w : Nat) : Nat := w % 8192
def plHost (w : Nat) : Nat := bits w 19 16
def plRsv (w : Nat) : Nat := bits w 15 13 + bits w 63 20

/-- Hosted experts of an identity, as expert and host index. -/
def hostedBy (ident : Nat) (pl : List Nat) : List (Nat × Nat) :=
  (pl.zipIdx).filterMap fun e => if plMod e.1 = ident then some (e.2, plHost e.1) else none

/-- Field checks of R142, order 1. That a length or pitch which is no multiple of what R140 asks for gives FEN_FIELD and not FEN_RANGE is a
DESIGN CHOICE (log entry 94). -/
def FenD.badField (d : FenD) (op : Nat) : Bool :=
  d.rsv != 0 || d.norm == 3 || d.rowPitch % 64 != 0 || d.subStride % 64 != 0 || d.bufPitch % 64 != 0 || d.d % 16 != 0 ||
    (op != 0x40 && d.logit != 0) || (op != 0x42 && d.ggrad != 0)

/-- Counts outside their ranges (R142, order 2). -/
def FenD.badCount (d : FenD) : Bool :=
  d.t == 0 || d.k == 0 || decide (8 < d.k) || decide (d.e < d.k) || decide (d.e < 2) || decide (1024 < d.e) || d.c == 0 ||
    decide (32768 < d.c) || d.nsub == 0 || decide (128 < d.nsub) || decide (d.d < 16) || decide (16384 < d.d)

/-- Regions that an operation addresses on this module, with the host indices of its hosted experts (R140). DISPATCH uses no staging rows,
and `STG_BASE` is not checked for it (DESIGN CHOICE, log entry 114). -/
def FenD.regions (d : FenD) (op : Nat) (hs : List Nat) : List (Nat × Nat) :=
  let src := d.d * (if op = 0x40 then 2 else 4)
  (if op = 0x40 then [(d.logit, d.t * d.e * (if d.lfmt = 1 then 2 else 4))] else []) ++
  [(d.row, (d.t - 1) * d.rowPitch + src), (d.rr, d.t * d.k * 8 + 16)] ++
  (if op = 0x40 then [] else [(d.stg, d.t * d.k * d.d * 4)]) ++
  (if op = 0x42 then [(d.ggrad, d.t * d.k * 4)] else []) ++
  hs.flatMap fun h => [(d.srec + h * d.c * 8, d.c * 8), (d.fill + 4 * h, 4)] ++
    (List.range d.c).map fun s => (d.slotAddr h s, d.rowBytes)

/-- Whether the buffers of two hosted experts overlap. -/
def FenD.bufClash (d : FenD) (hs : List Nat) : Bool :=
  hs.any fun a => hs.any fun b => a != b && (List.range d.c).any fun s => (List.range d.c).any fun u =>
    decide (d.slotAddr a s < d.slotAddr b u + d.rowBytes) && decide (d.slotAddr b u < d.slotAddr a s + d.rowBytes)

/-- Placement checks (R141; R142, order 3). -/
def Mod.badPlace (m : Mod) (pl : List Nat) : Bool :=
  pl.any (fun w => plRsv w != 0 || !m.inSlice (plMod w)) ||
    !decide ((pl.map fun w => (plMod w, plHost w)).Nodup)

/-- Elements of a row as codes. -/
def fenWords (w : Nat) (bs : List Byte) : List Nat := (pieces w (bs.length / w) bs).map leNat

/-! ## Operations open (R153) -/

def Mod.fenOf (m : Mod) (f : Fennel → Fennel) : Mod := { m with fen := f m.fen }

/-- The identifier of an operation. -/
def FenOp.same (o p : FenOp) : Bool := o.core == p.core && o.q == p.q && o.num == p.num

def Mod.setOp (m : Mod) (o : FenOp) : Mod :=
  m.fenOf fun f => { f with ops := f.ops.map fun x => if x.same o then o else x }

/-- The open operation now stored for `o`. -/
def Mod.getOp (m : Mod) (o : FenOp) : Option FenOp := m.fen.ops.find? fun x => x.same o

/-- An event of Fennel (R157). -/
def Mod.fenEvent (m : Mod) (code op layer mb src : Nat) : Mod :=
  m.raiseFEN code [(FEN.EVT_OP.OPCODE, op), (FEN.EVT_OP.LAYER, layer), (FEN.EVT_OP.MB, mb), (FEN.EVT_SRC.MODULE, src)]

/-- The queue's descriptor ends with a status and the operation closes: it counts as completed in its step. -/
def Mod.fenClose (m : Mod) (o : FenOp) (status : Nat) : Mod :=
  let m := match (m.queue o.core o.q).taken.find? (·.num == o.num) with
    | some d => (m.hubDone o.core o.q o.num).endDesc o.core o.q d status
    | none => m
  ((m.hubEnd 146 o.num o.op o.tag status).fenOf fun f => { f with
    ops := f.ops.filter fun x => !x.same o
    done := f.done ++ [(m.tagStep o.tag, o.ident, o.op, o.layer, o.mb)] }).progress 146

/-- An operation ends with FEN_GROUP, FEN_PROTO or FEN_DATA and its event. -/
def Mod.fenFail (m : Mod) (o : FenOp) (status src : Nat) : Mod :=
  let code := if status = 0x33 then 2 else if status = 0x34 then 1 else 5
  (m.fenEvent code o.op o.layer o.mb src).fenClose o status

/-- An operation completes once its rows are sent and every row it receives has come. -/
def Mod.fenEnd (m : Mod) (o : FenOp) : Mod :=
  match m.getOp o with
  | some x => if x.sent ∧ x.rows.isEmpty then m.fenClose x 0 else m
  | none => m

/-- What Fennel's accesses carry. -/
def FenOp.by_ (o : FenOp) : By := By.hub (some o.tag)

/-! ## Rows sent (R151, R154) -/

/-- The payloads that carry a row. -/
def fenPayloads (op layer mb fmt e s t j : Nat) (row : List Byte) : List (List Byte) :=
  ((pieces 240 ((row.length + 239) / 240) row).zipIdx).map fun p =>
    let h := op + 2 ^ 8 * layer + 2 ^ 16 * mb + 2 ^ 24 * e + 2 ^ 40 * s + 2 ^ 56 * t + 2 ^ 72 * j + 2 ^ 75 * fmt +
      2 ^ 80 * (15 * p.2) + 2 ^ 96 * (p.1.length / 16)
    leBytes 16 h ++ p.1 ++ List.replicate (240 - p.1.length) 0

/-- A row is sent in marked packets. -/
def Mod.fenSend (m : Mod) (o : FenOp) (fmt dest e s t j : Nat) (row : List Byte) : Mod :=
  (fenPayloads o.op o.layer o.mb fmt e s t j row).foldl (fun m pay =>
    (m.sendMarked o.ident dest o.tag clsFEN 0 0 pay).1.progress 146) m

/-- A number converted to PFMT. -/
def fenCode (pfmt : Nat) (x : Num) : Nat := if pfmt = 1 then fmtFP32.encode x else fmtBF16.encode x

/-! ## Gating (R143, R144) -/

/-- Experts and logits in order of decreasing logit, equal ones by increasing index. -/
def insertLogit (x : Nat × Num) : List (Nat × Num) → List (Nat × Num)
  | [] => [x]
  | y :: r => if y.2.lt x.2 then x :: y :: r else y :: insertLogit x r

def sortLogits (l : List (Nat × Num)) : List (Nat × Num) := l.foldl (fun acc x => insertLogit x acc) []

/-- Experts by increasing index. -/
def insertIdx (x : Nat × Num) : List (Nat × Num) → List (Nat × Num)
  | [] => [x]
  | y :: r => if x.1 < y.1 then x :: y :: r else y :: insertIdx x r

def sortIdx (l : List (Nat × Num)) : List (Nat × Num) := l.foldl (fun acc x => insertIdx x acc) []

/-- Gate values over a set U of experts and logits, ascending by expert (R144). -/
def gatesOver (u : List (Nat × Num)) : List (Nat × Word) :=
  match u with
  | [] => []
  | x :: r =>
    let mx := r.foldl (fun a y => if a.lt y.2 then y.2 else a) x.2
    let p := u.map fun y => (y.1, toFP32 (num32 (toFP32 (y.2.add mx.neg))).exp)
    let z := match p with
      | [] => (0 : Word)
      | a :: rest => rest.foldl (fun z y => fold32 z y.2) a.2
    p.map fun y => (y.1, fdiv y.2 z)

def gateOf (g : List (Nat × Word)) (e : Nat) : Word := ((g.find? (·.1 == e)).map (·.2)).getD 0

/-- Choices of a token and their gates, or logits under NORM PLACED; none for a token with a non-finite logit. -/
def chooseToken (k norm : Nat) (l : List Num) : List Nat × List Word :=
  if l.any (fun x => !x.isFinite) then ([], [])
  else
    let all := (l.zipIdx).map fun x => (x.2, x.1)
    let sel := (sortLogits all).take k
    let g := if norm = 0 then gatesOver all else if norm = 1 then gatesOver (sortIdx sel) else []
    (sel.map (·.1), sel.map fun x => if norm = 2 then toFP32 x.2 else gateOf g x.1)

/-- Choices of every token; none when a logit cannot be read. -/
def Mod.gateTokens (m : Mod) (o : FenOp) (d : FenD) : List Nat → Mod × Option (List (List Nat × List Word))
  | [] => (m, some [])
  | t :: rest =>
    let w := if d.lfmt = 1 then 2 else 4
    match m.load o.by_ (d.logit + t * d.e * w) (d.e * w) with
    | (m, none) => (m, none)
    | (m, some bs) =>
      let x := chooseToken d.k d.norm ((fenWords w bs).map (if d.lfmt = 1 then fmtBF16 else fmtFP32).decode)
      match Mod.gateTokens m o d rest with
      | (m, none) => (m, none)
      | (m, some l) => (m, some (x :: l))

/-- Own counts n[e][j], keyed e × K + j. -/
def countVec (k : Nat) (chosen : List (List Nat)) : Tbl Nat :=
  chosen.foldl (fun tb c => (c.zipIdx).foldl (fun tb x =>
    tset (fun _ => 0) tb (x.1 * k + x.2) (tget (fun _ => 0) tb (x.1 * k + x.2) + 1)) tb) []

/-- The signature of a DISPATCH: opcode, LAYER, MB, E, K, C, NORM, PFMT and D (R146). -/
def FenD.signature (d : FenD) : List Nat := [0x40, d.layer, d.mb, d.e, d.k, d.c, d.norm, d.pfmt, d.d]

/-- What names the scan of an operation: its place among the DISPATCHes of its attempt, which every module of the slice issues in one order
(R153). So scans of unequal signatures meet, and their comparison fails (R146). -/
def FenOp.scanUse (o : FenOp) : Nat := o.tag * 2 ^ 16 + o.scan

/-- The count vector goes to the collectives engine with the signature of the descriptor (R146). -/
def Mod.submitScan (m : Mod) (o : FenOp) (d : FenD) (chosen : List (List Nat)) : Mod :=
  let tb := countVec d.k chosen
  m.contribute kScan o.scanUse o.tag o.ident (d.signature ++ (List.range (d.e * d.k)).map (tget (fun _ => 0) tb))

/-- DISPATCH gates its tokens and submits its count vector; tokens with non-finite logits are counted and reported (R143). -/
def Mod.dispatchOpen (m : Mod) (o : FenOp) (d : FenD) : Mod :=
  match m.gateTokens o d (List.range d.t) with
  | (m, none) => m.fenFail o 0x35 0
  | (m, some l) =>
    let bad := (l.filter (·.1.isEmpty)).length
    let m := (m.setOp { o with chosen := l.map (·.1), gates := l.map (·.2) }).submitScan o d (l.map (·.1))
    if bad = 0 then m
    else
      let m := (m.count FEN.SN_NONFIN_LO.o bad).fenEvent 4 o.op o.layer o.mb 0
      m.countTag o.tag fun b => { b with routeNonfin := b.routeNonfin + bad }

/-! ## Placement (R146–R150) -/

/-- Slots of the choices, by token and choice (R147). -/
def slotsOf (k : Nat) (pre tot : Nat → Nat) (chosen : List (List Nat)) : List (List Nat) :=
  (chosen.foldl (fun (acc : List (List Nat) × Tbl Nat) c =>
    let r := (c.zipIdx).foldl (fun (a : List Nat × Tbl Nat) x =>
      let key := x.1 * k + x.2
      let n := tget (fun _ => 0) a.2 key
      let base := ((List.range x.2).map fun j => tot (x.1 * k + j)).sum
      (a.1 ++ [base + pre key + n], tset (fun _ => 0) a.2 key (n + 1))) ([], acc.2)
    (acc.1 ++ [r.1], r.2)) ([], [])).1

/-- The route record entry of a choice (R149). -/
def routeEntry (g : Word) (e : Nat) (slot : Option Nat) : Nat :=
  match slot with
  | some s => g.toNat + 2 ^ 32 * e + 2 ^ 42 + 2 ^ 48 * s
  | none => 2 ^ 32 * e

def reG (w : Nat) : Word := BitVec.ofNat 32 w
def reExpert (w : Nat) : Nat := bits w 41 32
def rePlaced (w : Nat) : Bool := w.testBit 42
def reSlot (w : Nat) : Nat := bits w 63 48

/-- Gates of a token's choices once their places are known (R144). -/
def finalGates (norm : Nat) (chosen : List Nat) (gates : List Word) (slots : List Nat) (c : Nat) : List Word :=
  if norm = 2 then
    let u := sortIdx ((chosen.zipIdx).filterMap fun x =>
      if slots.getD x.2 c < c then some (x.1, num32 (gates.getD x.2 0)) else none)
    chosen.map (gateOf (gatesOver u))
  else gates

/-- Route record of a token: K entries. -/
def tokenRoute (d : FenD) (chosen : List Nat) (gates : List Word) (slots : List Nat) : List Nat :=
  let g := finalGates d.norm chosen gates slots d.c
  (List.range d.k).map fun j => match chosen[j]? with
    | none => 0
    | some e =>
      let s := slots.getD j d.c
      routeEntry (g.getD j 0) e (if s < d.c then some s else none)

/-- Token rows of the placed choices of DISPATCH are sent; false when a row cannot be read. -/
def Mod.sendTokens (m : Mod) (o : FenOp) (d : FenD) (pl : List Nat) : List (Nat × List Nat) → Mod × Bool
  | [] => (m, true)
  | (t, route) :: rest =>
    if !(route.any rePlaced) then Mod.sendTokens m o d pl rest
    else
      match m.load o.by_ (d.row + t * d.rowPitch) (2 * d.d) with
      | (m, none) => (m, false)
      | (m, some bs) =>
        let row := if d.pfmt = 0 then bs
          else (fenWords 2 bs).flatMap fun c => leBytes 4 (fmtFP32.encode (fmtBF16.decode c))
        let m := (route.zipIdx).foldl (fun m x =>
          if rePlaced x.1 then m.fenSend o d.pfmt (plMod (pl.getD (reExpert x.1) 0)) (reExpert x.1) (reSlot x.1) t x.2 row
          else m) m
        Mod.sendTokens m o d pl rest

/-- The placement table. -/
def Mod.placement (m : Mod) (b : By) (d : FenD) : Mod × Option (List Nat) :=
  match m.load b d.place (8 * d.e) with
  | (m, none) => (m, none)
  | (m, some bs) => (m, some (fenWords 8 bs))

/-- Under `ZFILL`, the slots of a hosted expert that no row fills, with +0 in every element (R148). -/
def FenD.zeroSlots (d : FenD) (f : Nat × Nat × Nat) : List (Nat × List Byte) :=
  if d.zfill then (List.range (d.c - f.2.2)).map fun i => (d.slotAddr f.2.1 (f.2.2 + i), List.replicate d.rowBytes 0) else []

/-- The host side of a DISPATCH: fill words, zero-fill, and the rows it waits for (R148, R150). -/
def Mod.hostFills (m : Mod) (o : FenOp) (d : FenD) (fills : List (Nat × Nat × Nat)) : Mod × Bool :=
  m.stores o.by_ (fills.flatMap fun f => (d.fill + 4 * f.2.1, leBytes 4 f.2.2) :: d.zeroSlots f)

/-- Row keys of the filled slots of the hosted experts. -/
def slotKeys (fills : List (Nat × Nat × Nat)) : List Nat :=
  fills.flatMap fun f => (List.range f.2.2).map fun s => f.1 * 32768 + s

/-- Counts of a DISPATCH (R149, R157). -/
def Mod.countRoutes (m : Mod) (placed dropped full : Nat) : Mod :=
  ((m.count FEN.SN_PLACED_LO.o placed).count FEN.SN_DROPPED_LO.o dropped).count FEN.SN_FULLDROP_LO.o full

/-- The scan has returned and the signatures agree: choices are placed, the route record is written, rows are sent and the host
side waits for its slots. A token with non-finite logits counts as fully dropped, and none of its K choices counts as dropped
(DESIGN CHOICE, log entry 94). -/
def Mod.scanPlaced (m : Mod) (o : FenOp) (d : FenD) (pl : List Nat) (pre tot : Nat → Nat) : Mod :=
  let slots := slotsOf d.k pre tot o.chosen
  let routes := (List.range d.t).map fun t =>
    tokenRoute d (o.chosen.getD t []) (o.gates.getD t []) (slots.getD t [])
  let placed := countB (routes.flatten.map rePlaced)
  let dropped := ((o.chosen.map List.length).sum) - placed
  let full := countB (routes.map fun r => !(r.any rePlaced))
  let bad := countB (o.chosen.map List.isEmpty)
  let summary := leBytes 4 placed ++ leBytes 4 dropped ++ leBytes 4 full ++ leBytes 4 bad
  let fills := (hostedBy o.ident pl).map fun x =>
    (x.1, x.2, min d.c ((List.range d.k).map fun j => tot (x.1 * d.k + j)).sum)
  let (m, ok1) := m.stores o.by_ [(d.rr, routes.flatten.flatMap (leBytes 8) ++ summary)]
  let (m, ok2) := m.hostFills o d fills
  let m := m.countRoutes placed dropped full
  match m.sendTokens o d pl ((routes.zipIdx).map fun x => (x.2, x.1)) with
  | (m, ok3) =>
    if !(ok1 && ok2 && ok3) then m.fenFail o 0x35 0
    else m.setOp { o with
      fills := fills, rows := slotKeys fills, scanned := true, sent := true
      routes := (routes.flatten.zipIdx).filterMap fun x => if rePlaced x.1 then some (x.2, reSlot x.1 + 1) else none }

/-! ## COMBINE and the backward operations (R155, R156) -/

/-- Route record entries of every choice. -/
def Mod.readRoutes (m : Mod) (o : FenOp) (d : FenD) : Mod × Option (List Nat) :=
  match m.load o.by_ d.rr (8 * d.t * d.k) with
  | (m, none) => (m, none)
  | (m, some bs) => (m, some (fenWords 8 bs))

/-- Fill words of the hosted experts. -/
def Mod.readFills (m : Mod) (o : FenOp) (d : FenD) : List (Nat × Nat) → Mod × Option (List (Nat × Nat × Nat))
  | [] => (m, some [])
  | (e, h) :: rest =>
    match m.loadNat o.by_ (d.fill + 4 * h) 4 with
    | (m, none) => (m, none)
    | (m, some f) =>
      match Mod.readFills m o d rest with
      | (m, none) => (m, none)
      | (m, some l) => (m, some ((e, h, min f d.c) :: l))

/-- Rows of the filled slots are sent to the sources that the slot records name (R150). -/
def Mod.sendSlots (m : Mod) (o : FenOp) (d : FenD) : List (Nat × Nat × Nat) → Mod × Bool
  | [] => (m, true)
  | (e, h, s) :: rest =>
    match m.loadNat o.by_ (d.srec + (h * d.c + s) * 8) 8 with
    | (m, none) => (m, false)
    | (m, some r) =>
      match m.load o.by_ (d.slotAddr h s) d.rowBytes with
      | (m, none) => (m, false)
      | (m, some row) =>
        Mod.sendSlots (m.fenSend o d.pfmt (r % 8192) e s (bits r 31 16) (bits r 15 13) row) o d rest

/-- The staging row of a choice. -/
def FenD.stgAddr (d : FenD) (key : Nat) : Nat := d.stg + key * d.d * 4

/-- The sum row of a token over its placed choices (R155, R156): Σ g × o for COMBINE, Σ dx for COMBINE_BWD, exact and rounded
once. A token with no placed choice has +0. -/
def sumRow (combine : Bool) (n : Nat) (rows : List (Word × List Num)) : List Byte :=
  (List.range n).flatMap fun i =>
    leBytes 4 (toFP32 (Num.sum (rows.map fun r =>
      let x := r.2.getD i (.fin false 0 0)
      if combine then (num32 r.1).mul x else x))).toNat

/-- The combined or summed row of token `t` is written; false when a staging row or the route record cannot be read. -/
def Mod.writeToken (m : Mod) (o : FenOp) (d : FenD) (t : Nat) : Mod × Bool :=
  match m.load o.by_ (d.rr + 8 * t * d.k) (8 * d.k) with
  | (m, none) => (m, false)
  | (m, some bs) =>
    let route := (fenWords 8 bs).zipIdx.filter fun x => rePlaced x.1
    match m.loads o.by_ (route.map fun x => (d.stgAddr (t * d.k + x.2), 4 * d.d)) with
    | (m, none) => (m, false)
    | (m, some rows) =>
      let ops := (route.zip rows).map fun x => (reG x.1.1, (fenWords 4 x.2).map fmtFP32.decode)
      m.store o.by_ (d.row + t * d.rowPitch) (sumRow (o.op == 0x41) d.d ops)

def Mod.writeTokens (m : Mod) (o : FenOp) (d : FenD) : List Nat → Mod × Bool
  | [] => (m, true)
  | t :: rest =>
    match m.writeToken o d t with
    | (m, false) => (m, false)
    | (m, true) => Mod.writeTokens m o d rest

/-- COMBINE and COMBINE_BWD: the host side sends its filled slots, the source side waits for every placed choice and writes +0
for the tokens that have none. -/
def Mod.combineOpen (m : Mod) (o : FenOp) (d : FenD) (pl : List Nat) : Mod :=
  match m.readRoutes o d with
  | (m, none) => m.fenFail o 0x35 0
  | (m, some routes) =>
    match m.readFills o d (hostedBy o.ident pl) with
    | (m, none) => m.fenFail o 0x35 0
    | (m, some fills) =>
      let keys := (routes.zipIdx).filterMap fun x => if rePlaced x.1 then some x.2 else none
      let none_ := (List.range d.t).filter fun t => !(keys.any fun k => k / d.k == t)
      let m := m.setOp { o with fills := fills, rows := keys, scanned := true, sent := true }
      match m.writeTokens o d none_ with
      | (m, false) => m.fenFail o 0x35 0
      | (m, true) =>
        match m.sendSlots o d (fills.flatMap fun f => (List.range f.2.2).map fun s => (f.1, f.2.1, s)) with
        | (m, false) => m.fenFail o 0x35 0
        | (m, true) => m

/-- DISPATCH_BWD of one token: its rows sent and its gate gradients written (R156). -/
def Mod.bwdToken (m : Mod) (o : FenOp) (d : FenD) (pl : List Nat) (t : Nat) (route : List Nat) : Mod × Bool :=
  match m.load o.by_ (d.row + t * d.rowPitch) (4 * d.d) with
  | (m, none) => (m, false)
  | (m, some bs) =>
    let dy := (fenWords 4 bs).map fmtFP32.decode
    let placed := route.zipIdx.filter fun x => rePlaced x.1
    match m.loads o.by_ (placed.map fun x => (d.stgAddr (t * d.k + x.2), 4 * d.d)) with
    | (m, none) => (m, false)
    | (m, some rows) =>
      let dot (j : Nat) : Word := match (placed.zip rows).find? (·.1.2 == j) with
        | some x => toFP32 (Num.sum ((dy.zip ((fenWords 4 x.2).map fmtFP32.decode)).map fun y => y.1.mul y.2))
        | none => 0
      let (m, ok) := m.store o.by_ (d.ggrad + t * d.k * 4)
        ((List.range d.k).flatMap fun j => leBytes 4 (dot j).toNat)
      (placed.foldl (fun m x =>
        let row := dy.flatMap fun y => leBytes d.pw (fenCode d.pfmt ((num32 (reG x.1)).mul y))
        m.fenSend o d.pfmt (plMod (pl.getD (reExpert x.1) 0)) (reExpert x.1) (reSlot x.1) t x.2 row) m, ok)

def Mod.bwdTokens (m : Mod) (o : FenOp) (d : FenD) (pl routes : List Nat) : List Nat → Mod × Bool
  | [] => (m, true)
  | t :: rest =>
    match m.bwdToken o d pl t ((routes.drop (t * d.k)).take d.k) with
    | (m, false) => (m, false)
    | (m, true) => Mod.bwdTokens m o d pl routes rest

/-- DISPATCH_BWD: rows and gate gradients of the source side, zero-fill and awaited slots of the host side (R148, R156). -/
def Mod.dispatchBwdOpen (m : Mod) (o : FenOp) (d : FenD) (pl : List Nat) : Mod :=
  match m.readRoutes o d with
  | (m, none) => m.fenFail o 0x35 0
  | (m, some routes) =>
    match m.readFills o d (hostedBy o.ident pl) with
    | (m, none) => m.fenFail o 0x35 0
    | (m, some fills) =>
      let m := ((m.stores o.by_ (fills.flatMap d.zeroSlots)).1).setOp
        { o with fills := fills, rows := slotKeys fills, scanned := true, sent := true }
      match m.bwdTokens o d pl routes (List.range d.t) with
      | (m, false) => m.fenFail o 0x35 0
      | (m, true) => m

/-! ## ROW packets (R151–R154) -/

/-- The Fennel header of a packet. -/
def rowHdr (p : Pkt) : Nat := payNat p 0 16
def rowOp (h : Nat) : Nat := h % 256
def rowLayer (h : Nat) : Nat := bits h 15 8
def rowMb (h : Nat) : Nat := bits h 23 16
def rowExpert (h : Nat) : Nat := bits h 33 24
def rowSlot (h : Nat) : Nat := bits h 55 40
def rowToken (h : Nat) : Nat := bits h 71 56
def rowChoice (h : Nat) : Nat := bits h 74 72
def rowFmt (h : Nat) : Nat := bits h 75 75
def rowOffset (h : Nat) : Nat := bits h 95 80
def rowLen (h : Nat) : Nat := bits h 103 96

/-- Whether a header's reserved bits are zero and its OP and LEN are ones that R151 gives. That R152 refuses an OP outside 0x40–0x43
and a LEN of 0 or above 15 is a DESIGN CHOICE (log entry 94). -/
def rowHdrOk (h : Nat) : Bool :=
  bits h 39 34 == 0 && bits h 79 76 == 0 && bits h 127 104 == 0 && decide (0x40 ≤ rowOp h) && decide (rowOp h ≤ 0x43) &&
    decide (1 ≤ rowLen h) && decide (rowLen h ≤ 15)

/-- The open operation that a packet names. -/
def Mod.rowTarget (m : Mod) (p : Pkt) : Option FenOp :=
  let h := rowHdr p
  m.fen.ops.find? fun o => o.ident == destOf p && o.op == rowOp h && o.layer == rowLayer h && o.mb == rowMb h

/-- A packet is refused: the operation it names completes with FEN_PROTO (R152). -/
def Mod.refuseRow (m : Mod) (p : Pkt) : Mod :=
  let h := rowHdr p
  match m.rowTarget p with
  | some o => m.fenFail o 0x34 (srcOf p)
  | none => (m.fenEvent 1 (rowOp h) (rowLayer h) (rowMb h) (srcOf p)).fault (some (tagOf p)) 2

/-- Units of a row that have come, and whether the row is whole. -/
def FenOp.gotUnits (o : FenOp) (key off len : Nat) : List Nat :=
  o.got ++ ((List.range len).map fun i => key * 8192 + off + i).filter fun x => !o.got.contains x

def rowWhole (got : List Nat) (key units : Nat) : Bool :=
  decide ((got.filter fun x => x / 8192 == key).length = units)

/-- A row's units are noted; a whole row is no longer awaited. -/
def FenOp.note (o : FenOp) (key off len units : Nat) : FenOp :=
  let g := o.gotUnits key off len
  if rowWhole g key units then { o with got := g.filter fun x => x / 8192 != key, rows := o.rows.filter (· != key) }
  else { o with got := g }

/-- A packet for a host (DISPATCH, DISPATCH_BWD). -/
def Mod.hostRow (m : Mod) (o : FenOp) (d : FenD) (p : Pkt) : Mod :=
  let h := rowHdr p
  let e := rowExpert h
  let s := rowSlot h
  let key := e * 32768 + s
  match o.fills.find? (·.1 == e) with
  | none => m.refuseRow p
  | some f =>
    let at_ := d.srec + (f.2.1 * d.c + s) * 8
    let rec_ := srcOf p + 2 ^ 13 * rowChoice h + 2 ^ 16 * rowToken h + 2 ^ 63
    let fresh := o.op == 0x40 && o.rows.contains key && !(o.got.any fun x => x / 8192 == key)
    if f.2.2 ≤ s ∨ d.k ≤ rowChoice h then m.refuseRow p
    else
      match (if fresh then (m, some rec_) else m.loadNat o.by_ at_ 8) with
      | (m, none) => m.fenFail o 0x35 0
      | (m, some r) =>
        if r ≠ rec_ then m.refuseRow p
        else
          let (m, ok1) := if fresh then m.store o.by_ at_ (leBytes 8 rec_) else (m, true)
          let (m, ok2) := m.store o.by_ (d.slotAddr f.2.1 s + 16 * rowOffset h) ((p.payload.drop 16).take (16 * rowLen h))
          if !(ok1 && ok2) then m.fenFail o 0x35 0
          else
            let o' := o.note key (rowOffset h) (rowLen h) (d.rowBytes / 16)
            ((m.setOp o').progress 146).fenEnd o'

/-- A packet for a source (COMBINE, COMBINE_BWD). The rows of either wait in the rows at `STG_BASE` until every one of their token has come;
for COMBINE_BWD the spec names no place (DESIGN CHOICE, log entry 114). -/
def Mod.sourceRow (m : Mod) (o : FenOp) (d : FenD) (p : Pkt) : Mod :=
  let h := rowHdr p
  let t := rowToken h
  let j := rowChoice h
  let key := t * d.k + j
  if d.t ≤ t ∨ d.k ≤ j then m.refuseRow p
  else
    match m.loadNat o.by_ (d.rr + 8 * key) 8 with
    | (m, none) => m.fenFail o 0x35 0
    | (m, some r) =>
      if !rePlaced r ∨ reExpert r ≠ rowExpert h ∨ reSlot r ≠ rowSlot h then m.refuseRow p
      else
        let data := (p.payload.drop 16).take (16 * rowLen h)
        let wide := if d.pfmt = 1 then data
          else (fenWords 2 data).flatMap fun c => leBytes 4 (fmtFP32.encode (fmtBF16.decode c))
        match m.store o.by_ (d.stgAddr key + 16 * rowOffset h * (4 / d.pw)) wide with
        | (m, false) => m.fenFail o 0x35 0
        | (m, true) =>
          let o' := o.note key (rowOffset h) (rowLen h) (d.rowBytes / 16)
          let m := (m.setOp o').progress 146
          if o.rows.contains key && !(o'.rows.any fun k => k / d.k == t) then
            match m.writeToken o' d t with
            | (m, false) => m.fenFail o' 0x35 0
            | (m, true) => m.fenEnd o'
          else m

/-- A packet of an open operation is checked and written, or refused. -/
def Mod.rowFor (m : Mod) (o : FenOp) (p : Pkt) : Mod :=
  let d := fenDesc o.bytes
  let h := rowHdr p
  if rowFmt h ≠ d.pfmt ∨ d.rowBytes / 16 < rowOffset h + rowLen h then m.refuseRow p
  else if o.op = 0x40 ∨ o.op = 0x42 then m.hostRow o d p
  else m.sourceRow o d p

/-- A ROW packet (R152, R153). One whose operation is not open, or whose scan has not returned, is held. -/
def Mod.takeRow (m : Mod) (port : Nat) (p : Pkt) : Mod :=
  let h := rowHdr p
  if !m.is FEN.CFG.ENABLE ∨ !rowHdrOk h ∨
      m.fen.done.contains (m.tagStep (tagOf p), destOf p, rowOp h, rowLayer h, rowMb h) then m.refuseRow p
  else match m.rowTarget p with
    | some o => if o.scanned then m.rowFor o p
      else (m.fenOf fun f => { f with early := f.early ++ [(port, p)] }).count FEN.SN_EARLY_LO.o 1
    | none => (m.fenOf fun f => { f with early := f.early ++ [(port, p)] }).count FEN.SN_EARLY_LO.o 1

/-- Packets held for an operation are delivered in the order they came. -/
def Mod.deliverEarly (m : Mod) (o : FenOp) : Mod :=
  let named (p : Pkt) : Bool :=
    let h := rowHdr p
    o.ident == destOf p && o.op == rowOp h && o.layer == rowLayer h && o.mb == rowMb h
  let l := m.fen.early.filter fun e => named e.2
  l.foldl (fun m e => match m.getOp o with
    | some x => m.rowFor x e.2
    | none => m.refuseRow e.2) (m.fenOf fun f => { f with early := f.early.filter fun e => !named e.2 })

/-- Packets that the early-arrival store holds: 512 KiB of packets of 272 bytes (R153). -/
def earlyCap : Nat := 1927

/-- `EARLY_USED` in 64-byte units, and whether the store is full. -/
def Mod.earlyUsed (m : Mod) : Nat := min 8192 ((272 * m.fen.early.length + 63) / 64)
def Mod.earlyFull (m : Mod) : Bool := decide (earlyCap ≤ m.fen.early.length)

/-! ## Opening (R142, R153) -/

/-- The checks of R142 that need no slice: status 0 and the placement table when the descriptor may open. A table that cannot be read ends
the descriptor with FEN_DATA before the other regions are checked; and two entries that give this module one host index name one buffer,
so the check of order 3 answers for them and not that of order 2 (DESIGN CHOICE, log entry 114). -/
def Mod.fenCheck (m : Mod) (n q : Nat) (e : Desc) : Mod × Nat × List Nat :=
  let d := fenDesc e.bytes
  let op := hOpcode e.bytes
  if !m.is FEN.CFG.ENABLE ∨ d.badField op then (m, 0x30, [])
  else if d.badCount ∨ !m.inWork d.place (8 * d.e) then (m, 0x31, [])
  else
    match m.placement (By.hub (some e.tag)) d with
    | (m, none) => (m, 0x35, [])
    | (m, some pl) =>
      let hs := ((hostedBy (m.identOf n q) pl).map (·.2)).dedup
      if !((d.regions op hs).all fun r => m.inWork r.1 r.2) ∨ d.bufClash hs then (m, 0x31, [])
      else if m.badPlace pl then (m, 0x32, [])
      else (m, 0, pl)

/-- Scans that an identity has submitted in an attempt. -/
def Mod.scansOf (m : Mod) (tag ident : Nat) : Nat :=
  (m.coll.own.filter fun c => c.kind == kScan && c.tag == tag && c.ident == ident).length

/-- The operation that a descriptor opens: nothing of it has come or gone. -/
def Mod.newOp (m : Mod) (n q : Nat) (e : Desc) : FenOp :=
  let d := fenDesc e.bytes
  ⟨n, q, e.num, e.tag, m.identOf n q, hOpcode e.bytes, d.layer, d.mb, e.bytes, [], [], [], [], [], [], false, false,
   m.scansOf e.tag (m.identOf n q)⟩

/-- The descriptor is issued, a request of its context to the hub (R176), and its operation stands among the open ones. -/
def Mod.opensOp (m : Mod) (n q : Nat) (e : Desc) (o : FenOp) : Mod :=
  (((m.mapDesc n q e.num fun x => { x with wait := 0, issued := true }).hubTaken n e).fenOf fun f => { f with ops := f.ops ++ [o] }).hubStart
    146 o.num o.op o.tag

/-- The operation of a descriptor opens. -/
def Mod.fenGo (m : Mod) (n q : Nat) (e : Desc) : Mod :=
  let d := fenDesc e.bytes
  let op := hOpcode e.bytes
  match m.fenCheck n q e with
  | (m, 0, pl) =>
    let o := m.newOp n q e
    let m := m.opensOp n q e o
    if op = 0x40 then m.dispatchOpen o d
    else
      let m := if op = 0x42 then m.dispatchBwdOpen o d pl else m.combineOpen o d pl
      (m.deliverEarly o).fenEnd o
  | (m, st, _) =>
    let m := if st = 0x32 then m.fenEvent 3 op d.layer d.mb 0 else if st = 0x35 then m.fenEvent 5 op d.layer d.mb 0 else m
    m.endDesc n q e st

/-- Queues whose Fennel descriptors wait, as core × 4 + queue and in that order (DESIGN CHOICE, log entry 112). -/
def Mod.fenRequests (m : Mod) : List Nat := (List.range 512).filter fun i => (m.waiter (i / 4) (i % 4) 5).isSome

/-- A Fennel descriptor opens, or waits while four operations are open or others wait before it (R51, R153). -/
def Mod.runFennel (m : Mod) (n q op : Nat) : Mod :=
  match m.running n q op with
  | none => m
  | some e =>
    if m.is FEN.CFG.ENABLE ∧ (4 ≤ m.fen.ops.length ∨ !m.fenRequests.isEmpty) then m.mapDesc n q e.num fun x => { x with wait := 5 }
    else m.fenGo n q e

/-- Once fewer than four operations are open, the waiting descriptor opens that Fennel's arbiter grants; the named queue is the one it
settles on where requests meet (R51). -/
def Mod.openFennel (m : Mod) (n q : Nat) : Mod :=
  let reqs := m.fenRequests
  match m.grant 128 reqs (4 * n + q) with
  | none => m
  | some g =>
    match m.waiter (g / 4) (g % 4) 5 with
    | none => m
    | some e => if 4 ≤ m.fen.ops.length then m else (m.granted 128 reqs g).fenGo (g / 4) (g % 4) e

/-- What the scan of the open operation `i` returns with: by expert and choice the counts of the lower ranks and of all, and whether all
signatures are equal. -/
def Mod.scanHeld (m : Mod) (i : Nat) : Option ScanResult :=
  (m.fen.ops[i]?).bind fun o => (m.gathered kScan o.scanUse).map fun l =>
    let d := fenDesc o.bytes
    let keys := List.range (d.e * d.k)
    let rank := if l.length = 1 then 0 else m.rankOf o.ident
    ⟨keys.map fun key => (column (l.take rank) (9 + key)).sum, keys.map fun key => (column l (9 + key)).sum,
      !(l.any fun w => w.take 9 != d.signature)⟩

/-- The slice-wide scan of an open DISPATCH returns (R146): with equal signatures of all ranks the choices are placed by the prefix over
the lower ranks and the total, else the operation ends with FEN_GROUP. -/
def Mod.scanResult (m : Mod) (i : Nat) : Mod :=
  match m.fen.ops[i]? with
  | none => m
  | some o =>
    if o.op ≠ 0x40 ∨ o.scanned then m
    else
      let d := fenDesc o.bytes
      match m.gathered kScan o.scanUse with
      | none => m
      | some l =>
        let m := m.smallTaken kScan o.scanUse
        if l.any fun w => w.take 9 != d.signature then m.fenFail o 0x33 0
        else
          match m.placement o.by_ d with
          | (m, none) => m.fenFail o 0x35 0
          | (m, some pl) =>
            let rank := if l.length = 1 then 0 else m.rankOf o.ident
            let m := m.scanPlaced o d pl (fun key => (column (l.take rank) (9 + key)).sum) (fun key => (column l (9 + key)).sum)
            (m.deliverEarly o).fenEnd o

end Sys2Proof.Machine
end

