-- ==== Sys2Proof/Machine/Memory.lean ====
section
/-! DEFINITION. The memory sides at work: refresh and temperature (R239), remap copies and requests (R274–R276), the scrubber
(R278–R280), and the actions that follow an uncorrectable unit (R271, R272, R384). -/

namespace Sys2Proof.Machine

/-! ## Stacks (R239) -/

/-- Whether a stack is trained and in service. -/
def Mod.inService (m : Mod) (s : Nat) : Bool :=
  (m.rd MEM.STAT.o).getLsbD s && !m.down (128 + s)

/-- A bank of a stack is refreshed, and its activations are counted anew (log entry 95). -/
def Mod.refreshBank (m : Mod) (s bank : Nat) : Mod :=
  if !m.inService s then m
  else m.mside fun x => { x with
    acts := terase (fun k => k / 512 == s && k % 16 == bank % 16) x.acts
    refreshed := tset (fun _ => 0) x.refreshed (64 * s + bank % 16) (tget (fun _ => 0) x.refreshed (64 * s + bank % 16) + 1) }

/-- The temperature readout of a stack; above 85 °C the refresh interval halves. -/
def Mod.readTemp (m : Mod) (s temp : Nat) : Mod :=
  if !m.inService s then m
  else m.sets [(MEM.STK_STAT.TEMP s, temp), (MEM.STK_STAT.HOT s, if 85 < temp then 1 else 0)]

/-! ## Remapping (R274–R276) -/

/-- The oldest copy of a stack ends. -/
def Mod.copyDone (m : Mod) (s : Nat) : Mod :=
  match m.memside.remaps.find? (·.stack == s) with
  | none => m
  | some j => m.slotFilled j

/-- The address and granularity of the software request. -/
def Mod.remapAsked (m : Mod) : Nat := m.pair48 MPR.REMAP_REQ_LO.o MPR.REMAP_REQ_HI.o

/-- Whether an earlier software request is being carried out, or a stack's table is full (R282). -/
def Mod.remapBusy (m : Mod) (a : Nat) : Bool :=
  m.memside.remaps.any (·.cause == 2) || (m.freeEntry (stackOf a)).isNone

/-- The software request starts its copy. -/
def Mod.remapReq (m : Mod) : Mod := m.remap (m.remapAsked / 64) 2 (m.f MPR.REMAP_REQ_HI.GRAN) none

/-! ## The scrubber (R278–R280) -/

/-- Bytes and access units of a slice. -/
def sliceBytes : Nat := 0x1000000
def sliceUnits : Nat := 262144

def Mod.scrubBase (m : Mod) : Nat := m.pair48 MPR.SCRUB_BASE_LO.o MPR.SCRUB_BASE_HI.o
def Mod.scrubSum (m : Mod) : Nat := m.pair48 MPR.SCRUB_SUM_LO.o MPR.SCRUB_SUM_HI.o

def Mod.scrubOf (m : Mod) (f : Scrub → Scrub) : Mod := m.mside fun s => { s with scrub := f s.scrub }

/-- The budgets of the CFG block come into force (R481). -/
def Mod.loadBudgets (m : Mod) : Mod :=
  let l := [m.f CFG.BUDGET0.SCRUB_US, m.f CFG.BUDGET0.TILE_US, m.f CFG.BUDGET1.TRACE_US, m.f CFG.BUDGET1.PARITY_US]
  let t := l.zipIdx.foldl (fun t e => tset (fun _ => 0) t e.2 e.1) m.memside.budget
  m.mside fun s => { s with budget := t }

/-- Whether a memory side takes no new work: it has acknowledged the quiesce request, or is down (R423). -/
def Mod.stacksRest (m : Mod) : Bool := (List.range 8).any fun s => m.quiesced (128 + s) || m.down (128 + s)

/-- A pass starts. -/
def Mod.startScrub (m : Mod) : Mod :=
  if m.stacksRest then m
  else
  let m := m.noteReset 1 (m.f MPR.SCRUB_STAT.SLICES)
  (m.scrubOf fun _ => { Scrub.none with stepAtGo := m.curStep }).sets [(MPR.STAT.SCRUB_BUSY, 1), (MPR.SCRUB_STAT.SLICES, 0)]

/-- The pass ends with its summary and SCRUB_DONE (R280). -/
def Mod.endScrub (m : Mod) (aborted : Bool) : Mod :=
  let s := m.memside.scrub
  let sum := leBytes 8 m.scrubBase ++ leBytes 4 (m.f MPR.SCRUB_LEN.UNITS) ++ leBytes 4 (m.f MPR.SCRUB_STAT.SLICES) ++
    leBytes 8 s.read ++ leBytes 4 s.corrected ++ leBytes 4 s.uncorrectable ++ leBytes 4 s.filled ++ leBytes 4 s.marked ++
    leBytes 8 (match s.firstUe with | some u => 64 * u | none => 0xFFFFFFFFFFFFFFFF) ++
    leBytes 8 (s.stepAtGo % 2 ^ 48 + (if aborted then 2 ^ 48 else 0)) ++ leBytes 8 (m.curStep % 2 ^ 48)
  let m := m.set MPR.STAT.SCRUB_BUSY 0
  (m.storeOwn ⟨3, none, 3, 128⟩ m.scrubSum sum).1.raiseMPR 6 []

/-- One unit in error scrubbed: read, decoded, and written back where a correction was needed. The flags say whether it was
corrected and whether it is uncorrectable. -/
def Mod.scrubUnit (m : Mod) (u : Nat) : Mod × Bool × Bool :=
  match m.senseUnit u with
  | (m, some bs, true) =>
    match (m.corrected u bs).sinkUnit ⟨3, none, 3, 128⟩ u bs with
    | (m, true) => (m, true, false)
    | (m, false) => (m, true, true)
  | (m, some _, false) => (m, false, false)
  | (m, none, _) => (m.ueUnit ⟨3, none, 3, 128⟩ u, false, true)

/-- Counts of a completed slice enter the pass. -/
def Scrub.add (s : Scrub) (c u : Nat) (first : Option Nat) : Scrub :=
  { s with read := s.read + sliceUnits, corrected := s.corrected + c, uncorrectable := s.uncorrectable + u,
           firstUe := s.firstUe.or first }

/-- The next slice of a scrub pass reads its units (R278, R279). -/
def Mod.sliceRun (m : Mod) (z : Noise) (dropped : Bool) : Mod :=
  let u0 := (m.scrubBase + m.f MPR.SCRUB_STAT.SLICES * sliceBytes) / 64
  let by_ : By := ⟨3, none, 3, 128⟩
  let m := (m.strike z).bulk by_ MEM.SN_RD_BYTES_LO.o [(64 * u0, sliceBytes)]
  let us := ((m.memside.hbmErr.map (·.1) ++ m.memside.bus.map (·.1)).dedup).filter fun u => decide (u0 ≤ u) && decide (u < u0 + sliceUnits)
  let filled := m.memside.scrub.filled
  let marked := m.memside.scrub.marked
  let r := us.foldl (fun (acc : Mod × Nat × List Nat) u =>
    match acc.1.scrubUnit u with
    | (m, c, bad) => (m, acc.2.1 + c.toNat, if bad then acc.2.2 ++ [u] else acc.2.2)) (m, 0, [])
  let m := r.1.count MPR.SN_SCRUB_LO.o sliceUnits
  if dropped then m.scrubOf fun s => { s with filled := filled, marked := marked }
  else
    let m := m.scrubOf fun s => s.add r.2.1 r.2.2.length r.2.2.head?
    let n := m.f MPR.SCRUB_STAT.SLICES + 1
    let m := (m.set MPR.SCRUB_STAT.SLICES n).stackProgress (64 * u0) sliceBytes (fun n => n)
    if m.f MPR.SCRUB_LEN.UNITS ≤ n then m.endScrub false else m

/-- A slice runs under the scrub budget (R27). A slice that a step boundary drops keeps its write-backs and is run again; its counts
enter the summary only from the run that completes (R278). The scrubber names its units by address, whatever views the windows
give (log entry 42). -/
def Mod.runSlice (m : Mod) (z : Noise) (dropped : Bool) : Mod :=
  if !m.is MPR.STAT.SCRUB_BUSY || m.budget 0 == 0 || m.stacksRest then m
  else
    m.sliceRun z dropped

/-- Warm recovery ends a pass without a summary (R283). -/
def Mod.warmScrub (m : Mod) : Mod :=
  (m.scrubOf fun _ => Scrub.none).sets [(MPR.STAT.SCRUB_BUSY, 0), (MPR.SCRUB_STAT.SLICES, 0)]

/-! ## After an uncorrectable unit (R271, R272, R384) -/

/-- Whether the module has a partner that can serve a fetch. -/
def Mod.hasPartner (m : Mod) : Bool := m.dup.paired && m.dup.rm == 0 && m.dup.rmIn == 0

/-- A Bulb generation is marked damaged (R271): GEN_DAMAGED, and its record in the history (R401). -/
def Mod.damageGen (m : Mod) (g side : Nat) : Mod :=
  if m.is (BLB.GEN_STAT.DAMAGED g) then m
  else
    let m := (m.set (BLB.GEN_STAT.DAMAGED g) 1).hist 0x0B side 3 0 0 g
    m.raiseBLB 5 (m.f (BLB.GEN_C.C g)) 0 g 0

/-- A Bulb generation is written anew, and its damage bit clear (R401). The history takes a record that says so, after which a start-up
does not set the bit again (log entry 119). -/
def Mod.mendGen (m : Mod) (g : Nat) : Mod :=
  if m.is (BLB.GEN_STAT.DAMAGED g) then (m.set (BLB.GEN_STAT.DAMAGED g) 0).hist 0x0B 128 3 0 0 (g + 2) else m

/-- Whether the history in flash has a generation damaged: the last record on it says so (R401). -/
def Mod.damageKept (m : Mod) (g : Nat) : Bool :=
  (m.test.hist.find? fun r => r.kind == 0x0B && r.detail == 3 && r.data % 2 == g).any fun r => decide (r.data < 2)

/-- How many steps' updates a region reflects: one more than the last step whose pass has written it. -/
def Mod.updates (m : Mod) (target : Nat) : Nat :=
  if (if target = 0 then m.upd.ownDone else m.upd.mirDone) then m.upd.step + 1 else m.steps.oldest

/-- The tag of the step whose update a block of a region reflects (R384); before the first update, that of the step before step 0. -/
def Mod.blockTag (m : Mod) (target : Nat) : Nat :=
  let k := m.updates target
  if k = 0 then 0xFFF0 else m.tagFor (k - 1)

/-- How many steps' updates a tag asks for. -/
def Mod.updatesOf (m : Mod) (g : Nat) : Nat := if g = 0xFFF0 ∧ m.steps.oldest < 2048 then 0 else m.tagStep g + 1

/-- A fetch that cannot be served: STATE_LOST (R272). -/
def Mod.loseFetch (m : Mod) (f : Fetch) : Mod :=
  let a := (if f.target = 0 then 0 else m.regionBase 2) + f.off
  (m.mside fun s => { s with fetches := s.fetches.map fun x => if x = f then { f with sent := true, lost := true } else x }).raiseMPR
    7 (m.unitFields (a / 64))

/-- A fetch is asked of the partner, or is lost when there is none. -/
def Mod.sendFetch (m : Mod) (f : Fetch) : Mod :=
  if !m.hasPartner then m.loseFetch f
  else
    let m := m.mside fun s => { s with fetches := s.fetches.map fun x => if x = f then { f with sent := true } else x }
    m.sendDup (m.blockTag f.target) 7 0
      (leBytes 1 f.target ++ List.replicate 7 0 ++ leBytes 6 f.off ++ [0, 0])

/-- Fetches that have not been asked for yet. -/
def Mod.sendFetches (m : Mod) : Mod := (m.memside.fetches.filter fun f => !f.sent).foldl Mod.sendFetch m

/-- A fetch is wanted; one of the same block that is outstanding serves for both. -/
def Mod.wantFetch (m : Mod) (target off waiter : Nat) (fault : Bool) : Mod :=
  if m.memside.fetches.any (fun f => f.target == target && f.off == off) then
    m.mside fun s => { s with fetches := s.fetches.map fun f =>
      if f.target = target ∧ f.off = off then { f with fault := f.fault || fault, waiter := max f.waiter waiter } else f }
  else m.mside fun s => { s with fetches := s.fetches ++ [⟨target, off, false, waiter, fault, [], false⟩] }

/-- The action of the region that holds an uncorrectable unit (R271). `why` is the reader, as in `MemSide.ues`. -/
def Mod.ueAction (m : Mod) (u why : Nat) : Mod :=
  let a := 64 * u
  let waiter := if why = 1 then 1 else if why = 2 then 2 else 0
  match m.regionOf a with
  | 1 => m.wantFetch 0 (a / 2048 * 2048) waiter (why == 0)
  | 2 => m.wantFetch 1 ((a - m.regionBase 2) / 2048 * 2048) waiter (why == 0)
  | 3 => m.damageGen ((a - m.regionBase 3) / m.sizeS) (128 + stackOf a)
  | 4 => m.damageGen ((a - m.regionBase 4) / (m.sizeS / 8)) (128 + stackOf a)
  | 5 => m.ledgerUnit (a - m.regionBase 5)
  | _ => m

/-- The actions of every uncorrectable unit met so far. -/
def Mod.ueActions (m : Mod) : Mod :=
  let l := m.memside.ues
  if l.isEmpty then m
  else l.foldl (fun m e => m.ueAction e.1 e.2) (m.mside fun s => { s with ues := [] })

/-- A fetched block is in place: its fetch leaves the list and a waiting reader goes on. -/
def Mod.fetchEnds (m : Mod) (f : Fetch) : Mod :=
  let m := m.mside fun s => { s with fetches := s.fetches.eraseP fun x => x.target == f.target && x.off == f.off }
  let m := if m.copying then m.copyState else m
  if m.upd.running && !m.upd.latched then m.sixLatch else m

/-- First byte of the region that a fetch fills. -/
def Mod.fetchBase (m : Mod) (target : Nat) : Nat := if target = 0 then 0 else m.regionBase 2

/-- The block fetched from the partner arrives and is written; other than 2048 bytes say that the partner cannot read it. -/
def Mod.fetchDone (m : Mod) (data : List Byte) : Mod :=
  match m.memside.fetches.find? fun f => f.sent && !f.lost with
  | none => m
  | some f =>
    if data.length = 2048 then
      match m.store ⟨3, none, 3, 128⟩ (m.fetchBase f.target + f.off) data with
      | (m, true) => m.fetchEnds f
      | (m, false) => m.loseFetch f
    else m.loseFetch f

/-- A fetch reply in an RM_DATA packet: 16-byte units of a block (R384, R386). A block that comes with the update of a step whose pass has
not run here yet is treated as updated for that step. -/
def Mod.fetchReply (m : Mod) (tag target off : Nat) (bytes : List Byte) : Mod :=
  match m.memside.fetches.find? fun f =>
    f.sent && !f.lost && f.target == target && decide (f.off ≤ off) && decide (off + bytes.length ≤ f.off + 2048) with
  | none => m
  | some f =>
    match m.store ⟨3, none, 3, 128⟩ (m.fetchBase target + off) bytes with
    | (m, false) => m.loseFetch f
    | (m, true) =>
    let us := (List.range (bytes.length / 16)).map fun i => (off - f.off) / 16 + i
    let f' := { f with got := (f.got ++ us).dedup }
    let k := m.updatesOf tag
    let m := if k ≤ m.updates target then m
      else m.mside fun s => { s with updated := (s.updated.filter fun x => !(x.1 == target && x.2.1 == f.off)) ++ [(target, f.off, k - 1)] }
    if f'.got.length = 128 then m.fetchEnds f
    else m.mside fun s => { s with fetches := s.fetches.map fun x => if x = f then f' else x }

/-- Fetches that wait on a partner which is lost cannot be served (R272). -/
def Mod.loseFetches (m : Mod) : Mod := (m.memside.fetches.filter fun f => !f.lost).foldl Mod.loseFetch m

/-! ## Recovery (R261) -/

/-- Warm recovery of the MEM block: every step-tagged window cleared and freed, FREE or OPEN, merge buffers emptied, waiting adds
dropped. -/
def Mod.warmMem (m : Mod) : Mod :=
  let ws := (List.range 16).filter fun w => m.is (MEM.WIN_ATTR.VALID w) && m.is (MEM.WIN_ATTR.STEPTAG w)
  (ws.foldl Mod.freeWindow m).mside fun s => { s with waitAdds := [], fetches := [], ues := [], merge := [] }

end Sys2Proof.Machine
end

