-- ==== Sys2Proof/Machine/Links.lean ====
section
/-! DEFINITION. Optical ports and the link (R284–R316): negotiation, framing, retry, credits, fences and link loss. Packets that a
frame delivers are handled in Receive.lean. -/

namespace Sys2Proof.Machine

def Mod.onPort (m : Mod) (p : Nat) (f : Port → Port) : Mod := m.setPort p (f (m.port p))

/-! ## Negotiation (R287–R290) -/

/-- Lanes and lane rate of a rank (R287). -/
def modeOf (rank : Nat) : Nat × Nat :=
  [(16, 200), (16, 100), (8, 200), (16, 50), (8, 100), (4, 200), (8, 50), (4, 100), (4, 50)].getD (rank - 1) (0, 0)

/-- Bit of a lane rate in CAPS byte 0. -/
def rateBit (rate : Nat) : Nat := if rate = 50 then 0 else if rate = 100 then 1 else 2

/-- The lowest-numbered `n` fibres of a mask; none when it holds fewer. -/
def pickFibres (mask n : Nat) : Option Nat :=
  let l := (List.range 4).filter fun f => mask.testBit f
  if l.length < n then none else some ((l.take n).foldl (fun a f => a + 2 ^ f) 0)

/-- The CAPS payload that a port sends (R290). -/
def Mod.capsPayload (m : Mod) (p rank fibres : Nat) : List Byte :=
  leBytes 1 (m.f LNK.CAPS.RATES) ++ leBytes 1 (m.f LNK.CAPS.IL) ++ leBytes 1 1 ++ leBytes 1 p ++ leBytes 2 m.id ++
    leBytes 1 rank ++ leBytes 1 fibres ++ List.replicate 8 0

/-- Fields of a CAPS payload. -/
def capsRates (b : List Byte) : Nat := dfield b 0 1
def capsIl (b : List Byte) : Bool := dfield b 1 1 % 2 == 1
def capsVersions (b : List Byte) : Nat := dfield b 2 1
def capsPort (b : List Byte) : Nat := dfield b 3 1 % 16
def capsId (b : List Byte) : Nat := dfield b 4 2 % 8192
def capsRank (b : List Byte) : Nat := dfield b 6 1
def capsPass (b : List Byte) : Nat := dfield b 7 1 % 16

/-- Whether a peer's port number keeps R284; 8 is a host adapter. -/
def peerPortOk (p q : Nat) : Bool :=
  if p < 6 then q == (if p % 2 = 0 then p + 1 else p - 1) else if p = 6 then q == 6 else q == 7 || q == 8

/-- Base training starts (R288): the port is in TRAINING from now on. -/
def Mod.startBase (m : Mod) (p : Nat) : Mod :=
  (m.onPort p fun x => { x with
    live := 0, caps := [], rank := 0, fibres := 0, passed := [], base := true, peerReport := none, wiring := false,
    capsOut := m.capsPayload p 0 0 }).sets
      [(LNK.PORT_STAT.STATE p, pTRAINING), (LNK.PORT_STAT.RANK p, 0), (LNK.PORT_STAT.BY_PEER p, 0)]

/-- The port enters DOWN and negotiates, or stays DOWN while its domain is down (R288, R314). The partner port signals partner loss to the
duplex logic (R312, R369). -/
def Mod.enterDown (m : Mod) (p : Nat) : Mod :=
  let m := m.count (LNK.SN_RETRAIN_LO.o p) 1
  let m := m.sets [(LNK.PORT_STAT.STATE p, pDOWN), (LNK.PORT_STAT.RANK p, 0), (LNK.PORT_STAT.FIBRES p, 0), (LNK.PORT_STAT.IL p, 0),
    (LNK.PORT_STAT.BY_PEER p, 0)]
  let m := if p = m.pport then { m with dup := { m.dup with signal := some 1 } } else m
  if m.down (136 + p) then m.onPort p fun x => { x with base := false, rank := 0 } else m.startBase p

/-- Link counts and buffers of a fresh start: all counts at zero (R313). -/
def Port.restart (x : Port) : Port :=
  { x with fseq := 0, acked := 0xFFFF, retry := [], stream := [], prevCrc := 0, resend := none, resends := 0, rxSeq := 0xFFFF,
           nak := false, partialUnits := [], cl := [], used := [], got := [], freed := [], clSent := [], rejoin := false }

/-- A port leaves UP for a cause of R312. -/
def Mod.linkDown (m : Mod) (p : Nat) : Mod :=
  if m.pstate p ≠ pUP then m
  else
    let peer := m.peer p
    let m := m.onPort p fun x => { x with reup := some (peer, m.peerPort p) }
    (m.enterDown p).raiseLNK 2 p peer

/-- Negotiation fails: the port is DOWN until it starts again (R288). -/
def Mod.negFail (m : Mod) (p code peer : Nat) : Mod :=
  let m := m.count (LNK.SN_RETRAIN_LO.o p) 1
  let m := if p = m.pport then { m with dup := { m.dup with signal := some 1 } } else m
  ((m.onPort p fun x => { x with base := false, rank := 0, wiring := code == 5 }).set (LNK.PORT_STAT.STATE p) pDOWN).raiseLNK code p peer

/-- Rates and INTERLEAVED that both ends advertise. -/
def Mod.bothRates (m : Mod) (p : Nat) : Nat :=
  match (m.port p).caps with | [] => 0 | c :: _ => m.f LNK.CAPS.RATES &&& capsRates c.2
def Mod.bothIl (m : Mod) (p : Nat) : Bool :=
  match (m.port p).caps with | [] => false | c :: _ => m.is LNK.CAPS.IL && capsIl c.2

/-- The fibres of a candidate, if it can be tried (R289). -/
def Mod.candidate (m : Mod) (p rank : Nat) : Option Nat :=
  let x := m.port p
  let (lanes, rate) := modeOf rank
  let pool := match x.passed.find? (fun e => e.1 == rate && e.2 != 0) with | some e => e.2 &&& x.live | none => x.live
  if (m.bothRates p).testBit (rateBit rate) then pickFibres pool (lanes / 4) else none

/-- The next candidate after rank `r` up to `FLOOR` is tried, or negotiation fails. -/
def Mod.nextCandidate (m : Mod) (p r : Nat) : Mod :=
  let floor := m.f (LNK.PORT_CTL.FLOOR p)
  match ((List.range (floor - r)).map (r + 1 + ·)).find? fun k => (m.candidate p k).isSome with
  | none => m.negFail p 6 (m.peer p)
  | some k => m.onPort p fun x => { x with base := false, rank := k, fibres := (m.candidate p k).getD 0, peerReport := none }

/-- A CAPS packet: in base training it makes its fibre live, in a candidate it reports the peer's results (R288, R289). -/
def Mod.takeCaps (m : Mod) (p fibre : Nat) (b : List Byte) : Mod :=
  let x := m.port p
  if m.pstate p ≠ pTRAINING ∨ b.length ≠ 16 ∨ leNat (b.drop 8) ≠ 0 then m
  else if x.base then
    if capsRank b = 0 then
      m.onPort p fun x => { x with live := x.live ||| 2 ^ fibre,
                                   caps := (x.caps.filter fun c => c.1 != fibre) ++ [(fibre, b)] }
    else m
  else if capsRank b = x.rank then m.onPort p fun x => { x with peerReport := some (capsPass b) }
  else m

/-- Base training ends after 10 ms: the wiring and version checks (R290), then the first candidate. With the resonator stopped no fibre
trains (R17). -/
def Mod.baseEnd (m : Mod) (p : Nat) : Mod :=
  let x := m.port p
  if m.pstate p ≠ pTRAINING || !x.base then m
  else match (if m.power.resonator then x.caps else []) with
    | [] => m.negFail p 6 0
    | c :: _ =>
      let peer := capsId c.2
      let m := (m.onPort p fun x => { x with known := true }).sets [(LNK.PORT_STAT.PEER p, peer), (LNK.PORT_STAT.PEER_PORT p, capsPort c.2)]
      if x.caps.any fun d => !peerPortOk p (capsPort d.2) || capsId d.2 != peer then m.negFail p 5 peer
      else if !(capsVersions c.2).testBit 0 then m.negFail p 6 peer
      else m.nextCandidate p 0

/-- The port enters UP on a mode (R288). Within 10 ms and with the same peer both ends keep their counts, and the sender resends from
the peer's first ACK; otherwise the port starts fresh, and the LINK_LOST of the peer that it lost is still to come (R313). Silence that was
signalled ends only with a HEARTBEAT (R306). -/
def Mod.enterUp (m : Mod) (p : Nat) : Mod :=
  let x := m.port p
  let same := x.reup == some (m.peer p, m.peerPort p) && !x.lost && !x.emptied
  let m := m.onPort p fun x => { (if same then { x with rejoin := true, resends := 0 } else x.restart) with
    base := false, reup := if same || x.lost then none else x.reup, lost := false, emptied := false }
  let rate := (modeOf x.rank).2
  let m := m.sets [(LNK.PORT_STAT.STATE p, pUP), (LNK.PORT_STAT.BY_PEER p, 0), (LNK.PORT_STAT.RANK p, x.rank),
    (LNK.PORT_STAT.FIBRES p, x.fibres), (LNK.PORT_STAT.IL p, if rate = 200 ∧ m.bothIl p then 1 else 0), (LNK.PORT_VER.VERSION p, 1)]
  (m.raiseLNK (if x.rank = 1 then 1 else 4) p (m.peer p)).progress (136 + p)

/-- A candidate's window ends: this end reports its fibres, and the candidate passes when both ends report every fibre that it uses;
no report from the peer counts as a failure (R289). -/
def Mod.qualifyEnd (m : Mod) (p fibres : Nat) : Mod :=
  let x := m.port p
  if m.pstate p ≠ pTRAINING || x.base || x.rank == 0 then m
  else
    let m := m.onPort p fun x => { x with capsOut := m.capsPayload p x.rank (fibres &&& x.fibres) }
    let both := match x.peerReport with | some r => r &&& fibres &&& x.fibres | none => 0
    if both = x.fibres ∧ m.power.resonator then m.enterUp p
    else
      let rate := (modeOf x.rank).2
      let m := if x.peerReport.isSome ∧ both ≠ 0 then
        m.onPort p fun x => { x with passed := (x.passed.filter fun e => e.1 != rate) ++ [(rate, both)] } else m
      m.nextCandidate p x.rank

/-- One second after a failure the port negotiates again (R288); a wiring failure leaves it DOWN (R290). -/
def Mod.negRestart (m : Mod) (p : Nat) : Mod :=
  let x := m.port p
  if m.pstate p = pDOWN ∧ m.is (LNK.PORT_CTL.ENABLE p) ∧ !x.wiring ∧ !m.down (136 + p) then m.startBase p else m

/-! ## Fences (R310, R311), enabling and loss (R312, R313) -/

/-- Packets that waited at a port are routed again, since the router treats it as absent; those of P6 and P7 are dropped. -/
def Mod.reroute (m : Mod) (p : Nat) : Mod :=
  let l := (m.port p).ready
  let m := m.onPort p fun x => { x with ready := [] }
  if p < 6 then (l.filter fun e => !(e.1.cls.toNat == 0 && e.1.info.toNat % 2 == 1)).foldl (fun m e => m.route e.1 e.2) m else m

/-- The port is FENCED, by this module or by its peer. What R313 still asks of a link that was lost before stands: LINK_LOST at its time, and
absence until the port is UP again (R325). -/
def Mod.enterFenced (m : Mod) (p : Nat) (byPeer : Bool) : Mod :=
  let m := m.onPort p fun x => { x.restart with base := false, rank := 0, emptied := x.reup.isSome }
  (m.sets [(LNK.PORT_STAT.STATE p, pFENCED), (LNK.PORT_STAT.BY_PEER p, byPeer.toNat), (LNK.PORT_STAT.RANK p, 0),
    (LNK.PORT_STAT.FIBRES p, 0), (LNK.PORT_STAT.IL p, 0)]).reroute p

/-- This module fences a port; a DISABLED one has nothing to fence. -/
def Mod.fencePort (m : Mod) (p : Nat) : Mod :=
  if m.pstate p = pDISABLED then m
  else (m.onPort p fun x => { x with ours := true }).enterFenced p false

/-- The port is fenced by its peer (R310). -/
def Mod.peerFence (m : Mod) (p : Nat) : Mod := (m.enterFenced p true).raiseLNK 11 p (m.peer p)

/-- `UNFENCE`: the port retrains, or stays FENCED by its peer. -/
def Mod.unfencePort (m : Mod) (p : Nat) : Mod :=
  let m := m.onPort p fun x => { x with ours := false }
  if (m.port p).peerFences then m.peerFence p
  else if !m.is (LNK.PORT_CTL.ENABLE p) then m.set (LNK.PORT_STAT.STATE p) pDISABLED
  else m.enterDown p

/-- `ENABLE` set: the port negotiates. -/
def Mod.enablePort (m : Mod) (p : Nat) : Mod :=
  if m.pstate p ≠ pDISABLED then m else (m.onPort p fun x => x.restart).startBase p

/-- `ENABLE` cleared: the port is DISABLED, but for a fence of this module, which holds until `UNFENCE`. -/
def Mod.disablePort (m : Mod) (p : Nat) : Mod :=
  if (m.port p).ours then m
  else
    let was := m.pstate p
    let m := m.onPort p fun x => { x.restart with base := false, rank := 0, emptied := x.reup.isSome }
    let m := (m.sets [(LNK.PORT_STAT.STATE p, pDISABLED), (LNK.PORT_STAT.BY_PEER p, 0), (LNK.PORT_STAT.RANK p, 0),
      (LNK.PORT_STAT.FIBRES p, 0), (LNK.PORT_STAT.IL p, 0)]).reroute p
    if p = m.pport ∧ was = pUP then { m with dup := { m.dup with signal := some 1 } } else m

/-- `RETRAIN` (R312): the port goes through DOWN. -/
def Mod.retrainPort (m : Mod) (p : Nat) : Mod :=
  if m.pstate p = pUP then m.linkDown p
  else if m.pstate p = pDOWN ∨ m.pstate p = pTRAINING then m.enterDown p
  else m

/-- Not UP again with the same peer within 10 ms (R313): LINK_LOST, the retry buffer is emptied, packets that waited are dropped (R325),
and the current step fails. A port that is UP with another peer by then has started fresh already. -/
def Mod.linkLost (m : Mod) (p : Nat) : Mod :=
  match (m.port p).reup with
  | none => m
  | some (peer, _) =>
    let up := m.pstate p == pUP
    let waiting := if up then [] else (m.port p).ready
    let m := m.onPort p fun x => if up then { x with reup := none } else { x.restart with reup := none, lost := true, emptied := false, ready := [] }
    let m := m.raiseLNK 3 p peer
    let m := if p < 6 then (waiting.filter fun e => !(e.1.cls.toNat == 0 && e.1.info.toNat % 2 == 1)).foldl (fun m e => m.routeDrop e.1) m
      else m
    m.fault none 3

/-! ## Credits (R297–R299) -/

/-- The share of a class in units. -/
def Mod.share (m : Mod) (p c : Nat) : Nat :=
  64 * (if c % 2 = 0 then m.f (LNK.CRED.SHARE_A p (c / 2)) else m.f (LNK.CRED.SHARE_B p (c / 2)))

/-- Whether packets that the bridge relays still wait for the way out: the host's for the torus, where they arrive on P7, the slice's for P7
elsewhere (R409). -/
def Mod.relayWaits (m : Mod) (p : Nat) : Bool :=
  let mine (typ : Nat) (x : Pkt × Option Nat) : Bool := x.1.cls.toNat == clsCKPT && x.1.typ.toNat == typ
  m.bridging && (if p = 7 then (m.router.held ++ (List.range 7).flatMap fun q => (m.port q).ready).any fun x => mine 6 x && srcOf x.1 == m.id
    else (m.port 7).ready.any (mine 5))

/-- Whether a class's limit is left unchanged: Fennel while the early-arrival store is full, squash while a hold buffer is (R299), REQ
on the bridge's P7 while its input ring has no room for another Pod (R360), and CKPT while what the bridge relays is held up (R409). -/
def Mod.withheld (m : Mod) (p c : Nat) : Bool :=
  (c == clsFEN && m.earlyFull) || (c == clsSQ && m.holdFull) || (p == 7 && c == clsREQ && m.bridging && !m.inRoom) ||
    (c == clsCKPT && m.relayWaits p)

/-- The credit limit that a port reports for a class. -/
def Mod.creditLimit (m : Mod) (p c : Nat) : Nat :=
  if m.withheld p c then tget (fun _ => 0) (m.port p).clSent c
  else (m.share p c + tget (fun _ => 0) (m.port p).freed c) % 65536

/-- Credit that a sender has left for a class. -/
def Port.credit (x : Port) (c : Nat) : Nat := (tget (fun _ => 0) x.cl c + 65536 - tget (fun _ => 0) x.used c) % 65536

/-- Units that stand in the crossing FIFO of a port, and whether it is full, so that its writer is held back (R49, R50). -/
def Port.fifo (x : Port) : List Unit16 := (x.stream.drop 255).take 32
def Port.fifoFull (x : Port) : Bool := x.fifo.length == 32

/-- The packet of a class that a port sends next, with enough credit: 34 units where it enters an axis (R326), its own size otherwise
(R298). -/
def Port.sendable (x : Port) (p c : Nat) : Option (Pkt × Option Nat) :=
  match x.ready.find? (·.1.cls.toNat == c) with
  | none => none
  | some e =>
    let need := if p < 6 ∧ e.2 ≠ some (p / 2) then 34 else pktSize e.1
    if x.credit c < need then none else some e

/-- Classes with a packet that a port may send, in the order of their numbers (DESIGN CHOICE, log entry 112). -/
def Port.sendRequests (x : Port) (p : Nat) : List Nat := (List.range 8).filter fun c => (x.sendable p c).isSome

/-- The packet of the class that the port's arbiter grants is sent; `c` is the class on which it settles where requests meet (R51).
While the crossing FIFO is full the writer waits (R50). -/
def Mod.packetSend (m : Mod) (p c : Nat) : Mod :=
  let x := m.port p
  if m.pstate p ≠ pUP ∨ x.peerFences ∨ x.fifoFull then m
  else
  let reqs := x.sendRequests p
  match m.grant (512 + p) reqs c with
  | none => m
  | some g =>
    match x.sendable p g with
    | none => m
    | some e =>
      let m := (m.granted (512 + p) reqs g).onPort p fun x => { x with
        ready := x.ready.erase e, stream := x.stream ++ pktUnits e.1
        used := tset (fun _ => 0) x.used g ((tget (fun _ => 0) x.used g + pktSize e.1) % 65536) }
      (m.count (LNK.SN_TX_UNITS_LO.o p) (pktSize e.1)).progress (136 + p)

/-! ## Frames (R291–R294) -/

/-- The CRC of the 255 packet units of a frame. -/
def frameCrc (us : List Unit16) : Word := crc32 (us.flatMap fun u => leBytes 16 u.toNat)

/-- The link control unit (R292). -/
def lcuUnit (fseq ack : Nat) (nak fence : Bool) (clA clB : Nat) (fcrc : Word) : Unit16 :=
  BitVec.ofNat 128 (fseq % 65536 + 2 ^ 16 * (ack % 65536) + 2 ^ 32 * nak.toNat + 2 ^ 33 * fence.toNat + 2 ^ 40 * (clA % 65536) +
    2 ^ 56 * (clB % 65536) + 2 ^ 96 * fcrc.toNat)

/-- A frame goes onto the fibre: its LCU, with the rotating credit limits, and its units. `FENCE` is set by the end that has fenced, not by
the one that is FENCED because its peer is: else neither could leave FENCED (R310; log entry 101). -/
def Mod.putFrame (m : Mod) (p fseq : Nat) (units : List Unit16) : Mod :=
  let x := m.port p
  let ca := 2 * (fseq % 4)
  let la := m.creditLimit p ca
  let lb := m.creditLimit p (ca + 1)
  m.onPort p fun y => { y with
    sent := lcuUnit fseq x.rxSeq x.nak x.ours la lb x.prevCrc :: units
    prevCrc := frameCrc units
    clSent := tset (fun _ => 0) (tset (fun _ => 0) y.clSent ca la) (ca + 1) lb }

/-- The 255 idle units. -/
def idleUnits : List Unit16 := List.replicate 255 0

/-- A frame sent again from the retry buffer; after 16 resends without an advance of `ACK` the port enters DOWN (R294). -/
def Mod.resendFrame (m : Mod) (p f : Nat) : Mod :=
  let x := m.port p
  match x.retry.find? (·.1 == f) with
  | none => m.onPort p fun x => { x with resend := none }
  | some (_, us) =>
    let first := f == (x.acked + 1) % 65536
    if first ∧ 16 ≤ x.resends then m.linkDown p
    else
      let next := (f + 1) % 65536
      let m := m.onPort p fun x => { x with
        resend := if x.retry.any (·.1 == next) then some next else none
        resends := if first then x.resends + 1 else x.resends }
      (m.count (LNK.SN_RESENT_LO.o p) 1).putFrame p f us

/-- Whether the optical transmitters and receivers run: off the resonator (R17), from die H's rail, and not once a thermal trip has switched
them off (R533). -/
def Mod.lit (m : Mod) : Bool := m.power.resonator && m.power.railsOn.contains 0 && !m.power.tripLatch

/-- A frame boundary of the unit stream (R291). -/
def Mod.frameSend (m : Mod) (p : Nat) : Mod :=
  let x := m.port p
  if !m.lit then m
  else if m.pstate p = pFENCED then
    (m.putFrame p x.fseq idleUnits).onPort p fun y => { y with fseq := (x.fseq + 1) % 65536 }
  else if m.pstate p ≠ pUP then m
  else match x.resend with
    | some f => m.resendFrame p f
    | none =>
      if (x.fseq + 65536 - x.acked) % 65536 ≥ 256 then m.resendFrame p ((x.acked + 1) % 65536)
      else
        let us := (x.stream ++ idleUnits).take 255
        let m := m.onPort p fun y => { y with
          stream := y.stream.drop 255, retry := y.retry ++ [(x.fseq, us)], fseq := (x.fseq + 1) % 65536 }
        m.putFrame p x.fseq us

/-- Fields of an LCU. -/
def lcuAck (u : Unit16) : Nat := bits u.toNat 31 16
def lcuNak (u : Unit16) : Bool := u.toNat.testBit 32
def lcuFence (u : Unit16) : Bool := u.toNat.testBit 33
def lcuSeq (u : Unit16) : Nat := bits u.toNat 15 0

/-- `ACK`, `NAK` and credit limits of an LCU (R292, R294). -/
def Mod.lcuCounts (m : Mod) (p : Nat) (u : Unit16) : Mod :=
  let x := m.port p
  let d := (lcuAck u + 65536 - x.acked) % 65536
  let adv := decide (0 < d) && decide (d ≤ x.retry.length)
  let c := 2 * (lcuSeq u % 4)
  let m := m.onPort p fun x => { x with
    acked := if adv then lcuAck u else x.acked
    retry := if adv then x.retry.drop d else x.retry
    resends := if adv then 0 else x.resends
    cl := tset (fun _ => 0) (tset (fun _ => 0) x.cl c (bits u.toNat 55 40)) (c + 1) (bits u.toNat 71 56) }
  let m := m.progressBy (136 + p) (if adv then d else 0)
  let x := m.port p
  let again := lcuNak u || x.rejoin
  let m := m.onPort p fun x => { x with rejoin := false }
  if again ∧ !x.retry.isEmpty then
    if 16 ≤ x.resends then m.linkDown p else m.onPort p fun x => { x with resend := some ((x.acked + 1) % 65536) }
  else m

/-- A link control unit is received (R292, R310, R311). -/
def Mod.takeLcu (m : Mod) (p : Nat) (u : Unit16) : Mod :=
  let st := m.pstate p
  if st = pDISABLED ∨ st = pDOWN ∨ !m.lit then m
  else
    let was := (m.port p).peerFences
    let m := m.onPort p fun x => { x with peerFences := lcuFence u }
    if lcuFence u then
      if st = pFENCED then m else m.peerFence p
    else if st = pFENCED then (if was ∧ !(m.port p).ours then m.enterDown p else m)
    else if st = pUP then m.lcuCounts p u
    else m

/-- Packets that units spell from a packet's start on, and the units of one that is not complete. -/
def parseUnits : Nat → List Unit16 → List Pkt × List Unit16
  | 0, us => ([], us)
  | _, [] => ([], [])
  | fuel + 1, u :: us =>
    let h := u.toNat
    let len := bits h 70 66
    if bits h 77 66 = 0 then parseUnits fuel us
    else if us.length < len then ([], u :: us)
    else
      let pk := ofHdr h ((us.take len).flatMap fun x => leBytes 16 x.toNat)
      let r := parseUnits fuel (us.drop len)
      (pk :: r.1, r.2)

/-- Whether a received packet lies within the credit that this port gave (R299). -/
def Mod.creditOk (m : Mod) (p : Nat) (pk : Pkt) : Bool :=
  let x := m.port p
  let c := pk.cls.toNat
  decide (pktSize pk ≤ (tget (fun _ => 0) x.clSent c + 65536 - tget (fun _ => 0) x.got c) % 65536)

/-- A delivered packet's units are received, and freed. -/
def Mod.takeCredit (m : Mod) (p : Nat) (pk : Pkt) : Mod :=
  let c := pk.cls.toNat
  let m := m.onPort p fun x => { x with
    got := tset (fun _ => 0) x.got c ((tget (fun _ => 0) x.got c + pktSize pk) % 65536)
    freed := tset (fun _ => 0) x.freed c ((tget (fun _ => 0) x.freed c + pktSize pk) % 65536) }
  m.count (LNK.SN_RX_UNITS_LO.o p) (pktSize pk)

/-- A packet that exceeds the credit is discarded: CREDIT_VIOL, and the port retrains (R299). -/
def Mod.creditViol (m : Mod) (p : Nat) : Mod := (m.raiseLNK 9 p (m.peer p)).linkDown p

/-- A frame with the CRC that the LCU after it shows, and its code words corrected and uncorrectable (R293): the packets it delivers.
A frame that fails, or comes after one that failed, is discarded and a NAK is owed. -/
def Mod.frameIn (m : Mod) (p fseq : Nat) (units : List Unit16) (fcrc : Word) (ce ue : Nat) : Mod × List Pkt :=
  let x := m.port p
  let m := (m.count (LNK.SN_FEC_CE_LO.o p) ce).count (LNK.SN_FEC_UE_LO.o p) ue
  let d := (fseq + 65536 - x.rxSeq) % 65536
  if m.pstate p ≠ pUP ∨ d = 0 ∨ 32768 ≤ d then (m, [])
  else if d ≠ 1 ∨ ue ≠ 0 ∨ frameCrc units ≠ fcrc then (m.onPort p fun x => { x with nak := true }, [])
  else
    let us := x.partialUnits ++ units
    let r := parseUnits (us.length + 1) us
    (m.onPort p fun x => { x with rxSeq := fseq, nak := false, partialUnits := r.2 }, r.1)

/-! ## Recovery (R314) -/

/-- Every port is taken DOWN at the start of a warm recovery; ports that this module fenced stay FENCED. -/
def Mod.portsDown (m : Mod) : Mod :=
  (List.range 8).foldl (fun m p =>
    let st := m.pstate p
    let m := m.onPort p fun x => { x.restart with base := false, rank := 0, reup := none, emptied := false, ready := [], wiring := false, known := false }
    let m := m.wr (LNK.HB_LAST.o p) 0
    if st = pDISABLED ∨ (m.port p).ours then m
    else
      let m := if st = pDOWN then m else m.count (LNK.SN_RETRAIN_LO.o p) 1
      m.wr (LNK.PORT_STAT.o p) (BitVec.ofNat 32 pDOWN)) m

/-- Ports that are enabled negotiate afresh once their domains run. -/
def Mod.portsStart (m : Mod) : Mod :=
  (List.range 8).foldl (fun m p =>
    if m.pstate p = pDOWN ∧ m.is (LNK.PORT_CTL.ENABLE p) ∧ !m.down (136 + p) then m.startBase p else m) m

end Sys2Proof.Machine
end

