-- ==== Sys2Proof/Machine/Coll.lean ====
section
/-! DEFINITION. The collectives engine (R328–R334): the program and its checks, the phases of an entry on this module, RS, AG, SMALL
and SHARD packets, and the rerun of R367. -/

namespace Sys2Proof.Machine

def Mod.collOf (m : Mod) (f : Coll → Coll) : Mod := { m with coll := f m.coll }

/-! ## The program (R331) -/

/-- The step that the engine's iteration serves. -/
def Mod.collStep (m : Mod) : Nat := m.coll.base + m.coll.iter

/-- The program in force and its number of entries; the SOLO program on a stand-in (R368). -/
def Mod.collProg (m : Mod) : Nat :=
  if m.soloAt m.collStep then m.pair48 DUP.SOLO_COLL_LO.o DUP.SOLO_COLL_HI.o else m.pair48 TOR.COLL_PROG_LO.o TOR.COLL_PROG_HI.o
def Mod.collN (m : Mod) : Nat := if m.soloAt m.collStep then m.f DUP.SOLO_COLL_HI.COLL_N else m.f TOR.COLL_PROG_HI.COLL_N

structure CollE where
  op : Nat
  axes : Nat
  partner : Bool
  root : Nat
  chunk : Nat
  src : Nat
  dst : Nat
  pdst : Nat
  waitAddr : Nat
  waitVal : Nat
  waitInc : Nat
  rsv : Nat
deriving DecidableEq, Repr

def collEntry (bs : List Byte) : CollE where
  op := dbits bs 0 3 0
  axes := dbits bs 0 6 4
  partner := dbits bs 0 7 7 == 1
  root := dbits bs 0 20 8
  chunk := dfield bs 4 4
  src := dfield bs 8 6
  dst := dfield bs 16 6
  pdst := dfield bs 24 6
  waitAddr := dfield bs 32 6
  waitVal := dfield bs 40 4
  waitInc := dfield bs 44 4
  rsv := dbits bs 0 31 21 + dfield bs 14 2 + dfield bs 22 2 + dfield bs 30 2 + dfield bs 38 2 + dfield bs 48 16

/-- Axes of the group of an entry. -/
def CollE.axisList (e : CollE) : List Nat := [0, 1, 2].filter fun a => e.axes.testBit a

/-- Modules of the group (R328). -/
def Mod.groupSize (m : Mod) (e : CollE) : Nat := (e.axisList.map m.side).foldl (· * ·) 1

/-- Group rank of an id: its rank over the masked axes. -/
def Mod.groupRank (m : Mod) (e : CollE) (id : Nat) : Nat :=
  (e.axisList.foldl (fun (acc : Nat × Nat) a => (acc.1 + acc.2 * m.localAt id a, acc.2 * m.side a)) (0, 1)).1

/-- Bytes of the source: n_g chunks, or the elements of an AMAX; and of the result. -/
def Mod.srcBytes (m : Mod) (e : CollE) : Nat := 4 * e.chunk * (if e.op = 4 then 1 else m.groupSize e)
def Mod.dstBytes (m : Mod) (e : CollE) : Nat := if e.op = 0 then 4 * e.chunk else m.srcBytes e

/-- The check of an entry (R333): 0, or its reason 1 field, 2 range. -/
def Mod.collCheck (m : Mod) (e : CollE) : Nat :=
  if e.rsv ≠ 0 || 4 < e.op || e.axes == 0 || (e.partner && e.op != 0) || (e.root != 0 && e.op != 3) || e.chunk == 0 ||
      (!e.partner && e.pdst != 0) || e.waitAddr % 4 != 0 then 1
  else if m.groupSize e ≤ e.root || !m.inWork e.src (m.srcBytes e) || !m.inWork e.dst (m.dstBytes e) ||
      (e.partner && !m.inWork e.pdst (4 * e.chunk)) || !m.syncAddrOk e.waitAddr then 2
  else 0

/-- The identity that an entry runs for: on a stand-in the lost one for its entries of the SOLO program (R373). -/
def Mod.collIdent (m : Mod) (j : Nat) : Nat :=
  match m.dup.swapFor with
  | some l => l
  | none =>
    match m.dup.lostId with
    | some l => if m.soloAt m.collStep && Config.runsLost 128 j then l else m.id
    | none => m.id

/-- The phases of an entry (R329, R330): kind 0 reduce, 1 gather, 2 broadcast, 3 maximum, and axis. Axes of one module need none. -/
def Mod.collPhases (m : Mod) (e : CollE) : List (Nat × Nat) :=
  let ax := e.axisList.filter fun a => 1 < m.side a
  match e.op with
  | 0 => ax.map (0, ·)
  | 1 => ax.reverse.map (1, ·)
  | 2 => ax.map (0, ·) ++ ax.reverse.map (1, ·)
  | 3 => ax.map (2, ·)
  | _ => ax.map (3, ·)

/-- Ring order of a line of `n` positions (R329). -/
def ringOrder (wrapped : Bool) (n : Nat) : List Nat :=
  if wrapped then List.range n
  else (List.range n).filter (· % 2 == 0) ++ ((List.range n).filter (· % 2 == 1)).reverse

/-- The ring index of a position. -/
def ringIndex (order : List Nat) (p : Nat) : Nat := order.findIdx (· == p)

/-- The id at position `p` of the line of an id along axis `a`. -/
def Mod.onLine (m : Mod) (id a p : Nat) : Nat :=
  let c (b : Nat) : Nat := if b = a then p else m.localAt id b
  m.idLocal (c 0) (c 1) (c 2)

/-! ## Words -/

/-- Words of a byte string, and bytes of words. -/
def wordsOf (bs : List Byte) : List Word := (pieces 4 (bs.length / 4) bs).map fun x => BitVec.ofNat 32 (leNat x)
def bytesOfWords (ws : List Word) : List Byte := ws.flatMap fun w => leBytes 4 w.toNat

/-- The larger of two FP32 words; a NaN gives the canonical NaN (R187). -/
def maxWord (a b : Word) : Word :=
  if (num32 a).isNan || (num32 b).isNan then nan32 else if (num32 a).lt (num32 b) then b else a

/-- The part of position `p` of a line of `n` in held data: the chunks whose coordinate on the axis is `p` (R329). -/
def partOf (chunk n p : Nat) (data : List Word) : List Word :=
  ((pieces chunk (data.length / max chunk 1) data).zipIdx.filter fun x => x.2 % n == p).flatMap (·.1)

/-- Parts by position joined into the data held after a gather phase. -/
def joinParts (chunk n : Nat) (parts : List (List Word)) : List Word :=
  let k := (parts.headD []).length / max chunk 1
  (List.range (n * k)).flatMap fun i => ((parts.getD (i % n) []).drop (i / n * chunk)).take chunk

/-- 256-byte units of a number of words. -/
def unitsOf (n : Nat) : Nat := (n + 63) / 64

/-- The payloads of words, 64 to a packet. -/
def wordUnits (ws : List Word) : List (List Byte) :=
  (List.range (unitsOf ws.length)).map fun i =>
    let x := bytesOfWords ((ws.drop (64 * i)).take 64)
    x ++ List.replicate (256 - x.length) 0

/-! ## Running an entry -/

/-- Whether an entry's group contains an id: it shares the module's coordinates on every axis outside the mask. -/
def Mod.groupHas (m : Mod) (e : CollE) (id : Nat) : Bool :=
  [0, 1, 2].all fun a => e.axes.testBit a || m.localAt id a == m.localAt m.id a

/-- Whether an entry's group contains a lost id or its stand-in, so that a hole-set change has it run again (R367). -/
def Mod.groupHit (m : Mod) (e : CollE) : Bool := m.aliases.any fun x => m.groupHas e x.2.1 || m.groupHas e x.2.2

def Mod.collCur (m : Mod) : Nat := m.f TOR.COLL_STAT.ENTRY

/-- A collectives packet of the current entry. -/
def Mod.collSend (m : Mod) (dest typ axis off : Nat) (payload : List Byte) : Mod :=
  let j := m.collCur
  let (m, p) := m.numbered (m.collIdent j) dest m.coll.tag clsCOLL typ (j + 2 ^ 16 * axis + 2 ^ 18 * off) payload
  (m.route p none).progress 145

/-- The words sent as the units of a part. -/
def Mod.collSendAll (m : Mod) (dest typ axis : Nat) (ws : List Word) : Mod :=
  ((wordUnits ws).zipIdx).foldl (fun m u => m.collSend dest typ axis u.2 u.1) m

/-- The entry as it stands in memory. -/
def Mod.collPeek (m : Mod) (j : Nat) : CollE := collEntry (m.peek (m.collProg + 64 * j) 64)

/-- The program stops (R333): COLL_FAIL, a fault of the step. -/
def Mod.collFail (m : Mod) (reason module port : Nat) : Mod :=
  let m := if m.coll.started then m.hubEnd 145 m.collCur (m.collPeek m.collCur).op m.coll.tag reason else m
  let m := m.collOf fun c => { c with started := false, phase := 0, got := 0, data := [], gathered := [] }
  ((m.set TOR.COLL_STAT.STOPPED 1).raiseTOR 6 module port reason).fault (some m.coll.tag) 5

/-- Whether the engine runs. -/
def Mod.collRuns (m : Mod) : Bool :=
  m.is TOR.CFG.ENABLE && m.is TOR.COLL_CTL.ENABLE && !m.is TOR.COLL_STAT.STOPPED && !m.down 145 && !m.quiesced 145 && m.collN != 0

/-- An entry of the program; none when a unit is uncorrectable. -/
def Mod.collRead (m : Mod) (j : Nat) : Mod × Option CollE :=
  let (m, r) := m.load (By.hub (some m.coll.tag)) (m.collProg + 64 * j) 64
  (m, r.map collEntry)

/-- Geometry of a phase on this module: side, own position, ring, own ring index, and the id of the next ring entry. -/
structure CollG where
  n : Nat
  pos : Nat
  ring : List Nat
  idx : Nat
  next : Nat
deriving DecidableEq, Repr

def Mod.collGeo (m : Mod) (a : Nat) : CollG :=
  let id := m.collIdent m.collCur
  let n := m.side a
  let ring := ringOrder (m.wrapped a) n
  let i := ringIndex ring (m.localAt id a)
  ⟨n, m.localAt id a, ring, i, m.onLine id a (ring.getD ((i + 1) % n) 0)⟩

/-- Coordinate of a broadcast's root on an axis. -/
def Mod.rootAt (m : Mod) (e : CollE) (a : Nat) : Nat :=
  (e.axisList.foldl (fun (acc : Nat × Nat) b =>
    (if b = a then acc.2 % m.side b else acc.1, acc.2 / m.side b)) (0, e.root)).1

/-- Whether this module's line carries a broadcast in the phase of axis `a`: it lies at the root's place on every later axis. -/
def Mod.bcLine (m : Mod) (e : CollE) (a : Nat) : Bool :=
  e.axisList.all fun b => b ≤ a || m.localAt (m.collIdent m.collCur) b == m.rootAt e b

/-- The result is written, and under `PARTNER` sent to the partner (R331). -/
def Mod.collResult (m : Mod) (e : CollE) : Mod :=
  let data := m.coll.data
  let ws := if e.op = 0 then data.take e.chunk else data
  match m.store (By.hub (some m.coll.tag)) e.dst (bytesOfWords ws) with
  | (m, false) => m.collFail 4 0 0
  | (m, true) =>
    let m := m.progress 145
    if e.partner ∧ m.dup.paired then
      let us := wordUnits ws
      let m := m.collOf fun c => { c with partnerAck := us.length }
      us.zipIdx.foldl (fun m u => m.sendDup m.coll.tag 1 (m.collCur + 2 ^ 18 * u.2) u.1) m
    else m.collOf fun c => { c with partnerAck := 0 }

/-- A phase begins: what this module sends first. A broadcast phase ends at once where the module holds the data or its line is idle. -/
def Mod.collBegin (m : Mod) (e : CollE) : Nat → Mod
  | 0 => m
  | fuel + 1 =>
    match (m.collPhases e)[m.coll.phase]? with
    | none => m.collResult e
    | some (kind, a) =>
      let g := m.collGeo a
      let m := m.collOf fun c => { c with got := 0, gathered := [], units := [] }
      let skip (m : Mod) : Mod := Mod.collBegin (m.collOf fun c => { c with phase := c.phase + 1 }) e fuel
      if kind = 0 then
        m.collSendAll g.next 0 a (partOf e.chunk g.n (g.ring.getD ((g.idx + g.n - 1) % g.n) 0) m.coll.data)
      else if kind = 1 then m.collSendAll g.next 1 a m.coll.data
      else if kind = 3 then m.collSendAll g.next 0 a m.coll.data
      else if !m.bcLine e a then skip m
      else if g.pos = m.rootAt e a then skip (m.collSendAll g.next 1 a m.coll.data)
      else m

/-- Words that each part of a phase carries on this module. -/
def Mod.partWords (m : Mod) (e : CollE) (kind n : Nat) : Nat :=
  if kind = 0 then m.coll.data.length / max n 1 else if kind = 2 then m.groupSize e * e.chunk else m.coll.data.length

/-- Parts that a phase receives. -/
def partsIn (kind n : Nat) : Nat := if kind = 2 then 1 else n - 1

/-- The words gathered by a position. -/
def gatheredAt (l : List (Nat × List Word)) (p : Nat) : List Word := (l.filter (·.1 == p)).flatMap (·.2)

/-- A phase is complete: the data held afterwards, and the next phase begins. -/
def Mod.collNext (m : Mod) (e : CollE) (kind a : Nat) : Mod :=
  let g := m.collGeo a
  let got := m.coll.gathered
  let data :=
    if kind = 0 then gatheredAt got g.pos
    else if kind = 1 then joinParts e.chunk g.n ((List.range g.n).map fun p => if p = g.pos then m.coll.data else gatheredAt got p)
    else if kind = 2 then gatheredAt got (m.rootAt e a)
    else ((List.range g.n).filter (· != g.pos)).foldl (fun d p => List.zipWith maxWord d (gatheredAt got p)) m.coll.data
  let m := m.collOf fun c => { c with phase := c.phase + 1, data := data }
  m.collBegin e 8

/-- Whether a packet is the unit that the current phase takes next: the units of a part come in the order of their offsets (R327). -/
def Mod.unitDue (m : Mod) (e : CollE) (kind a : Nat) (p : Pkt) : Bool :=
  infoOf p / 2 ^ 18 == m.coll.got % max (unitsOf (m.partWords e kind (m.collGeo a).n)) 1

/-- One unit of the current phase (R329, R330): folded or kept, and passed on around the ring. -/
def Mod.applyUnit (m : Mod) (e : CollE) (kind a port : Nat) (p : Pkt) : Mod :=
  let g := m.collGeo a
  let words := m.partWords e kind g.n
  let u := max (unitsOf words) 1
  let k := m.coll.got / u
  let off := infoOf p / 2 ^ 18
  let ws := (wordsOf p.payload).take (words - 64 * off)
  let owner := if kind = 0 then (g.idx + 2 * g.n - 2 - k) % g.n else (g.idx + 2 * g.n - 1 - k) % g.n
  let pos := if kind = 2 then m.rootAt e a else g.ring.getD owner 0
  let mine := if kind = 0 then ((partOf e.chunk g.n pos m.coll.data).drop (64 * off)).take 64 else []
  let out := if kind = 0 then List.zipWith (fun t v => fold32 t v) ws mine else ws
  let keep := kind != 0 || owner == g.idx
  let pass := if kind = 0 then owner != g.idx
    else if kind = 2 then g.ring.getD ((g.idx + 1) % g.n) 0 != pos else decide (k + 2 < g.n)
  let m := m.collOf fun c => { c with
    got := c.got + 1, gathered := if keep then c.gathered ++ [(if kind = 0 then g.pos else pos, out)] else c.gathered
    units := (port, p) :: c.units }
  let pay := bytesOfWords out
  let m := if pass then
    m.collSend g.next (if kind = 0 ∨ kind = 3 then 0 else 1) a off (pay ++ List.replicate (256 - pay.length) 0) else m
  let m := m.progress 145
  if m.coll.got = partsIn kind g.n * u then m.collNext e kind a else m

/-- Whether packets of a source may still be those of an entry's run before its rerun here (R367). -/
def Mod.mayBeOld (m : Mod) (e : CollE) (p : Pkt) : Bool :=
  m.coll.rerun && m.groupHit e && !m.coll.renewed.contains (srcOf p)

/-- A unit of the current phase. In a rerun each contribution is applied once (R367): what the source sent before its own rerun is
dropped. How the engine tells the two apart the spec does not say; a free value does (log entry 62). -/
def Mod.collUnit (m : Mod) (e : CollE) (kind a port : Nat) (p : Pkt) : Mod :=
  if m.mayBeOld e p then
    let (m, n) := m.fresh
    if Config.freeBit n then m
    else (m.collOf fun c => { c with renewed := srcOf p :: c.renewed }).applyUnit e kind a port p
  else m.applyUnit e kind a port p

/-- The type that a phase's packets have. -/
def kindType (kind : Nat) : Nat := if kind = 0 ∨ kind = 3 then 0 else 1

/-- What becomes of an RS or AG packet: 0 applied, 1 waits, 2 dropped, 3 refused (R333). While the engine does not run (R330) a packet
waits, and so does one of a later step, or of a later phase of the current entry. One of a step, an entry or a phase already completed is
refused, but for a contribution of an entry of the oldest unchecked step that a hole-set change has run again on its sender: it has been
applied already (R367). A unit out of its order (R327) shows such a rerun on its sender: it waits for the one here, and in that is
dropped if its sender had sent it before (log entry 62). -/
def Mod.collJudge (m : Mod) (e : CollE) (p : Pkt) : Nat :=
  let j := infoOf p % 2 ^ 16
  let a := bits (infoOf p) 17 16
  let k := m.tagStep (tagOf p)
  let past := if k = m.steps.oldest ∧ m.groupHit (if j = m.collCur then e else m.collPeek j) then 2 else 3
  if !m.collRuns || m.collStep < k then 1
  else if k < m.collStep || decide (j < m.collCur) then past
  else if m.collCur < j || destOf p != m.collIdent j then 3
  else
    let ph := m.collPhases e
    match (List.range ph.length).find? fun i => (match ph[i]? with
        | some x => kindType x.1 == p.typ.toNat && x.2 == a | none => false) with
    | none => 3
    | some i =>
      if !m.coll.started ∨ m.coll.phase < i then 1
      else if i < m.coll.phase then past
      else if m.unitDue e (ph.getD i (0, 0)).1 a p then 0
      else if m.mayBeOld e p then 2 else 1

/-- Packets that waited and whose phase has come. -/
def Mod.collDrain : Nat → Mod → Mod
  | 0, m => m
  | fuel + 1, m =>
    let e := m.collPeek m.collCur
    match m.coll.early.find? fun x => m.coll.started && m.collJudge e x.2 == 0 with
    | none => m
    | some x =>
      let m := m.collOf fun c => { c with early := c.early.erase x }
      match (m.collPhases e)[m.coll.phase]? with
      | some (kind, a) => Mod.collDrain fuel (m.collUnit e kind a x.1 x.2)
      | none => m

/-- An RS or AG packet is received. -/
def Mod.takeColl (m : Mod) (port : Nat) (p : Pkt) : Mod :=
  let e := m.collPeek m.collCur
  match m.collJudge e p with
  | 0 =>
    match (m.collPhases e)[m.coll.phase]? with
    | some (kind, a) =>
      let m := m.collUnit e kind a port p
      Mod.collDrain m.coll.early.length m
    | none => m
  | 1 => m.collOf fun c => { c with early := c.early ++ [(port, p)] }
  | 2 => m
  | _ => m.collFail 3 (srcOf p) port

/-- `COLL_DONE` is recorded at the opening of a step (R354). -/
def Mod.collMark (m : Mod) : Mod :=
  let k := m.collStep
  if m.coll.marks.any (·.1 == k) then m
  else m.collOf fun c => { c with marks := ((k, (m.rd TOR.COLL_DONE.o).toNat) :: c.marks).take 2 }

/-- Entry `e` starts on its source words (R328, R332). -/
def Mod.collStart (m : Mod) (e : CollE) (bs : List Byte) : Mod :=
  let ws := wordsOf bs
  let id := m.collIdent m.collCur
  let data := if e.op = 1 then (ws.drop (m.groupRank e id * e.chunk)).take e.chunk else ws
  let m := m.collOf fun c => { c with started := true, phase := 0, got := 0, gathered := [], data := data, partnerAck := 0 }
  let m := (m.hubStart 145 m.collCur e.op m.coll.tag).collBegin e 8
  Mod.collDrain m.coll.early.length m

/-- The engine takes the units that waited for it, or reads its next entry, which lies in the workspace outside the Stalk (R38, R196, R331), and that entry's count word, and starts the entry once the
count is reached (R332). -/
def Mod.collPoll (m : Mod) : Mod :=
  if !m.collRuns then m
  else if m.coll.started then Mod.collDrain m.coll.early.length m
  else if m.steps.rerun.isSome then m
  else
    let m := m.collMark
    let by_ := By.hub (some m.coll.tag)
    if !m.inWork (m.collProg + 64 * m.collCur) 64 then m.collFail 2 0 0
    else match m.collRead m.collCur with
    | (m, none) => m.collFail 4 0 0
    | (m, some e) =>
      match m.collCheck e with
      | 0 =>
        match m.loadNat by_ e.waitAddr 4 with
        | (m, none) => m.collFail 4 0 0
        | (m, some w) =>
          if 2 ^ 31 ≤ (w + 2 ^ 32 - (e.waitVal + m.coll.iter * e.waitInc) % 2 ^ 32) % 2 ^ 32 then m
          else
            match m.load by_ e.src (m.srcBytes e) with
            | (m, none) => m.collFail 4 0 0
            | (m, some bs) =>
              m.collStart e bs
      | r => m.collFail r 0 0

/-- The shards of a step are complete once its iteration has ended and, in a pair, the partner's shards of its `PARTNER` entries have
come (R207). -/
def Mod.shardReport (m : Mod) (k : Nat) : Mod :=
  let s := m.upd.shards
  let need := if m.dup.paired then (List.range m.collN).filter fun j => (m.collPeek j).partner else []
  if (s.contains (k, 0, 0) ∨ m.outside ∨ m.dup.rmIn = 3) ∧ !s.contains (k, 0, 2) ∧ need.all (fun j => s.contains (k, j, 1)) then
    { m with upd := { m.upd with shards := s ++ [(k, 0, 2)] } }
  else m

/-- The next entry that has to run: an entry already counted runs again only where R367 asks for it. -/
def nextEntry (n counted : Nat) (again : Nat → Bool) (j : Nat) : Nat :=
  match ((List.range (n - j)).map (j + ·)).find? fun i => counted ≤ i || again i with
  | some i => i
  | none => n

/-- The entry that runs is complete: `COLL_DONE` counts it and is published, where the engine may write (R31, R38, R196), and the next one is due
(R332). -/
def Mod.entryEnds (m : Mod) : Mod :=
  let j := m.collCur
  let fresh := decide (m.coll.counted ≤ j)
  let m := if fresh then m.wr TOR.COLL_DONE.o (m.rd TOR.COLL_DONE.o + 1) else m
  let cnt := m.pair48 TOR.COLL_CNT_LO.o TOR.COLL_CNT_HI.o
  let m := if fresh ∧ m.is TOR.COLL_CNT_HI.EN then
    m.unitStore (By.hub (some m.coll.tag)) cnt (leBytes 4 (m.rd TOR.COLL_DONE.o).toNat) else m
  let m := (m.hubEnd 145 j (m.collPeek j).op m.coll.tag 0).progress 145
  let counted := max m.coll.counted (j + 1)
  let again (i : Nat) : Bool := decide (m.coll.spared ≤ i) && m.groupHit (m.collPeek i)
  let next := nextEntry m.collN counted again (j + 1)
  let m := m.collOf fun c => { c with
    started := false, phase := 0, data := [], got := 0, gathered := [], units := [], renewed := [], counted := counted }
  if next < m.collN then m.set TOR.COLL_STAT.ENTRY next
  else
    let k := m.collStep
    let m := if m.upd.shards.contains (k, 0, 0) then m else { m with upd := { m.upd with shards := m.upd.shards ++ [(k, 0, 0)] } }
    let m := m.shardReport k
    let m := (m.collOf fun c => { c with iter := c.iter + 1, counted := 0, rerun := false, spared := 0, tag := m.tagFor (k + 1) }).set
      TOR.COLL_STAT.ENTRY 0
    m.collMark

/-- An entry's results are visible here and, under `PARTNER`, on the partner: `COLL_DONE` advances and is published, and the next entry
or iteration is due (R332). -/
def Mod.entryDone (m : Mod) : Mod :=
  let j := m.collCur
  let e := m.collPeek j
  if !m.collRuns ∨ !m.coll.started ∨ m.coll.phase < (m.collPhases e).length ∨ m.coll.partnerAck ≠ 0 then m
  else
    m.entryEnds

/-! ## Shard copies -/

/-- Units of a partner's shard received so far. -/
def Mod.shardUnits (m : Mod) (tag j : Nat) : Nat :=
  match m.coll.shardGot.find? fun s => s.1 == tag && s.2.1 == j with | some s => s.2.2 | none => 0

/-- A SHARD packet (R348, R386): the partner's gradient shard lands at the entry's partner address, and is acknowledged. -/
def Mod.takeShard (m : Mod) (p : Pkt) : Mod :=
  let j := infoOf p % 2 ^ 16
  let off := infoOf p / 2 ^ 18
  let e := m.collPeek j
  let g := tagOf p
  let n := 4 * e.chunk
  let bs := p.payload.take (n - 256 * off)
  if !e.partner ∨ n ≤ 256 * off ∨ !m.inWork (e.pdst + 256 * off) bs.length then m
  else
    let m := (m.store (By.hub (some g)) (e.pdst + 256 * off) bs).1
    let got := m.shardUnits g j + 1
    let m := m.collOf fun c => { c with shardGot := (c.shardGot.filter fun s => !(s.1 == g && s.2.1 == j)) ++ [(g, j, got)] }
    let m := m.sendDup g 4 (1 + 16 * p.seq.toNat) []
    let k := m.tagStep g
    if got = (n + 255) / 256 ∧ !m.upd.shards.contains (k, j, 1) then
      ({ m with upd := { m.upd with shards := m.upd.shards ++ [(k, j, 1)] } }).shardReport k
    else m

/-- A DUP_ACK of a SHARD. -/
def Mod.ackShard (m : Mod) : Mod := m.collOf fun c => { c with partnerAck := c.partnerAck - 1 }

/-! ## Enabling, resuming, reruns -/

/-- `COLL_CTL.ENABLE` set: the program starts at entry 0 for the current step. -/
def Mod.collEnable (m : Mod) : Mod :=
  let k := m.curStep
  let m := m.noteReset 0 (m.rd TOR.COLL_DONE.o).toNat
  let m := (m.wr TOR.COLL_STAT.o 0).wr TOR.COLL_DONE.o 0
  let m := m.openCurrent
  (m.collOf fun c => { c with
    base := k, iter := 0, started := false, phase := 0, data := [], got := 0, gathered := [], units := [], marks := [], partnerAck := 0,
    tag := m.tagFor k, counted := 0, rerun := false, spared := 0, renewed := [] }).collMark

/-- `COLL_CTL.ENABLE` cleared: the engine stops. -/
def Mod.collDisable (m : Mod) : Mod :=
  m.collOf fun c => { c with started := false, phase := 0, data := [], got := 0, gathered := [] }

/-- `RESUME`: the program goes on at the failed entry (R333). -/
def Mod.collResumeGo (m : Mod) : Mod := m.set TOR.COLL_STAT.STOPPED 0

/-- Reruns after a hole-set change (R367): entries of the oldest unchecked step whose group contains the lost id or the stand-in run
again from their first phase, unless they have completed on the stand-in. The stand-in knows which these are; on another module, which no
packet tells of them, a free value says how many they are. Of the units that the current phase has applied, a free value says how many its
source sent in its own rerun, which came before the one here: these wait for it (log entry 62). -/
def Mod.collRerun (m : Mod) (lost standin : Nat) : Mod :=
  let k := m.steps.oldest
  if !m.is TOR.COLL_CTL.ENABLE ∨ k < m.coll.base then m
  else
    let here := m.collStep == k
    let past := decide (k < m.collStep)
    let (m, n) := m.fresh
    let spared := if standin ≠ m.id then Config.freeNat n else if past then m.collN else m.collCur
    let hit (i : Nat) : Bool := (m.groupHas (m.collPeek i) lost || m.groupHas (m.collPeek i) standin) && decide (spared ≤ i)
    let upto := if past then m.collN else m.collCur + 1
    match (if here ∨ past then (List.range upto).find? hit else none) with
    | none => m.collOf fun c => { c with rerun := here, spared := spared }
    | some j =>
      let counted := if past then m.collN else max m.coll.counted m.collCur
      let (m, x) := m.fresh
      let again := if past ∨ j ≠ m.collCur then [] else m.coll.units.take (Config.freeNat x % (m.coll.units.length + 1))
      (m.collOf fun c => { c with
        iter := k - c.base, started := false, phase := 0, data := [], got := 0, gathered := [], units := [], counted := counted,
        early := again.reverse ++ c.early, rerun := true, spared := spared, renewed := (again.take 1).map fun y => srcOf y.2,
        tag := m.tagFor k }).set TOR.COLL_STAT.ENTRY j

/-- Warm recovery of the engine: `COLL_STAT.ENTRY` keeps its value (R341). -/
def Mod.warmColl (m : Mod) : Mod :=
  let m := m.sets [(TOR.COLL_CTL.ENABLE, 0), (TOR.COLL_STAT.STOPPED, 0)]
  ({ m with coll := { Coll.init with records := m.coll.records } }).wr TOR.COLL_DONE.o 0

end Sys2Proof.Machine
end

