-- ==== Sys2Proof/Machine/Vine.lean ====
section
/-! DEFINITION. The Vine (R337–R339, R343): the sync tree, the exchange with the parent, the subtree minima and announcements, and the
step boundary (R24, R28, R481). -/

namespace Sys2Proof.Machine

def Mod.vineOf (m : Mod) (f : Vine → Vine) : Mod := { m with vine := f m.vine }

/-! ## The tree (R337) -/

/-- The neighbour of an id in the slice in the direction of port `p`, where a link of the slice joins them (R318, R320). -/
def Mod.linkedTo (m : Mod) (id p : Nat) : Option Nat :=
  let a := p / 2
  let n := m.side a
  let l := m.localAt id a
  let plus := p % 2 == 0
  if n ≤ 1 ∨ !(m.wrapped a || (if plus then decide (l + 1 < n) else decide (0 < l))) then none
  else
    let l' := if plus then (l + 1) % n else (l + n - 1) % n
    let c (b : Nat) : Nat := if b = a then l' else m.localAt id b
    some (m.idLocal (c 0) (c 1) (c 2))

/-- The first neighbour of an id, in port order, that satisfies `q`: its port and id. -/
def Mod.firstNeighbour (m : Mod) (id : Nat) (q : Nat → Bool) : Option (Nat × Nat) :=
  (List.range 6).findSome? fun p => match m.linkedTo id p with
    | some n => if q n then some (p, n) else none
    | none => none

/-- The root of the tree. -/
def Mod.vineRoot (m : Mod) : Nat :=
  let r := m.idLocal (m.side 0 / 2) (m.side 1 / 2) (m.side 2 / 2)
  if m.holes.contains r then
    match m.firstNeighbour r fun n => !m.holes.contains n with
    | some x => x.2
    | none => r
  else r

/-- Distance of an id from the root, by the offsets of R325. -/
def Mod.rootDist (m : Mod) (id : Nat) : Nat :=
  let r := m.vineRoot
  ([0, 1, 2].map fun a => (axisOffset (m.wrapped a) (m.side a) (m.localAt id a) (m.localAt r a)).natAbs).sum

/-- The parent of an id: the port it lies behind, and its id. -/
def Mod.parentOf (m : Mod) (id : Nat) : Option (Nat × Nat) :=
  m.firstNeighbour id fun n => !m.holes.contains n && decide (m.rootDist n < m.rootDist id)

/-- Ports behind which this module's children lie. -/
def Mod.children (m : Mod) : List Nat :=
  (List.range 6).filter fun p => match m.linkedTo m.id p with
    | some n => !m.holes.contains n && (m.parentOf n).any fun x => x.2 == m.id
    | none => false

/-- Whether the Vine runs here as a member of the slice. -/
def Mod.vineOn (m : Mod) : Bool := m.is VIN.CFG.ENABLE && !m.down 149 && m.inSlice m.id
def Mod.isRoot (m : Mod) : Bool := m.vineOn && m.vineRoot == m.id

/-- A Vine packet to the module behind a torus port. It carries the tag of the oldest unchecked step, which no module has released. -/
def Mod.vineSend (m : Mod) (port dest typ info : Nat) (payload : List Byte) : Mod :=
  m.sendOut port dest (m.tagFor m.steps.oldest) clsCOLL typ info payload

/-! ## Synchronisation (R337, R338) -/

/-- The parent port as `VIN.STAT` shows it; a change raises PARENT_CHANGE. -/
def Mod.noteParent (m : Mod) : Mod :=
  let p := match m.parentOf m.id with | some x => x.1 | none => 8
  if m.f VIN.STAT.PARENT = p then m else (m.set VIN.STAT.PARENT p).raiseVIN 3

/-- The module locks; LOCK is raised when it was not locked. -/
def Mod.vineLock (m : Mod) : Mod :=
  let was := m.is VIN.STAT.LOCKED
  let m := m.sets [(VIN.STAT.LOCKED, 1), (VIN.STAT.HOLDOVER, 0)]
  if was then m else m.raiseVIN 1

/-- Every 100 µs: REQ to the parent at t1, by the module's own time; the root keeps its own time. -/
def Mod.syncTimer (m : Mod) (t1 : DWord) : Mod :=
  if !m.vineOn then m
  else
    let m := m.noteParent
    if m.isRoot then m.vineLock
    else match m.parentOf m.id with
      | none => m
      | some (p, id) =>
        if m.pstate p ≠ pUP then m
        else (m.vineOf fun v => { v with t1 := some t1.toNat }).vineSend p id 3 0 (List.replicate 16 0)

/-- A REQ received at t2 is answered at t3. -/
def Mod.syncReq (m : Mod) (port : Nat) (p : Pkt) (t2 t3 : DWord) : Mod :=
  if !m.vineOn then m
  else (m.vineSend port (srcOf p) 3 1 (leBytes 8 t2.toNat ++ leBytes 8 t3.toNat)).progress 149

/-- The correction of an exchange in half nanoseconds. -/
def vineDelta (t1 t2 t3 t4 : Nat) : Int := ((t2 : Int) - t1) - ((t4 : Int) - t3)

/-- A RESP received at t4: time corrected by half the difference, rounded toward zero as 00_scope.md has of integer divisions, rate by the trend, and the module locks. -/
def Mod.syncResp (m : Mod) (p : Pkt) (t4 : DWord) : Mod :=
  match m.vine.t1 with
  | none => m
  | some t1 =>
    if !m.vineOn then m
    else
      let d := vineDelta t1 (payNat p 0 8) (payNat p 8 8) t4.toNat
      let m := m.vineOf fun v => { v with
        t1 := none, time := v.time + BitVec.ofInt 64 (d.tdiv 2), rate := Config.rateTrend v.rate d }
      let m := (m.lset VIN.SN_CORR.o (BitVec.ofInt 32 (d * 500)).toNat).count VIN.SN_SYNC_LO.o 1
      (m.vineLock).progress 149

/-- No valid sync for 2 ms (R338). -/
def Mod.holdover (m : Mod) : Mod :=
  if !m.is VIN.CFG.ENABLE ∨ m.down 149 then m
  else (m.sets [(VIN.STAT.HOLDOVER, 1), (VIN.STAT.LOCKED, 0)]).raiseVIN 2

/-! ## Minima (R339) -/

/-- A step that is stored as "one more than the checked step", as a packet carries it, and back. -/
def checkedOut (c : Nat) : Nat := (c + 2 ^ 48 - 1) % 2 ^ 48
def checkedIn (v : Nat) : Nat := (v + 1) % 2 ^ 48

/-- The minima over the subtree, once every child has reported: local step, and one more than the checked step. -/
def Mod.subtreeMin (m : Mod) : Option (Nat × Nat) :=
  let ch := m.children
  if ch.all fun p => m.vine.below.any (·.1 == p) then
    some ((m.vine.below.filter fun b => ch.contains b.1).foldl (fun a b => (min a.1 b.2.1, min a.2 b.2.2)) (m.localStep, m.steps.oldest))
  else none

/-- VINE_UP to the parent. -/
def Mod.sendUp (m : Mod) : Mod :=
  match m.parentOf m.id, m.subtreeMin with
  | some (p, id), some x =>
    if m.pstate p ≠ pUP then m
    else (m.vineOf fun v => { v with sentUp := x }).vineSend p id 4 0 (leBytes 6 x.1 ++ leBytes 6 (checkedOut x.2) ++ List.replicate 4 0)
  | _, _ => m

/-- VINE_ANN to every child but one. -/
def Mod.sendAnn (m : Mod) (step checked time : Nat) (but : Option Nat) : Mod :=
  (m.children.filter fun p => but != some p && m.pstate p == pUP).foldl (fun m p => match m.linkedTo m.id p with
    | some id => m.vineSend p id 5 0
        (leBytes 6 step ++ leBytes 6 (checkedOut checked) ++ List.replicate 4 0 ++ leBytes 8 time ++ List.replicate 8 0)
    | none => m) m

/-- The root announces minima that have risen, to take effect 50 µs later. -/
def Mod.announce (m : Mod) (x : Nat × Nat) : Mod :=
  let t := (m.vine.time.toNat + 50000) % 2 ^ 64
  (m.vineOf fun v => { v with sentUp := x, anns := v.anns ++ [(x.1, x.2, t)] }).sendAnn x.1 x.2 t none

/-- Minima that have changed go to the parent; at the root, minima that have risen are announced. -/
def Mod.vineFlow (m : Mod) : Mod :=
  if !m.vineOn then m
  else match m.subtreeMin with
    | none => m
    | some x =>
      if m.isRoot then
        (if m.vine.sentUp.1 < x.1 ∨ m.vine.sentUp.2 < x.2 then m.announce x
         else if x = m.vine.sentUp then m else m.vineOf fun v => { v with sentUp := x })
      else if x = m.vine.sentUp then m
      else m.sendUp

/-- At least every 100 µs (R339). -/
def Mod.upTimer (m : Mod) : Mod := if m.vineOn ∧ !m.isRoot then m.sendUp else m

/-- A child's VINE_UP. -/
def Mod.takeUp (m : Mod) (port : Nat) (p : Pkt) : Mod :=
  if !m.vineOn ∨ !m.children.contains port then m
  else (m.vineOf fun v => { v with
    below := (v.below.filter (·.1 != port)) ++ [(port, payNat p 0 6, checkedIn (payNat p 6 6))] }).progress 149

/-- A VINE_ANN waits for its time and goes on down the tree. -/
def Mod.takeAnn (m : Mod) (port : Nat) (p : Pkt) : Mod :=
  if !m.vineOn then m
  else
    let s := payNat p 0 6
    let c := checkedIn (payNat p 6 6)
    let t := payNat p 16 8
    ((m.vineOf fun v => { v with anns := v.anns ++ [(s, c, t)] }).sendAnn s c t (some port)).progress 149

/-! ## The step boundary -/

/-- Background work still unfinished is dropped (R28): tile checks, and parity slices that an owner keeps open. -/
def Mod.dropBackground (m : Mod) : Mod :=
  let m := { m with health := { m.health with samples := [] } }
  let gone := (m.ckpt.slices.filter fun s => !s.rebuild).length
  let m := m.count BLB.SN_SLICE_RETRY_LO.o gone
  { m with ckpt := { m.ckpt with slices := m.ckpt.slices.filter (·.rebuild) } }

/-- What a released step no longer needs: its Pods (R24), attempt, tags, sequence counts (R301), contributions (R367), and the requests
that a rewind ended in it. -/
def Mod.release (m : Mod) (c : Nat) : Mod :=
  let m := m.stepsOf fun s => { s with
    released := max s.released c, attempts := terase (fun k => decide (k < min c s.oldest)) s.attempts }
  let m := m.stepsOf fun s => { s with tags := s.tags.filter fun g => decide (s.released ≤ m.tagStep g) }
  let m := m.dropSmalls fun kind g =>
    (ofStep kind && decide (m.tagStep g < c)) || (kind == kStart && decide (m.tagStep g + 1 < c))
  let m := { m with
    reqs := m.reqs.filter fun r => !(r.dead && decide (m.tagStep r.tag < c))
    router := { m.router with seqs := m.router.seqs.filter fun e => decide (c ≤ m.tagStep (e.1 / 8 % 65536)) } }
  m.releasePods

/-- The announced values are taken: the slice-wide checked step, and the step counter, whose advance is the step boundary (R28, R339). -/
def Mod.boundary (m : Mod) (step checked : Nat) : Mod :=
  let up := decide (m.vine.step < step)
  let m := m.vineOf fun v => { v with step := step, checked := checked, synced := true }
  let m := (m.lset VIN.SN_STEP_LO.o step).lset VIN.SN_STEP_HI.o (step / 2 ^ 32)
  let m := (m.lset VIN.SN_CHECKED_LO.o (checkedOut checked)).lset VIN.SN_CHECKED_HI.o (checkedOut checked / 2 ^ 32)
  let m := if up then ((m.dropBackground).loadBudgets).traceRec 149 0 5 0 0 (leBytes 6 step) else m
  m.release checked

/-- The effective time of the earliest announcement has come. -/
def Mod.stepBoundary (m : Mod) : Mod :=
  match m.vine.anns with
  | [] => m
  | (s, c, _) :: rest => (m.vineOf fun v => { v with anns := rest }).boundary s c

/-! ## Recovery (R343) -/

/-- Warm recovery keeps the time in holdover and takes the announced values again. -/
def Mod.warmVine (m : Mod) : Mod :=
  (m.vineOf fun v => { v with t1 := none, below := [], sentUp := (0, 0), anns := [], synced := false }).sets
    [(VIN.STAT.LOCKED, 0), (VIN.STAT.HOLDOVER, 1)]

end Sys2Proof.Machine
end

