-- ==== Sys2Proof/Machine/Duplex.lean ====
section
/-! DEFINITION. Duplex pairs (R344–R352, R368–R386): roles, pairing, digests and the checked step, heartbeats, partner loss and takeover,
fills and the spare swap, table writes and Pod copies between partners. The alias table itself is in Alias.lean. -/

namespace Sys2Proof.Machine

def Mod.dupOf (m : Mod) (f : Duplex → Duplex) : Mod := { m with dup := f m.dup }

/-- The module's role changes; any change but into FENCED leaves debug mode (R493). -/
def Mod.setRole (m : Mod) (r : Nat) : Mod :=
  if m.role = r then m
  else
    let m := m.set DUP.ROLE.ROLE r
    if r ≠ 4 ∧ m.is DBG.STAT.DEBUG then (m.set DBG.STAT.DEBUG 0).raiseDBG 4 else m

/-! ## Pairing (R347, R386) -/

/-- The PAIR payload. -/
def Mod.pairPayload (m : Mod) : List Byte :=
  leBytes 2 m.id ++ leBytes 2 (m.f DUP.PARTNER.ID) ++ leBytes 2 (m.f DUP.TRAY.ID) ++ leBytes 1 m.role ++
    leBytes 1 (m.f DUP.ROLE.ARMED) ++ leBytes 2 (m.f CFG.LAYOUT.S_GIB) ++ leBytes 2 (m.f CFG.LAYOUT.L_GIB) ++
    leBytes 6 (checkedOut m.steps.oldest) ++ List.replicate 14 0

/-- This end sends PAIR. -/
def Mod.sendPair (m : Mod) : Mod :=
  (m.dupOf fun d => { d with pairSent := true, pairBad := false }).sendOut m.pport (m.peer m.pport) (m.tagFor m.steps.oldest) clsDUP 0 0
    m.pairPayload

/-- When the partner port comes UP, this end sends PAIR. -/
def Mod.pairFlow (m : Mod) : Mod :=
  let up := m.pstate m.pport == pUP
  if !m.is DUP.CFG.ENABLE || !up then (if m.dup.pairSent then m.dupOf fun d => { d with pairSent := false } else m)
  else if m.dup.pairSent then m
  else (m.set DUP.ROLE.DETOUR 0).sendPair

/-- Role pairs that may pair: SPARE with any role, PAIRED with PAIRED, SOLO with SPARE or PROBATION (reason 4 of R347). -/
def rolesPair (a b : Nat) : Bool :=
  a == 0 || b == 0 || (a == 1 && b == 1) || (a == 2 && b == 3) || (a == 3 && b == 2)

/-- The reason to refuse a PAIR packet, or 0. -/
def Mod.pairReason (m : Mod) (p : Pkt) : Nat :=
  if payNat p 8 2 ≠ m.f CFG.LAYOUT.S_GIB ∨ payNat p 10 2 ≠ m.f CFG.LAYOUT.L_GIB then 1
  else if payNat p 4 2 = m.f DUP.TRAY.ID then 2
  else if payNat p 0 2 % 8192 ≠ m.f DUP.PARTNER.ID ∨ payNat p 2 2 % 8192 ≠ m.id then 3
  else if !rolesPair m.role (payNat p 6 1 % 8) then 4
  else 0

/-- A fill begins on the sender (R380, R381): kind 1 re-mirroring, 2 mirror fill. -/
def Mod.startFill (m : Mod) (kind : Nat) : Mod :=
  let m := m.noteReset 2 (m.f DUP.RM_STAT.UNITS)
  ((m.dupOf fun d => { d with rm := kind, rmUnit := 0, rmGot := [] }).set DUP.ROLE.RM_BUSY 1).set DUP.RM_STAT.UNITS 0

/-- A PAIR packet on the partner port. A module that pairs with a SOLO one takes its step numbers, and a SPARE and a SOLO module compare
digests only once the fill that such a pair needs is complete. Each end needs the other's PAIR: one that accepts after it has refused an
earlier PAIR, or that is paired by the SOLO module of a swap, sends its own again (log entry 105). -/
def Mod.takePair (m : Mod) (port : Nat) (p : Pkt) : Mod :=
  if !m.is DUP.CFG.ENABLE ∨ port ≠ m.pport then m
  else
    let peer := payNat p 0 2 % 8192
    match m.pairReason p with
    | 0 =>
      let r := payNat p 6 1 % 8
      let fresh := !m.dup.paired
      let fill := (m.role == 2 && r == 0) || (r == 2 && m.role == 0)
      let again := fresh && m.dup.pairSent && (m.dup.pairBad || r == 2)
      let m := m.dupOf fun d => { d with
        paired := true, peerRole := r, peerId := peer, cmpFrom := if fill ∧ fresh then some (2 ^ 48) else d.cmpFrom }
      let m := if fresh ∧ r = 2 ∧ m.role ≠ 1 then m.stepsOf fun s => { s with oldest := checkedIn (payNat p 12 6) } else m
      let m := if m.dup.swapping ∧ fresh ∧ m.dup.rm = 0 ∧ m.dup.swapAt.isNone ∧ r ≠ 2 then m.startFill 1 else m
      -- a spare that pairs with a SOLO module takes part in its swap from here on (R379, R383)
      let m := if m.role = 0 ∧ r = 2 then m.dupOf fun d => { d with swapping := true } else m
      let m := (m.raiseDUP 1 peer 0 0).progress 151
      if again then m.sendPair else m
    | n => (m.dupOf fun d => { d with paired := false, pairBad := true }).raiseDUP 2 peer n 0

/-! ## The checked step (R349–R351) -/

/-- Whether digests of step `k` are compared with the partner's. -/
def Mod.comparesAt (m : Mod) (k : Nat) : Bool :=
  m.dup.paired && (match m.dup.cmpFrom with | some c => decide (c ≤ k) | none => true)

/-- The tag and digests of a DIGEST packet sent. -/
def Mod.sendDigest (m : Mod) (again : Bool) : Mod :=
  let k := m.upd.step
  m.sendDup (m.tagFor k) 2 0 (leBytes 6 k ++ leBytes 2 (m.tagFor k) ++ leBytes 16 m.upd.digOwn ++ leBytes 16 m.upd.digMir ++
    leBytes 1 again.toNat ++ List.replicate 7 0)

/-- The digests enter the holding registers (R217). -/
def Mod.showDigests (m : Mod) : Mod :=
  let put (m : Mod) (o n : Nat) : Mod := (List.range 4).foldl (fun m j => m.lset (o + 4 * j) (n / 2 ^ (32 * j) % 2 ^ 32)) m
  let m := put (put m (UPD.SN_DIG_OWN.o 0) m.upd.digOwn) (UPD.SN_DIG_MIR.o 0) m.upd.digMir
  (m.lset UPD.SN_DIG_STEP_LO.o m.upd.step).lset UPD.SN_DIG_STEP_HI.o (m.upd.step / 2 ^ 32)

/-- Both passes of the running stage 6 have ended: the digest goes to the partner and stage 6 is over. -/
def Mod.digestFlow (m : Mod) : Mod :=
  if m.upd.running && m.upd.ownDone && m.upd.mirDone then
    let m := m.showDigests
    let m := if m.comparesAt m.upd.step && !m.dup.sentDigest then
      (m.sendDigest false).dupOf fun d => { d with sentDigest := true } else m
    m.sixOver
  else m

/-- Whether the step has everything but its comparison: health passed, both passes ended. -/
def Mod.healthDone (m : Mod) (k : Nat) : Bool :=
  m.steps.healthOk.contains k && !m.upd.running && m.upd.ownDone && m.upd.mirDone && m.upd.digStep == k

/-- The tag of the attempt that was checked is that of a checkpoint which takes step `k`, or may be about to (R396, R401). -/
def Mod.tagCkpt (m : Mod) (k : Nat) : Mod :=
  let c := m.ckpt
  if (c.order = 2 ∧ c.step = k) ∨ (c.order = 0 ∧ c.awaitStart = some (k + 1)) then { m with ckpt := { c with tag := m.tagFor k } } else m

/-- Step `k` is checked: the next step is the oldest unchecked one. `compared` says that digests were compared. -/
def Mod.checked (m : Mod) (k : Nat) (compared : Bool) : Mod :=
  let m := m.tagCkpt k
  let m := m.stepsOf fun s => { s with
    oldest := k + 1, begun := s.begun.filter (· != k), six := s.six.filter (· != k), submitted := s.submitted.filter (· != k),
    held := s.held.filter (· != k), healthOk := s.healthOk.filter (· != k), failed := none }
  let m := m.count (if compared then DUP.SN_CMP_LO.o else DUP.SN_UNPAIRED_LO.o) 1
  let m := m.dupOf fun d => { d with
    sentDigest := false, recheck := false, finishing := false, takingOver := false, digests := d.digests.filter fun x => decide (k < x.step)
    lostId := if d.swapAt.any (· ≤ k + 1) then none else d.lostId, solo := d.solo && !d.swapAt.any (· ≤ k + 1)
    swapAt := if d.swapAt.any (· ≤ k + 1) then none else d.swapAt }
  let m := m.hltOf fun h => { h with tcStart := false, tcLeft := h.tcLeft - 1 }
  let m := { m with fen := { m.fen with done := m.fen.done.filter fun x => decide (k < x.1) } }
  let m := if compared && m.role == 0 then m.setRole 1 else m
  let m := m.progress 151
  match m.steps.again with
  | none => m
  | some same => (m.stepsOf fun s => { s with again := none }).rewindTo (k + 1) same

/-- The partner's digests of step `k` in the present round: its own and mirror digest. -/
def Mod.partnerDigest (m : Mod) (k : Nat) : Option PDigest :=
  m.dup.digests.find? fun d => d.step == k && d.tag == m.tagFor k && d.recheck == m.dup.recheck

/-- The halves that disagree: bit 0 own, bit 1 mirror. -/
def Mod.halves (m : Mod) (d : PDigest) : Nat :=
  (if d.mir = m.upd.digOwn then 0 else 1) + (if d.own = m.upd.digMir then 0 else 2)

/-- Digests still disagree after the re-check (R350, R351). With a PROBATION partner the step is checked all the same. -/
def Mod.digestFails (m : Mod) (k h : Nat) : Mod :=
  if m.role = 3 ∨ m.dup.peerRole = 3 then
    let m := m.raiseDUP 10 m.dup.peerId h k
    let m := if m.role = 3 then (m.charge 0x06 254 h k (m.tagFor k) 0).set TST.PROB.CLEAN 0 else m
    m.checked k true
  else
    let m := (m.raiseDUP 6 m.dup.peerId h k).charge 0x05 254 h k (m.tagFor k) 0
    (((m.discard (k + 1)).holdFailed k 2).dupOf fun d => { d with recheck := false })

/-- A step compared without mismatch counts in `PROB.CLEAN` while this module is in PROBATION (R454). -/
def Mod.agreed (m : Mod) : Mod := if m.role = 3 then m.set TST.PROB.CLEAN (m.f TST.PROB.CLEAN + 1) else m

/-- The oldest unchecked step is checked, or its re-check starts, once everything it needs is there. -/
def Mod.tryCheck (m : Mod) : Mod :=
  let k := m.steps.oldest
  if !m.healthDone k || m.steps.failed.any (·.1 == k) then m
  else if !m.comparesAt k then m.checked k false
  else match m.partnerDigest k with
    | none => m
    | some d =>
      match m.halves d, m.dup.recheck with
      | 0, true => if m.dup.sentDigest then (m.raiseDUP 5 m.dup.peerId 0 k).agreed.checked k true else m
      | 0, false => m.agreed.checked k true
      | _, false => (m.dupOf fun d => { d with recheck := true, sentDigest := false }).count DUP.SN_RECHECK_LO.o 1
      | h, true => if m.dup.sentDigest then m.digestFails k h else m

/-- A DIGEST packet (R349). -/
def Mod.takeDigest (m : Mod) (p : Pkt) : Mod :=
  let k := payNat p 0 6
  if !m.is DUP.CFG.ENABLE ∨ !m.dup.paired ∨ k < m.steps.oldest then m
  else
    let d : PDigest := ⟨k, payNat p 6 2, payNat p 8 16, payNat p 24 16, payNat p 40 1 % 2 == 1⟩
    let m := m.dupOf fun x => { x with digests := (x.digests.filter fun y => !(y.step == k && y.recheck == d.recheck)) ++ [d] }
    -- the partner re-checks: both modules do (R350)
    if d.recheck ∧ !m.dup.recheck ∧ k = m.steps.oldest ∧ m.healthDone k then
      ((m.dupOf fun x => { x with recheck := true, sentDigest := false }).count DUP.SN_RECHECK_LO.o 1).progress 151
    else m.progress 151

/-- The re-check's reads end: both regions are read again, and the digests sent with RECHECK. An uncorrectable unit makes it wait. -/
def Mod.recheckDone (m : Mod) : Mod :=
  if !m.dup.recheck ∨ m.dup.sentDigest then m
  else
    let e := m.extent
    let base := m.regionBase 2
    if m.fetching 0 [(0, e)] || m.fetching 1 [(0, e)] then m
    else match m.see ⟨3, some (m.tagFor m.upd.step), 1, 128⟩ [(0, e), (base, e)] with
      | (m, _, false) => m
      | (m, mem, true) =>
        let m := m.updOf fun u => { u with digOwn := regionDigest mem 0 e, digMir := regionDigest mem base e }
        ((m.showDigests).sendDigest true).dupOf fun d => { d with sentDigest := true }

/-! ## Heartbeats (R306) -/

/-- Every 8 µs a HEARTBEAT goes out of each port with `HB_EN` set. -/
def Mod.heartbeatSend (m : Mod) : Mod :=
  if m.dup.dead then m else
  let n := m.dup.hbNumber
  let pay := leBytes 6 m.vine.step ++ leBytes 6 (checkedOut m.vine.checked) ++ leBytes 2 n ++ leBytes 1 m.role ++ [0]
  let m := (List.range 8).foldl (fun m p =>
    if m.is (LNK.PORT_CTL.HB_EN p) && m.pstate p == pUP then
      m.sendOut p (m.peer p) (m.tagFor m.steps.oldest) clsCTRL 1 0 pay else m) m
  m.dupOf fun d => { d with hbNumber := (n + 1) % 65536 }

/-- A HEARTBEAT is received. -/
def Mod.takeHeartbeat (m : Mod) (port : Nat) (p : Pkt) : Mod :=
  let m := (m.set (LNK.HB_LAST.COUNT port) (payNat p 12 2)).count (LNK.SN_HB_RX_LO.o port) 1
  let m := m.onPort port fun x => { x with hbSilent := false }
  if port = m.pport then m.dupOf fun d => { d with peerRole := payNat p 14 1 % 8 } else m

/-- No heartbeat within the deadline: HB_MISS once, whatever the state of the port, and on the partner port a loss of the partner
(R306, R369). -/
def Mod.hbMiss (m : Mod) (p : Nat) : Mod :=
  if !m.is (LNK.PORT_CTL.HB_EN p) || (m.port p).hbSilent then m
  else
    let m := (m.onPort p fun x => { x with hbSilent := true }).raiseLNK 7 p (m.peer p)
    if p = m.pport then m.dupOf fun d => { d with signal := some 2 } else m

/-! ## Table writes and Pod copies between partners (R216, R348, R360) -/

/-- An accepted table write is forwarded to the partner. -/
def Mod.forwardWrite (m : Mod) (w : TableWrite) : Mod :=
  if !m.dup.paired then m
  else
    let seqKey := ((m.id * 8192 + m.dup.peerId) * 65536 + m.tagFor m.steps.oldest) * 8 + clsDUP
    let s := tget (fun _ => 0) m.router.seqs seqKey
    let m := m.sendDup (m.tagFor m.steps.oldest) 3 w.number
      (leBytes 6 w.step ++ leBytes 1 w.table ++ [0] ++ leBytes 2 w.index ++ leBytes 4 w.word ++ [0, 0] ++
        (List.range 4).flatMap fun i => leBytes 4 (w.data.getD i 0).toNat)
    m.dupOf fun d => { d with acks := d.acks ++ [(s, w.number)] }

/-- Whether two writes name the same item and step. -/
def TableWrite.same (a b : TableWrite) : Bool :=
  a.step == b.step && a.table == b.table && a.index == b.index && a.word == b.word && a.mirror == b.mirror

/-- A TW packet: the partner's write is made pending for the mirror, and acknowledged. -/
def Mod.takeTw (m : Mod) (p : Pkt) : Mod :=
  if !m.dup.paired then m
  else
    let w : TableWrite := ⟨payNat p 0 6, payNat p 6 1, payNat p 8 2, payNat p 10 4,
      (List.range 4).map fun i => BitVec.ofNat 32 (payNat p (16 + 4 * i) 4), infoOf p % 65536, true, true⟩
    let m := m.updOf fun u => { u with writes := (u.writes.filter fun x => !x.same w) ++ [w] }
    m.sendDup (tagOf p) 4 (3 + 16 * p.seq.toNat) []

/-- A POD_COPY: the host write is recorded in the input ring as the partner's copy and acknowledged (R360); where the ring has no room
its step becomes UNPROT (R361). -/
def Mod.takePodCopy (m : Mod) (p : Pkt) : Mod :=
  if !m.dup.paired then m
  else
    let pod := { pktOfBytes p.payload with replay := false }
    -- the bridge stamps the copy with the tag of the step at which it received the Pod (R358)
    let k := m.tagStep (tagOf p)
    let mine (s : Segment) : Bool := s.step == k && s.copy
    let fresh : Segment := ⟨k, tagOf p, m.dup.peerId, false, true, false, []⟩
    let need := podBytes pod + (if m.ledger.input.any mine then 0 else 64)
    let m := if !m.is LDG.CFG.ENABLE ∨ m.ledger.fullSteps.contains k ∧ m.ledger.input.any (fun s => mine s && s.unprot) then m
      else if ringUsed m.ledger.input + need ≤ m.inRing then
        ((m.onInput (addPod mine fresh pod)).count LDG.SN_PODS_LO.o 1).count LDG.SN_POD_BYTES_LO.o (podBytes pod)
      else ((m.onInput (markUnprot mine fresh)).countUnprot m).ledgerFull k
    m.sendDup (tagOf p) 4 (5 + 16 * p.seq.toNat) []

/-- A host write that waits for its POD_COPY's acknowledgement is acknowledged to the host (R335). -/
def Mod.ackHost (m : Mod) (s : Nat) : Mod :=
  match m.ledger.inputAcks.find? (·.1 == s) with
  | none => m
  | some (_, p) =>
    let m := m.ldg fun l => { l with inputAcks := l.inputAcks.filter (·.1 != s) }
    (m.sendOut 7 (srcOf p) (tagOf p) clsRSP 0 p.seq.toNat []).progress 150

/-- A DUP_ACK: of a SHARD, a TW or a POD_COPY. -/
def Mod.takeDupAck (m : Mod) (p : Pkt) : Mod :=
  let s := infoOf p / 16 % 2 ^ 24
  match infoOf p % 16 with
  | 1 => m.ackShard
  | 3 =>
    match m.dup.acks.find? (·.1 == s) with
    | none => m
    | some (_, n) =>
      let m := m.dupOf fun d => { d with acks := d.acks.filter (·.1 != s) }
      m.updOf fun u => { u with writes := u.writes.map fun w => if w.number = n ∧ !w.mirror then { w with acked := true } else w }
  | 5 => m.ackHost s
  | _ => m

/-! ## Fills (R380, R381, R384) -/

/-- A region's ranges in the order of a fill: the update list, layer table, record table and update header, then the rest in address
order. -/
def Mod.fillRanges (m : Mod) : List (Nat × Nat) :=
  let up (n : Nat) : Nat := (n + 15) / 16 * 16
  let first := ([(m.listOff, up (64 * m.listN)), (m.layerOff 0, up (8 * m.layerN)), (m.recAddr 0, 32768), (m.hdrOff, hdrBytes)]).filter
    fun r => r.2 != 0 && decide (r.1 + r.2 ≤ m.sizeS)
  let sorted := first.mergeSort fun a b => decide (a.1 ≤ b.1)
  let rest := sorted.foldl (fun (acc : List (Nat × Nat) × Nat) r =>
    (if acc.2 < r.1 then acc.1 ++ [(acc.2, r.1 - acc.2)] else acc.1, max acc.2 (r.1 + r.2))) ([], 0)
  first ++ rest.1 ++ (if rest.2 < m.sizeS then [(rest.2, m.sizeS - rest.2)] else [])

/-- The ranges of a whole fill as (target, offset, length): a re-mirroring fills the receiver's own region and then its mirror, the tables
of both first; a mirror fill only the mirror. -/
def Mod.fillPlan (m : Mod) (kind : Nat) : List (Nat × Nat × Nat) :=
  let r := m.fillRanges
  let at_ (t : Nat) (l : List (Nat × Nat)) : List (Nat × Nat × Nat) := l.map fun x => (t, x.1, x.2)
  if kind % 2 = 0 then at_ 1 r
  else
    let n := min 4 (r.length)
    at_ 0 (r.take n) ++ at_ 1 (r.take n) ++ at_ 0 (r.drop n) ++ at_ 1 (r.drop n)

/-- The `n`th packet of a plan, 256 bytes or the rest of a range: target, offset, length. -/
def planAt : List (Nat × Nat × Nat) → Nat → Option (Nat × Nat × Nat)
  | [], _ => none
  | (t, o, len) :: rest, n =>
    let k := (len + 255) / 256
    if n < k then some (t, o + 256 * n, min 256 (len - 256 * n)) else planAt rest (n - k)

/-- Bytes of the first `n` packets of a plan. -/
def planBytes : List (Nat × Nat × Nat) → Nat → Nat
  | [], _ => 0
  | (_, _, len) :: rest, n =>
    let k := (len + 255) / 256
    if n < k then 256 * n else len + planBytes rest (n - k)

/-- `RM_BUSY` shows whether a fill runs in either direction. -/
def Mod.showFill (m : Mod) : Mod := m.set DUP.ROLE.RM_BUSY (if m.dup.rm = 0 ∧ m.dup.rmIn = 0 then 0 else 1)

/-- A fill of a kind is complete at this end: the receiver raises RM_DONE (R379, R381). `k` is the step after the one whose update the last
packet reflects, which is the same at both ends; digests are compared from the step after it on (R380). A tile-check window opens on the
target of a re-mirroring (R232). -/
def Mod.fillDone (m : Mod) (kind k : Nat) : Mod :=
  let re := kind % 2 == 1
  let m := m.dupOf fun d => { d with rmStep := k, cmpFrom := if re then some (k + 1) else d.cmpFrom }
  let m := if kind < 3 then m.dupOf fun d => { d with rm := 0, rmUnit := 0 } else m.dupOf fun d => { d with rmIn := 0, rmGot := [] }
  let m := if kind = 3 then m.openTiles else m
  if kind < 3 then m.showFill else m.showFill.raiseDUP 8 m.dup.peerId 0 k

/-- The sender's next packet. A unit that it cannot read holds the fill until it is repaired. -/
def Mod.rmSend (m : Mod) : Mod :=
  if !m.dup.paired || (m.dup.rm != 1 && m.dup.rm != 2) then m
  else match planAt (m.fillPlan m.dup.rm) m.dup.rmUnit with
    | none => m.fillDone m.dup.rm (m.updates 0)
    | some (t, o, n) =>
      -- the receiver's own region is this module's mirror, and the other way round; a mirror fill sends the own region
      let mine := 1 - t
      match m.load ⟨3, none, 3, 128⟩ (m.fetchBase mine + o) n with
      | (m, none) => m
      | (m, some bs) =>
        let m := m.sendDup (m.blockTag mine) 6 (t + 4 * (o / 16)) bs
        let u := m.dup.rmUnit + 1
        let m := (m.dupOf fun d => { d with rmUnit := u }).count DUP.SN_RM_BYTES_LO.o n
        let m := (m.set DUP.RM_STAT.UNITS (planBytes (m.fillPlan m.dup.rm) u / 4096)).progress 151
        if (planAt (m.fillPlan m.dup.rm) u).isNone then m.fillDone m.dup.rm (m.updates mine) else m

/-- A range joined to ranges received. -/
def joinRange (l : List (Nat × Nat × Nat)) (r : Nat × Nat × Nat) : List (Nat × Nat × Nat) :=
  let touch (x : Nat × Nat × Nat) : Bool := x.1 == r.1 && decide (x.2.1 ≤ r.2.2) && decide (r.2.1 ≤ x.2.2)
  let t := l.filter touch
  (l.filter fun x => !touch x) ++
    [(r.1, t.foldl (fun a x => min a x.2.1) r.2.1, t.foldl (fun a x => max a x.2.2) r.2.2)]

/-- Bytes of ranges received. -/
def gotBytes (l : List (Nat × Nat × Nat)) : Nat := (l.map fun x => x.2.2 - x.2.1).sum

/-- The fill that an RM_DATA packet with a target belongs to: the one under way, else a re-mirroring where the own region is sent, and a
mirror fill where only the mirror is (R380, R381). -/
def Mod.fillKind (m : Mod) (target : Nat) : Nat := if m.dup.rmIn ≠ 0 then m.dup.rmIn else if target = 0 then 3 else 4

/-- A fill or swap that loses its partner fails: RM_FAIL (R381, R383). -/
def Mod.fillFails (m : Mod) : Mod :=
  if m.dup.rm = 0 && m.dup.rmIn = 0 && !m.dup.swapping then m
  else
    let m := m.dupOf fun d => { d with rm := 0, rmIn := 0, rmUnit := 0, rmGot := [], swapping := false, reversing := false, swapAt := none }
    (m.set DUP.ROLE.RM_BUSY 0).raiseDUP 9 m.dup.peerId 0 m.steps.oldest

/-- The first packet of a fill: this module is its target. -/
def Mod.fillStarts (m : Mod) (kind : Nat) : Mod :=
  if m.dup.rmIn ≠ 0 then m else (m.dupOf fun d => { d with rmIn := kind, rmGot := [] }).showFill

/-- An RM_DATA packet of a fill, or a fetch reply (R386). A mirror fill needs `UPD.CFG.ENABLE` clear here too (R381). -/
def Mod.takeRmData (m : Mod) (p : Pkt) : Mod :=
  let i := infoOf p
  let t := i % 2
  let o := 16 * bits i 35 2
  let kind := m.fillKind t
  if !m.dup.paired ∨ m.sizeS < o + p.payload.length then m
  else if i.testBit 1 then m.fetchReply (tagOf p) t o p.payload
  else if kind = 4 ∧ m.is UPD.CFG.ENABLE then m
  else
    let m := m.fillStarts kind
    match m.store ⟨3, none, 3, 128⟩ (m.fetchBase t + o) p.payload with
    | (m, false) => m.fillFails
    | (m, true) =>
      let m := m.dupOf fun d => { d with rmGot := joinRange d.rmGot (t, o, o + p.payload.length) }
      let got := gotBytes m.dup.rmGot
      let m := (m.set DUP.RM_STAT.UNITS (got / 4096)).progress 151
      let m := if kind = 3 ∧ t = 0 ∧ !m.upd.running ∧ m.steps.six = [] then m.setStepRegs (m.tagStep (tagOf p)) 0 else m
      if got = (if kind = 3 then 2 * m.sizeS else m.sizeS) then m.fillDone kind (m.updatesOf (tagOf p)) else m

/-- A block fetch asked by the partner waits for the matching pass (R384). -/
def Mod.takeRmReq (m : Mod) (p : Pkt) : Mod :=
  if !m.dup.paired then m
  else m.dupOf fun d => { d with replies := d.replies ++ [(payNat p 0 1 % 2, payNat p 8 6, tagOf p)] }

/-- Whether a block fetch can be answered: the block holds the update of the step asked for, and is not itself being fetched. -/
def Mod.replyDue (m : Mod) (r : Nat × Nat × Nat) : Bool :=
  decide (m.updatesOf r.2.2 ≤ m.updates (1 - r.1)) && decide (r.2.1 + 2048 ≤ m.sizeS) &&
    !(m.memside.fetches.any fun f => f.target == 1 - r.1 && f.off == r.2.1)

/-- The answer to one block fetch, as soon as the block holds the update of the step asked for; its packets name the step whose update
they reflect. The requester's own region is this module's mirror. A pass reads the whole region first, so that none writes a block of
which a unit cannot be read, while an answer is owed for it. -/
def Mod.replyBlock (m : Mod) (r : Nat × Nat × Nat) : Mod :=
  let mine := 1 - r.1
  if !m.replyDue r then m
  else match m.load ⟨3, none, 3, 128⟩ (m.fetchBase mine + r.2.1) 2048 with
    | (m, none) => m
    | (m, some bs) =>
      let m := m.dupOf fun d => { d with replies := d.replies.erase r }
      (List.range 8).foldl (fun m i =>
        m.sendDup (m.blockTag mine) 6 (r.1 + 2 + 4 * (r.2.1 / 16 + 16 * i)) ((bs.drop (256 * i)).take 256)) m

def Mod.replyBlocks (m : Mod) : Mod := m.dup.replies.foldl Mod.replyBlock m

/-! ## Partner loss (R369–R377, R383) -/

/-- What a loss ends: pairing, the detour, fetches that wait on the partner, shard acknowledgements, and host writes that wait for the
partner's copy. -/
def Mod.partnerGone (m : Mod) : Mod :=
  let m := (m.dupOf fun d => { d with
    paired := false, probing := none, sentDigest := false, recheck := false, replies := [], acks := [], cmpFrom := none
    digests := [] }).set DUP.ROLE.DETOUR 0
  let m := m.loseFetches
  let m := m.collOf fun c => { c with partnerAck := 0 }
  (m.ledger.inputAcks.map (·.1)).foldl Mod.ackHost m

/-- Ids of the torus neighbours of a module within the slice. -/
def Mod.neighboursOf (m : Mod) (id : Nat) : List Nat := ((List.range 6).filterMap fun p => m.linkedTo id p).dedup

/-- The modules that face a lost one: its torus neighbours in the slice, and the peer of its P7, which the module does not know unless
its own P7 faces it (R371; log entry 67). -/
def Mod.facing (m : Mod) (f : Nat) : List Nat :=
  let aux := Config.auxPeer f % 8192
  let aux := if m.peer 7 = f ∨ aux = f ∨ !m.inSlice aux then [] else [aux]
  ((m.neighboursOf f ++ aux).dedup).filter fun n => n != m.id && !m.holes.contains n

/-- FENCE (R308) naming the partner to each module that faces it; own ports that face it are fenced too. -/
def Mod.fencePartner (m : Mod) : Mod :=
  let f := m.dup.peerId
  let pay := leBytes 2 f ++ [1, 0] ++ leBytes 6 m.vine.step ++ List.replicate 6 0
  let ends := m.facing f
  let m := (List.range 8).foldl (fun m p => if m.pstate p = pUP ∧ m.peer p = f then m.fencePort p else m) m
  ends.foldl (fun m n => m.sendTo n (m.tagFor m.steps.oldest) clsCTRL 3 0 pay) m

/-- No takeover: the partner is fenced, and its identity is lost (R377). -/
def Mod.doubleLoss (m : Mod) (cause : Nat) : Mod :=
  let peer := m.dup.peerId
  (m.fencePartner.fillFails.partnerGone).raiseDUP 7 peer cause m.steps.oldest

/-- The loss is certain: the module takes over when its plan is armed and it is PAIRED; a SOLO module whose spare is lost stays SOLO
(R383); otherwise R377 applies. -/
def Mod.lossCertain (m : Mod) (cause : Nat) : Mod :=
  let m := m.dupOf fun d => { d with probing := none }
  if m.role = 1 ∧ m.is DUP.ROLE.ARMED then
    let ends := m.facing m.dup.peerId
    m.fencePartner.dupOf fun d => { d with takeover := some cause, awaiting := ends }
  else if m.role = 2 ∧ (m.dup.swapping ∨ m.dup.rm ≠ 0) then m.fillFails.partnerGone
  else m.doubleLoss cause

/-- A loss of the partner is detected (R370): by DOWN or HB_MISS it is probed first. A swap that loses the other module before the two
have paired fails (R383). -/
def Mod.partnerLoss (m : Mod) (cause : Nat) : Mod :=
  if !m.dup.paired then (if m.dup.swapping then m.fillFails else m)
  else if m.dup.takeover.isSome then m
  else if cause = 3 then m.lossCertain 3
  else if m.dup.probing.isSome then m
  else
    (m.dupOf fun d => { d with probing := some cause }).sendTo m.dup.peerId (m.tagFor m.steps.oldest) clsDUP 8 0 []

/-- The loss signalled while the present command ran is handled. -/
def Mod.signalFlow (m : Mod) : Mod :=
  match m.dup.signal with
  | none => m
  | some c => (m.dupOf fun d => { d with signal := none }).partnerLoss c

/-- A PROBE over the torus is answered. -/
def Mod.takeProbe (m : Mod) (p : Pkt) : Mod :=
  if !m.is DUP.CFG.ENABLE ∨ m.dup.dead ∨ m.down 151 then m
  else m.sendTo (srcOf p) (tagOf p) clsDUP 9 0 []

/-- DUP packets that wait at the partner port for the way to the partner go over the torus instead (R348). -/
def Mod.detourWaiting (m : Mod) : Mod :=
  let dup (e : Pkt × Option Nat) : Bool := e.1.cls.toNat == clsDUP
  let l := (m.port m.pport).ready.filter dup
  l.foldl (fun m e => m.route e.1 none) (m.onPort m.pport fun x => { x with ready := x.ready.filter fun e => !dup e })

/-- A PROBE_REPLY: the partner is alive, and DUP traffic detours, what waits at the partner port included. -/
def Mod.takeProbeReply (m : Mod) (p : Pkt) : Mod :=
  match m.dup.probing with
  | none => m
  | some c =>
    if srcOf p ≠ m.dup.peerId then m
    else
      let m := m.dupOf fun d => { d with probing := none }
      (m.set DUP.ROLE.DETOUR 1).detourWaiting.raiseDUP 4 m.dup.peerId c m.steps.oldest

/-! ## Takeover (R371–R374) -/

/-- Payloads of the input-ring copies are written into the lost bridge's input window, in arrival order (R374). -/
def Mod.replayInputs (m : Mod) (lost : Nat) : Mod :=
  if m.f TOR.BRIDGE.ID ≠ lost then m
  else
    let pods := (m.ledger.input.filter (·.copy)).flatMap (·.pods)
    pods.foldl (fun m p =>
      match m.servedAt lost (ioOffset (infoOf p)) (ioBytes p) with
      | some b => (m.store (By.hub (some (tagOf p))) b (writeBytes p)).1
      | none => m) m

/-- The path of R372 for the oldest unchecked step: it is finished when its vote 1 result is held, else recomputed on the SOLO table. -/
def Mod.soloPath (m : Mod) : Mod :=
  let k := m.steps.oldest
  if m.steps.failed.any (·.1 == k) then m
  else if m.steps.held.contains k then
    ((m.discard (k + 1)).stepsOf fun s => { s with again := some false }).dupOf fun d => { d with finishing := true }
  else (m.discard k).rewindTo k false

/-- The lost identity's vote words from what this module has formed of it: its mirror pre-check, which judged the same gradients, and its
mirror pass, both passes ended or not (R373). On the recompute path there are none yet. -/
def Mod.lostVotes (m : Mod) (lost : Nat) : Mod :=
  let u := m.upd
  let ended := !u.running && u.ownDone && u.mirDone && u.step == m.steps.oldest
  if !(u.running || ended) ∨ u.vote1 = 0 then m
  else
    let m := match m.coll.own.find? fun c => c.kind == kVote1 && c.inst == u.step with
      | some c => m.contribute kVote1 u.step c.tag lost c.words
      | none => m
    if u.vote2 = 0 then m else m.lostVote2

/-- The stand-in becomes SOLO with its plan consumed, and the lost identity is its own from here on. -/
def Mod.becomeSolo (m : Mod) : Mod :=
  let lost := m.dup.peerId
  let m := m.partnerGone.fillFails
  let m := m.setRole 2
  let m := (m.sets [(DUP.ROLE.ARMED, 0), (DUP.ROLE.TKO_PENDING, 1)]).count DUP.SN_TAKEOVER_LO.o 1
  let m := m.dupOf fun d => { d with takeover := none, awaiting := [], takingOver := true, solo := true, lostId := some lost }
  (m.openTiles.replayInputs lost).soloPath.lostVotes lost

/-! ## Orders of the run-time (R345, R368, R375, R379, R381) -/

/-- Whether the plan can be armed (R368, R388). -/
def Mod.planOk (m : Mod) : Bool :=
  let size := m.f DUP.SW_SIZE.UNITS * 0x200000
  let win := m.pair48 DUP.SW_WIN_LO.o DUP.SW_WIN_HI.o
  let off := m.pair48 DUP.SW_LOFF_LO.o DUP.SW_LOFF_HI.o
  let tbl (lo hi : Nat) : Bool := m.inRegion 6 (m.pair48 lo hi) 8192
  m.role == 1 && m.dup.paired && m.dup.peerRole == 1 &&
    (size == 0 || (m.inRegion 6 win size && !m.touchesStalk win size)) &&
    decide (off + size ≤ hbmTop - m.regionBase 6) &&
    tbl DUP.RW_TBL_LO.o DUP.RW_TBL_HI.o && tbl DUP.SOLO_TBL_LO.o DUP.SOLO_TBL_HI.o &&
    m.inWork (m.pair48 DUP.SOLO_COLL_LO.o DUP.SOLO_COLL_HI.o) (64 * m.f DUP.SOLO_COLL_HI.COLL_N)

/-- Whether a spare swap may start (R379): the SOLO module's P7 faces the spare that `SWAP` and `PARTNER` name. -/
def Mod.swapOk (m : Mod) : Bool :=
  m.role == 2 && m.is DUP.CFG.PPORT && m.is DUP.CFG.ENABLE && m.pstate 7 == pUP && m.peer 7 == m.f DUP.SWAP.SPARE &&
    m.f DUP.PARTNER.ID == m.f DUP.SWAP.SPARE && !m.dup.swapping

/-- Whether a reversal is accepted (R375): the lost module is present on the partner port in role SPARE. -/
def Mod.reverseOk (m : Mod) : Bool :=
  m.role == 2 && m.is DUP.CFG.ENABLE && m.pstate m.pport == pUP && m.dup.lostId == some (m.peer m.pport) && m.dup.peerRole == 0 &&
    !m.dup.swapping

/-- A swap starts: the two modules pair, and the fill begins. Modules that have paired already begin it at once, after one more PAIR
packet: the first may have reached the spare before its partner port was P7. -/
def Mod.startSwap (m : Mod) (back : Bool) : Mod :=
  let m := m.dupOf fun d => { d with swapping := true, reversing := back, swapAt := none }
  if m.dup.paired ∧ m.dup.peerId = m.peer m.pport ∧ m.dup.peerRole ≠ 2 then m.sendPair.startFill 1
  else m.dupOf fun d => { d with pairSent := false, paired := false }

/-- The step b of R379. -/
def Mod.swapStep (m : Mod) : Nat := m.pair48 DUP.SWAP_STEP_LO.o DUP.SWAP_STEP_HI.o

/-- Whether a mirror fill may start (R381, R388). -/
def Mod.mfillOk (m : Mod) : Bool := !m.is UPD.CFG.ENABLE && m.dup.paired && m.dup.rm == 0 && m.dup.rmIn != 3

/-- `ENABLE` cleared at the end of a job: PAIRED and SOLO become SPARE (R345). -/
def Mod.dupOff (m : Mod) : Mod :=
  let m := (m.dupOf fun d => { Duplex.init with hbNumber := d.hbNumber, twNumber := d.twNumber, aliveAt := d.aliveAt, dead := d.dead }).sets
    [(DUP.CFG.ENABLE, 0), (DUP.ROLE.ARMED, 0), (DUP.ROLE.TKO_PENDING, 0), (DUP.ROLE.RM_BUSY, 0), (DUP.ROLE.DETOUR, 0)]
  if m.role = 1 ∨ m.role = 2 then m.setRole 0 else m

/-- Whether the role table lets the run-time ask for a role (R345): PROBATION from SPARE, PAIRED from PROBATION, SPARE from FENCED once
no port is fenced. -/
def Mod.roleOk (m : Mod) (r : Nat) : Bool :=
  (r == 3 && m.role == 0) || (r == 1 && m.role == 3) ||
    (r == 0 && m.role == 4 && (List.range 8).all fun p => m.pstate p != pFENCED)

/-! ## Fences by packet (R308, R309) -/

/-- A FENCE packet. The second component says that it names this module, which Parsnip then fences wholly. -/
def Mod.takeFence (m : Mod) (port : Nat) (p : Pkt) : Mod :=
  let f := payNat p 0 2 % 8192
  let m := m.raiseLNK 10 port f
  if f = m.id then
    let m := (List.range 8).foldl Mod.fencePort m
    (m.dupOf fun d => { d with probing := none, takeover := none, awaiting := [], later := [] }).setRole 4
  else
    let mask := bitsOf 8 fun q => m.pstate q != pDISABLED && !(m.port q).ours && (m.port q).known && m.peer q == f
    let m := (List.range 8).foldl (fun m q => if mask.testBit q then m.fencePort q else m) m
    let m := if (m.dup.paired ∧ f = m.dup.peerId) ∨ (!m.dup.paired ∧ m.dup.swapping ∧ f = m.peer m.pport) then m.dupOf fun d => { d with signal := some 3 } else m
    m.sendTo (srcOf p) (tagOf p) clsCTRL 5 0 (leBytes 2 f ++ leBytes 1 mask ++ [0] ++ (p.payload.drop 4).take 6 ++ List.replicate 6 0)

/-- A FENCE_ACK ends the wait for its sender. -/
def Mod.takeFenceAck (m : Mod) (p : Pkt) : Mod :=
  if m.dup.takeover.isSome ∧ payNat p 0 2 % 8192 = m.dup.peerId then
    m.dupOf fun d => { d with awaiting := d.awaiting.filter (· != srcOf p) }
  else m

/-- A FAULT broadcast (R538): for the current attempt of a step held unchecked it is a fault replay. A repeat that comes another way
round names an attempt that is no longer current. -/
def Mod.takeFault (m : Mod) (p : Pkt) : Mod :=
  let j := payNat p 0 6
  let g := payNat p 6 2
  if j < m.steps.oldest ∨ m.tagFor j ≠ g ∨ m.steps.failed.any (·.1 == j) then m
  else m.faultReplay j (payNat p 10 1 % 16)

/-! ## Recovery (R388) -/

/-- Warm recovery: role FENCED, no plan, no pairing. -/
def Mod.warmDup (m : Mod) : Mod :=
  let m := m.dupOf fun d => { Duplex.init with hbNumber := d.hbNumber, twNumber := d.twNumber, aliveAt := d.aliveAt, dead := d.dead }
  (m.setRole 4).sets [(DUP.ROLE.ARMED, 0), (DUP.ROLE.TKO_PENDING, 0), (DUP.ROLE.RM_BUSY, 0), (DUP.ROLE.DETOUR, 0)]

end Sys2Proof.Machine
end

