-- ==== Sys2Proof/Machine/Ckpt.lean ====
section
/-! DEFINITION. Checkpoints and restore (R391–R410): manifests, digests, parity slices, the commit, restore by rounds and rebuild, drain,
import, and the bridge's relay. -/

namespace Sys2Proof.Machine

def Mod.ckptOf (m : Mod) (f : Ckpt → Ckpt) : Mod := { m with ckpt := f m.ckpt }

/-! ## The group (R391) -/

/-- The id at a group position, and this module's position. -/
def Mod.member (m : Mod) (p : Nat) : Nat :=
  if p % 2 = 0 then m.f (BLB.MEMBER.ID_A (p / 2)) else m.f (BLB.MEMBER.ID_B (p / 2))
def Mod.gpos (m : Mod) : Nat := m.f BLB.GROUP.POS
def Mod.members (m : Mod) : List Nat := (List.range 8).map m.member

/-- The position of a member id. -/
def Mod.posOf (m : Mod) (id : Nat) : Option Nat := (List.range 8).find? fun p => m.member p == id

/-- A stripe in bytes, and the slices of a fragment (R392, R399). -/
def Mod.stripe (m : Mod) : Nat := m.sizeS / 8
def sliceLen : Nat := 0x100000
def Mod.sliceCount (m : Mod) : Nat := m.stripe / sliceLen

/-- The generation that is running, and the stripe of member `i` in the fragment of position `j` (R393). -/
def stripeOf (i j : Nat) : Nat := (j + 15 - i) % 8

/-! ## Digests (R398) -/

/-- SHA-384 over pieces of 16 MiB and then over their digests. -/
def shardDigest (bs : List Byte) : List Byte :=
  sha384 ((pieces 0x1000000 ((bs.length + 0xFFFFFF) / 0x1000000) bs).flatMap sha384)

/-- The bytes of a generation up to the extent, and of a fragment, in a memory as read. -/
def Mod.genBytes (m : Mod) (mem : Tbl Byte) (g : Nat) : List Byte := getBytes byte0 mem (m.genBase g) m.extent
def Mod.fragBytes (m : Mod) (mem : Tbl Byte) (g : Nat) : List Byte := getBytes byte0 mem (m.fragBase g) m.stripe

/-- The digest of a generation's state in a memory as read (R213). -/
def Mod.genState (m : Mod) (mem : Tbl Byte) (g : Nat) : Nat := regionDigest mem (m.genBase g) m.extent

/-- What the checkpoint engine reads through the decoder. -/
def byCkpt : By := ⟨2, none, 3, 144⟩

/-- A generation up to the extent is read, and with `frag` its fragment: the memory as seen; the flag is false where a unit is
uncorrectable, whose generation R271 marks damaged. -/
def Mod.readGen (m : Mod) (g : Nat) (frag : Bool) : Mod × Tbl Byte × Bool :=
  m.see byCkpt ((m.genBase g, m.extent) :: if frag then [(m.fragBase g, m.stripe)] else [])

/-! ## Manifests (R401) -/

def Mod.manAddr (m : Mod) (g : Nat) : Nat := m.genBase g + m.sizeS - 4096

/-- The manifest of a generation as the controller gives it; one that holds an uncorrectable unit gives no data, which reads as INVALID
(R270). -/
def Mod.manifest (m : Mod) (g : Nat) : List Byte := ((m.load byCkpt (m.manAddr g) 1024).2).getD (List.replicate 1024 0)

/-- The reads of both manifests, with what the controller counts and raises on them. -/
def Mod.readManifests (m : Mod) : Mod := [0, 1].foldl (fun m g => (m.load byCkpt (m.manAddr g) 1024).1) m

def manState (b : List Byte) : Nat := dfield b 2 1
def manC (b : List Byte) : Nat := dfield b 24 4
def manStep (b : List Byte) : Nat := dfield b 16 6
def manJob (b : List Byte) : Nat := dfield b 8 8
def manStart (b : List Byte) : Nat := dfield b 56 8
def manShard (b : List Byte) (p : Nat) : List Byte := (b.drop (128 + 48 * p)).take 48

def Mod.job (m : Mod) : Nat := m.pair BLB.JOB_LO.o BLB.JOB_HI.o

/-- A manifest with its closing digest, which is taken with the state byte zero. -/
def sealManifest (body : List Byte) (state : Nat) : List Byte :=
  let b := (body ++ List.replicate (976 - body.length) 0).take 976
  let zero := b.take 2 ++ [0] ++ b.drop 3
  (b.take 2 ++ leBytes 1 state ++ b.drop 3) ++ sha384 zero

/-- The manifest of a checkpoint of this module. -/
def Mod.makeManifest (m : Mod) (state tag step c own start : Nat) (frag : List Byte) (shards : Nat → List Byte) : List Byte :=
  let pad (b : List Byte) : List Byte := (b ++ List.replicate 48 0).take 48
  sealManifest (leBytes 2 1 ++ [0] ++ leBytes 1 m.gpos ++ leBytes 2 (m.f BLB.IDENT.ID) ++ leBytes 2 tag ++ leBytes 8 m.job ++
    leBytes 6 step ++ [0, 0] ++ leBytes 4 c ++ leBytes 4 (m.f UPD.EXTENT.UNITS) ++ leBytes 2 (m.f CFG.LAYOUT.S_GIB) ++
    leBytes 2 (m.f BLB.GROUP.ID) ++ [0, 0, 0, 0] ++ leBytes 16 own ++ leBytes 8 start ++ pad frag ++
    (m.members.flatMap fun i => leBytes 2 i) ++ (List.range 8).flatMap fun p => pad (shards p)) state

/-- A manifest is written: the status registers show it (R411). -/
def Mod.putManifest (m : Mod) (g : Nat) (b : List Byte) : Mod :=
  let m := (m.store byCkpt (m.manAddr g) b).1
  m.sets [(BLB.GEN_STAT.STATE (g % 2), manState b), (BLB.GEN_C.C (g % 2), manC b)]

/-- The state byte changes, and nothing else: the manifest's digest does not depend on it (R401). -/
def Mod.setManState (m : Mod) (g s : Nat) : Mod :=
  (m.store byCkpt (m.manAddr g + 2) (leBytes 1 s)).1.set (BLB.GEN_STAT.STATE (g % 2)) s

/-- At start-up the status registers take what HBM and the flash hold (R401, R411). -/
def Mod.loadManifests (m : Mod) : Mod :=
  [0, 1].foldl (fun m g => m.readManifests.sets [(BLB.GEN_STAT.STATE g, manState (m.manifest g)), (BLB.GEN_C.C g, manC (m.manifest g)),
    (BLB.GEN_STAT.DAMAGED g, (m.damageKept g).toNat)]) m

/-- Whether this module has a manifest of checkpoint `c` for this job. -/
def Mod.manFor (m : Mod) (c : Nat) : Bool :=
  let b := m.manifest c
  manC b == c && manJob b == m.job && manState b != 0

/-- Whether a generation's manifest belongs to this job as COMMITTED or IMPORTED. -/
def Mod.genHeld (m : Mod) (g : Nat) : Bool :=
  let b := m.manifest g
  (manState b == 3 || manState b == 4) && manJob b == m.job

/-- The newest number held COMMITTED or IMPORTED for this job, and its manifest (R394). -/
def Mod.newestC (m : Mod) : Nat :=
  ([0, 1].filter m.genHeld).foldl (fun a g => max a (manC (m.manifest g))) 0
def Mod.newestMan (m : Mod) : List Byte :=
  match [0, 1].find? fun g => m.genHeld g && manC (m.manifest g) == m.newestC with
  | some g => m.manifest g
  | none => []

/-! ## Start words (R394, R395) -/

def Mod.ckptPhase (m : Mod) : Nat := m.f BLB.STAT.PHASE

/-- Whether this module asks for a checkpoint at the boundary of an announcement for step `k + 1` at time `t`. A slice whose modules are
no multiple of eight takes none (R391). -/
def Mod.wantsCkpt (m : Mod) (k t : Nat) : Bool :=
  let b := m.newestMan
  let iv := m.f BLB.INTERVAL.SECONDS
  let ev := m.f BLB.EVERY.STEPS
  decide (m.newestC ≠ 0) && m.sliceSize % 8 == 0 &&
    ((m.is BLB.CFG.AUTO && iv != 0 && (decide (t < manStart b) || decide (iv * 1000000000 ≤ t - manStart b))) ||
     (m.is BLB.CFG.AUTO && ev != 0 && decide (manStep b + ev ≤ k)) || m.ckpt.now)

/-- Whether the extent breaks R392. -/
def Mod.extentBad (m : Mod) : Bool := decide (7 * m.stripe < m.extent)

/-- The reason for HOLD, 0 for none: 1 SOLO, 2 an operation runs, 4 the extent breaks R392. -/
def Mod.holdReason (m : Mod) : Nat :=
  if m.role = 2 then 1 else if m.ckptPhase ≠ 0 then 2 else if m.extentBad then 4 else 0

/-- At a step boundary the start word goes to the collectives engine; its result is awaited. An extent that breaks R392 raises BAD_EXTENT,
whatever the reason for HOLD is. -/
def Mod.submitStart (m : Mod) (announced t : Nat) : Mod :=
  if !m.is BLB.CFG.ENABLE || m.down 148 || m.outside then m
  else
    let h := m.holdReason
    let m := if m.extentBad then m.raiseBLB 12 0 0 0 (announced - 1) else m
    let word := (m.newestC, m.wantsCkpt (announced - 1) t, h, m.is (BLB.GEN_STAT.DRAINING 0), m.is (BLB.GEN_STAT.DRAINING 1))
    let m := m.readManifests.ckptOf fun c => { c with awaitStart := some announced, annTime := t, word := word }
    m.contributeOwn kStart announced (m.tagFor m.steps.oldest)
      [word.1, word.2.1.toNat, (h != 0).toNat, word.2.2.2.1.toNat, word.2.2.2.2.toNat]

/-- The effective time of the earliest announcement has come; where the step counter advances, the start word follows (R394). -/
def Mod.announced (m : Mod) : Mod :=
  match m.vine.anns with
  | [] => m
  | (s, _, t) :: _ =>
    let up := decide (m.vine.step < s)
    let m := if m.ckpt.order = 0 then m.ckptOf fun c => { c with tag := m.tagFor (s - 1) } else m
    let m := m.stepBoundary
    if up then m.submitStart s t else m

/-- A checkpoint of the step before the announced one starts as number `c`: a PREPARED manifest of the number before it becomes
COMMITTED, and the manifest is written WRITING. Of the shard digests those that came with the tag of a later step are of this attempt:
one is sent once step k is checked, and before its start no module had begun the step after (R396). -/
def Mod.startCkpt (m : Mod) (c announced : Nat) : Mod :=
  let k := announced - 1
  let m := m.readManifests
  let old := m.manifest (c + 1)
  let m := if manState old = 2 ∧ manC old + 1 = c ∧ manJob old = m.job then m.setManState (c + 1) 3 else m
  let m := m.ckptOf fun x => { x with
    c := c, step := k, tag := if k < m.steps.oldest then x.tag else m.tagFor k, start := x.annTime, order := 2, copyPos := 0, written := []
    now := false, slices := [], shas := x.shas.filter fun s => decide (8 * c ≤ s.1) && decide (k < s.2.1) }
  let m := ((m.mendGen (c % 2)).sets [(BLB.STAT.PHASE, 1), (BLB.STAT.GEN, c % 2)]).hubStart 148 c 1 m.ckpt.tag
  m.putManifest c (m.makeManifest 1 m.ckpt.tag k c 0 m.ckpt.annTime [] fun _ => [])

/-- A checkpoint that is wanted and cannot start is deferred. -/
def Mod.deferCkpt (m : Mod) (c reason step : Nat) : Mod :=
  (m.count BLB.SN_DEFER_LO.o 1).raiseBLB 3 c reason (c % 2) step

/-- A wanted checkpoint that some module holds off is deferred. Where only another module holds, which of the reasons 1, 2 and 4 applies
is a free choice, since the result gives one bit for all of them. -/
def Mod.heldOff (m : Mod) (c step : Nat) : Mod :=
  let own := m.ckpt.word.2.2.1
  if own ≠ 0 then m.deferCkpt c own step
  else
    let (m, n) := m.fresh
    m.deferCkpt c ([1, 2, 4].getD (Config.freeNat n % 3) 1) step

/-- The slice-wide result of the start words of announced step `b` is held: the checkpoint starts, or is deferred (R395). -/
def Mod.startTaken (m : Mod) (b : Nat) (l : List (List Nat)) : Mod :=
  let c := maxAll (column l 0) + 1
  let m := (m.smallTaken kStart b).ckptOf fun x => { x with awaitStart := none }
  if orAll (column l 1) = 0 ∨ m.sliceSize % 8 ≠ 0 then m
  else if orAll (column l 2) ≠ 0 then m.heldOff c (b - 1)
  else if orAll (column l (3 + c % 2)) ≠ 0 then m.deferCkpt c 3 (b - 1)
  else m.startCkpt c b

/-- What the start words that the module awaits come to: the checkpoint they name, whether one is wanted, whether one is held off, and
whether set 0 or set 1 is being drained. -/
def Mod.startHeld (m : Mod) : Option (Word × Bool × Bool × Bool × Bool) :=
  m.ckpt.awaitStart.bind fun b => (m.gathered kStart b).map fun l =>
    (BitVec.ofNat 32 (maxAll (column l 0) + 1), orAll (column l 1) != 0, orAll (column l 2) != 0, orAll (column l 3) != 0,
      orAll (column l 4) != 0)

/-- The result of the start words that the module awaits, once it holds them all. -/
def Mod.startResult (m : Mod) : Mod :=
  match m.ckpt.awaitStart with
  | none => m
  | some b => match m.gathered kStart b with
    | none => m
    | some l => m.startTaken b l

/-! ## Copy, digests and parity (R396–R399) -/

/-- The checkpoint's copy starts once its step is checked. -/
def Mod.copyStart (m : Mod) : Mod :=
  if m.ckpt.order = 2 ∧ m.ckptPhase = 1 ∧ m.ckpt.step < m.steps.oldest then m.set BLB.STAT.PHASE 2 else m

/-- A CKPT packet to a member. It belongs to no attempt of a step, and bears the tag of the oldest unchecked one, which no receiver drops
(R353). -/
def Mod.ckptSend (m : Mod) (dest typ info : Nat) (payload : List Byte) : Mod :=
  m.sendTo dest (m.tagFor m.steps.oldest) clsCKPT typ info payload

/-- The seven other members. -/
def Mod.others (m : Mod) : List Nat := (List.range 8).filter (· != m.gpos)

/-- The module submits its COMPLETE: 1 with the manifest PREPARED, 0 when it has aborted (R396). -/
def Mod.voteCommit (m : Mod) (ok : Bool) : Mod :=
  let m := m.ckptOf fun x => { x with order := if ok then 6 else 7, slices := if ok then x.slices else x.slices.filter (·.rebuild) }
  (m.set BLB.STAT.PHASE 4).contributeOwn kCommit m.ckpt.c (m.tagFor m.steps.oldest) [ok.toNat]

/-- The shard digest is formed and sent to the seven other members (R396, R398). -/
def Mod.sendSha (m : Mod) (mem : Tbl Byte) : Mod :=
  let d := shardDigest (m.genBytes mem m.ckpt.c)
  let m := m.ckptOf fun x => { x with order := 4, shas := x.shas ++ [(8 * x.c + m.gpos, m.steps.oldest, d)] }
  let m := (m.set BLB.STAT.PHASE 3).progress 148
  m.others.foldl (fun m p => m.ckptSend (m.member p) 4 m.ckpt.c (d ++ leBytes 1 m.gpos ++ List.replicate 15 0)) m

/-- The copy ends: the shard digest is formed and sent to the seven other members. It waits for a unit that has to be fetched; a
unit of the new generation that cannot be read back damages it, and the module aborts. -/
def Mod.copyEnd (m : Mod) : Mod :=
  if m.ckpt.order ≠ 2 ∨ m.ckptPhase ≠ 2 then m
  else
    let m := m.copyState
    if m.ckpt.copyPos < m.extent then m
    else match m.readGen m.ckpt.c false with
      | (m, _, false) => m.voteCommit false
      | (m, mem, true) => m.sendSha mem

/-- A SHA packet of a member: it takes the place of one that an earlier attempt at the same number left. One of an earlier attempt than
the running one is ignored. -/
def Mod.takeSha (m : Mod) (p : Pkt) : Mod :=
  let c := infoOf p % 2 ^ 32
  let k := 8 * c + payNat p 48 1 % 8
  let s := m.tagStep (tagOf p)
  if !m.is BLB.CFG.ENABLE ∨ (m.ckpt.order ≠ 0 ∧ c = m.ckpt.c ∧ s ≤ m.ckpt.step) then m
  else m.ckptOf fun x => { x with shas := (x.shas.filter (·.1 != k)) ++ [(k, s, p.payload.take 48)] }

/-- The shard digest of a position for checkpoint `c`. -/
def Mod.shaOf (m : Mod) (c p : Nat) : List Byte := ((m.ckpt.shas.find? (·.1 == 8 * c + p)).map (·.2.2)).getD []

/-- Whether a rebuild of another member's shard is under way here (R405). -/
def Mod.rebuilding (m : Mod) : Option Nat :=
  match m.ckpt.lacking with
  | some p => if m.ckpt.cand.isSome ∧ p ≠ m.gpos then some p else none
  | none => none

/-- Members that answer a slice: all others, and in a rebuild all but the one that lacks its shard. -/
def Mod.answerers (m : Mod) (s : Slice) : List Nat :=
  if s.rebuild then m.others.filter fun p => m.ckpt.lacking != some p else m.others

/-- The checkpoint number a slice serves. -/
def Mod.sliceC (m : Mod) (s : Slice) : Nat := if s.rebuild then m.ckpt.cand.getD 0 else m.ckpt.c

/-- A parity slice starts under the parity budget: PULL to the other members. During a rebuild it is a pull of R405, under the same
budget. -/
def Mod.openSlice (m : Mod) (n : Nat) : Mod :=
  let re := m.rebuilding.isSome
  if m.sliceCount ≤ n || (m.ckpt.slices.any (·.n == n)) || decide (4 ≤ m.ckpt.slices.length) || m.down 148 then m
  else if (!re && m.ckpt.order != 4) || m.ckpt.written.contains n || m.budget 3 == 0 then m
  else
    let s : Slice := ⟨n, [], [], re⟩
    let c := m.sliceC s
    let m := m.ckptOf fun x => { x with slices := x.slices ++ [s] }
    (m.answerers s).foldl (fun m p =>
      m.ckptSend (m.member p) 0 c (leBytes 4 n ++ leBytes 1 m.gpos ++ leBytes 1 (c % 2) ++ List.replicate 10 0)) m

/-- INFO of a data packet (R410): module, generation, area, offset in 16-byte units. -/
def dataInfo (module gen area off : Nat) : Nat := module + 2 ^ 13 * (gen % 2) + 2 ^ 14 * area + 2 ^ 16 * (off / 16)
def infoModule (i : Nat) : Nat := i % 8192
def infoGen (i : Nat) : Nat := bits i 13 13
def infoArea (i : Nat) : Nat := bits i 14 14
def infoOff (i : Nat) : Nat := 16 * (i / 2 ^ 16)

/-- How many bytes of the slice at offset `o` of a generation lie below the extent; the rest is read as zero (R392), and no packet carries
it (R410). -/
def Mod.sliceBytes (m : Mod) (o : Nat) : Nat := min sliceLen (m.extent - o)

/-- Bytes sent to a member as PART packets. -/
def Mod.sendParts (m : Mod) (dest typ module gen area off : Nat) (bs : List Byte) : Mod :=
  ((pieces 256 ((bs.length + 255) / 256) bs).zipIdx).foldl (fun m x =>
    m.ckptSend dest typ (dataInfo module gen area (off + 256 * x.2)) x.1) m

/-- Whether this module can answer a PULL for checkpoint `c`: its copy is complete, or its manifest of that number is. -/
def Mod.pullReady (m : Mod) (c : Nat) : Bool :=
  (m.ckpt.c == c && decide (4 ≤ m.ckpt.order)) || (manC (m.manifest c) == c && decide (2 ≤ manState (m.manifest c)))

/-- A PULL is answered with PART, ZERO or NOT_READY (R399). Only bytes below the extent are read and sent. -/
def Mod.takePull (m : Mod) (p : Pkt) : Mod :=
  let c := infoOf p % 2 ^ 32
  let n := payNat p 0 4
  let j := payNat p 4 1 % 8
  let o := stripeOf m.gpos j * m.stripe + n * sliceLen
  let refuse (m : Mod) (bad : Bool) : Mod := m.ckptSend (srcOf p) 3 (c + 2 ^ 32 * bad.toNat) []
  if m.down 148 then m
  else
    let m := m.readManifests
    if !m.pullReady c ∨ m.sliceCount ≤ n then refuse m false
    else if m.is (BLB.GEN_STAT.DAMAGED (c % 2)) then refuse m true
    else if m.extent ≤ o then m.ckptSend (srcOf p) 2 (dataInfo m.id c 0 o) []
    else match m.load byCkpt (m.genBase c + o) (m.sliceBytes o) with
      | (m, none) => refuse m true
      | (m, some bs) => (m.sendParts (srcOf p) 1 m.id c 0 o bs).progress 148

/-- PROTO (R410): a data packet that fits no operation of the receiver. -/
def Mod.protoError (m : Mod) (p : Pkt) : Mod := m.raiseBLB 13 m.ckpt.c 0 (infoGen (infoOf p)) 0

/-- Parts of a slice joined from its start up to the first gap: bytes that came twice count once. -/
def joinedParts (l : List (Nat × List Byte)) : List Byte :=
  (l.mergeSort fun a b => decide (a.1 ≤ b.1)).foldl (fun acc x => if x.1 ≤ acc.length then acc ++ x.2.drop (acc.length - x.1) else acc) []

/-- The 1 MiB that a member sent for a slice of which `need` bytes lie below the extent, zero above; none until it is all there. -/
def sliceData (s : Slice) (p need : Nat) : Option (List Byte) :=
  if s.zeros.contains p then some (List.replicate sliceLen 0)
  else if need = 0 then none
  else
    let bs := joinedParts ((s.parts.filter (·.1 == p)).map (·.2))
    if need ≤ bs.length then some (bs.take need ++ List.replicate (sliceLen - need) 0) else none

/-- Where the slice's bytes of the member at position `p` lie in that member's generation. -/
def Mod.sliceAt (m : Mod) (s : Slice) (p : Nat) : Nat := stripeOf p m.gpos * m.stripe + s.n * sliceLen

def xorBytes (a b : List Byte) : List Byte := List.zipWith (· ^^^ ·) a b

/-- A slice whose answers are complete is written into the fragment, or in a rebuild joined with the own fragment and sent on (R405). -/
def Mod.sliceDone (m : Mod) (s : Slice) : Mod :=
  let ds := (m.answerers s).map fun p => sliceData s p (m.sliceBytes (m.sliceAt s p))
  if ds.any Option.isNone then m
  else
    let x := (ds.map fun d => d.getD []).foldl xorBytes (List.replicate sliceLen 0)
    let m := m.ckptOf fun y => { y with slices := y.slices.filter (·.n != s.n) }
    if s.rebuild then
      match m.ckpt.lacking with
      | none => m
      | some l =>
        match m.load byCkpt (m.fragBase (m.sliceC s) + s.n * sliceLen) sliceLen with
        | (m, none) => m
        | (m, some f) =>
          let o := m.sliceAt s l
          let m := m.sendParts (m.member l) 1 (m.member l) (m.sliceC s) 0 o ((xorBytes x f).take (m.sliceBytes o))
          let m := (m.ckptOf fun y => { y with written := y.written ++ [s.n] }).progress 148
          if m.ckpt.written.length = m.sliceCount then m.count BLB.SN_REBUILT_LO.o 1 else m
    else
      match m.store byCkpt (m.fragBase m.ckpt.c + s.n * sliceLen) x with
      | (m, true) => ((m.ckptOf fun y => { y with written := y.written ++ [s.n] }).count BLB.SN_SLICES_LO.o 1).progress 148
      | (m, false) => m

/-- A restore ends with a status; what it leaves behind is forgotten with it. -/
def Mod.restoreOver (m : Mod) (status : Nat) : Mod :=
  (m.hubEnd 148 (m.ckpt.cand.getD 0) 2 0 status).ckptOf fun x => { x with
    cand := none, lacking := none, rebuilt := [], written := [], slices := x.slices.filter fun s => !s.rebuild }

/-- A restore ends without a result. -/
def Mod.restoreFail (m : Mod) : Mod :=
  let c := m.ckpt.cand.getD 0
  let m := m.dropSmalls fun kind _ => kind == kCand || kind == kRound
  let m := m.restoreOver 1
  (m.sets [(BLB.STAT.PHASE, 0), (BLB.RS_STAT.BUSY, 0)]).raiseBLB 7 c 0 (c % 2) 0

/-- A data packet with an offset beyond the extent aborts the operation it is for: the restore, or the checkpoint that has not yet voted
(R410). -/
def Mod.abortData (m : Mod) (p : Pkt) : Mod :=
  let m := m.protoError p
  if m.ckptPhase = 5 then m.restoreFail else if m.ckpt.order = 4 then m.voteCommit false else m

/-- Stripes of this module's own shard that arrive in a rebuild (R405). -/
def Mod.takeRebuilt (m : Mod) (p : Pkt) : Mod :=
  let i := infoOf p
  let o := infoOff i
  if m.extent < o + p.payload.length then m.abortData p
  else
    match m.store byCkpt (m.genBase (infoGen i) + o) p.payload with
    | (m, true) => m.ckptOf fun x => { x with rebuilt := joinRange x.rebuilt (0, o, o + p.payload.length) }
    | (m, false) => m.restoreFail

/-- The open slice that a data packet from position `i` belongs to, with the offset in the slice. A packet that was sent before the
running checkpoint's step was checked belongs to an earlier attempt. -/
def Mod.sliceFor (m : Mod) (i : Nat) (p : Pkt) : Option (Slice × Nat) :=
  let base := stripeOf i m.gpos * m.stripe
  let o := infoOff (infoOf p)
  if o < base then none
  else (m.ckpt.slices.find? fun s => s.n == (o - base) / sliceLen && infoGen (infoOf p) == m.sliceC s % 2 &&
      (s.rebuild || decide (m.ckpt.step < m.tagStep (tagOf p)))).map fun s =>
    (s, (o - base) % sliceLen)

/-- Whether parity data can be wanted here: a checkpoint is at its parity, or a rebuild runs. -/
def Mod.parityRuns (m : Mod) : Bool := m.ckpt.order == 4 || m.ckpt.order == 6 || m.ckpt.order == 7 || m.rebuilding.isSome

/-- Slice data of a group position; data of a slice that has been dropped is ignored. A packet for no operation, or that reaches beyond
`bound`, is PROTO and aborts the checkpoint (R410). -/
def Mod.sliceAnswer (m : Mod) (p : Pkt) (bound : Nat) (f : Nat → Nat → Slice → Slice) : Mod :=
  let i := infoOf p
  match m.posOf (infoModule i) with
  | none => m.protoError p
  | some pos =>
    if !m.parityRuns then m.protoError p
    else if infoArea i ≠ 0 ∨ bound < infoOff i + p.payload.length then m.abortData p
    else match m.sliceFor pos p with
      | none => m
      | some (s, o) =>
        let s' := f pos o s
        let m := m.ckptOf fun x => { x with slices := x.slices.map fun y => if y.n = s.n then s' else y }
        m.sliceDone s'

/-- Whether this module's own shard is being rebuilt by the others (R405). -/
def Mod.isRebuilt (m : Mod) : Bool := m.ckpt.lacking == some m.gpos && m.ckpt.cand.isSome

/-- A PART packet delivers slice data, or a stripe of this module's own shard in the generation that is being rebuilt. -/
def Mod.takePart (m : Mod) (p : Pkt) : Mod :=
  let i := infoOf p
  if infoModule i = m.id then
    if m.isRebuilt ∧ infoArea i = 0 ∧ infoGen i = m.ckpt.cand.getD 0 % 2 then m.takeRebuilt p else m.protoError p
  else m.sliceAnswer p m.extent fun pos o s => { s with parts := s.parts ++ [(pos, o, p.payload)] }

/-- A ZERO packet marks an answer of zeros; the slice that it names lies at or beyond the extent, and ends with the last stripe. -/
def Mod.takeZero (m : Mod) (p : Pkt) : Mod :=
  m.sliceAnswer p (8 * m.stripe) fun pos _ s => { s with zeros := s.zeros ++ [pos] }

/-- A NOT_READY ends the slice that asked its sender; with DAMAGED the owner aborts the checkpoint. A slice that ends is run again
later. The packet names the checkpoint and not the slice: it ends the oldest open slice that its sender has not answered. -/
def Mod.takeNotReady (m : Mod) (p : Pkt) : Mod :=
  match m.posOf (srcOf p) with
  | none => m
  | some pos =>
    match m.ckpt.slices.find? fun s => m.sliceC s == infoOf p % 2 ^ 32 && !s.zeros.contains pos && !s.parts.any (·.1 == pos) with
    | none => m
    | some s =>
      let m := (m.ckptOf fun x => { x with slices := x.slices.filter (·.n != s.n) }).count BLB.SN_SLICE_RETRY_LO.o 1
      if (infoOf p).testBit 32 then
        if s.rebuild then m.restoreFail else m.voteCommit false
      else m

/-- Orders 6 and 7 of R396: with the fragment written and every SHA there, the manifest becomes PREPARED and the module votes. -/
def Mod.ckptFlow (m : Mod) : Mod :=
  if m.ckpt.order ≠ 4 ∨ m.ckpt.written.length < m.sliceCount ∨
      !((List.range 8).all fun p => m.ckpt.shas.any (·.1 == 8 * m.ckpt.c + p)) then m
  else
    let c := m.ckpt.c
    match m.readGen c true with
    | (m, _, false) => m.voteCommit false
    | (m, mem, true) =>
      (m.putManifest c (m.makeManifest 2 m.ckpt.tag m.ckpt.step c (m.genState mem c) m.ckpt.start (shardDigest (m.fragBytes mem c))
        (m.shaOf c))).voteCommit true

/-- The checkpoint is over with a status, 0 for committed; the interlock of R26 is released. -/
def Mod.endCkpt (m : Mod) (status : Nat) : Mod :=
  ((m.hubEnd 148 m.ckpt.c 1 m.ckpt.tag status).ckptOf fun x => { x with order := 0, slices := x.slices.filter (·.rebuild), written := [] }).set BLB.STAT.PHASE 0

/-- The AND of COMPLETE over the slice is held (R396). -/
def Mod.commitTaken (m : Mod) (complete : Bool) : Mod :=
  let k := m.ckpt
  let m := m.dropSmalls fun kind _ => kind == kCommit
  if k.order = 6 ∧ complete then
    (((m.setManState k.c 3).endCkpt 0).count BLB.SN_DONE_LO.o 1).raiseBLB 1 k.c 0 (k.c % 2) k.step
  else ((m.endCkpt 1).count BLB.SN_FAIL_LO.o 1).raiseBLB 2 k.c (if k.order = 7 then 2 else 1) (k.c % 2) k.step

/-- The AND of COMPLETE that the commit vote returns with. -/
def Mod.commitHeld (m : Mod) : Option Bool := (m.gathered kCommit m.ckpt.c).map fun l => (column l 0).all (· == 1)

/-- The commit vote returns, once every module's COMPLETE is held. -/
def Mod.commitResult (m : Mod) : Mod :=
  if m.ckpt.order ≠ 6 ∧ m.ckpt.order ≠ 7 then m
  else match m.gathered kCommit m.ckpt.c with
    | none => m
    | some l => m.commitTaken ((column l 0).all (· == 1))

/-- A checkpoint that runs is aborted (R400). -/
def Mod.abortCkpt (m : Mod) : Mod :=
  let k := m.ckpt
  if k.order = 0 then m
  else (((m.dropSmalls fun kind _ => kind == kCommit).endCkpt 1).count BLB.SN_FAIL_LO.o 1).raiseBLB 4 k.c 0 (k.c % 2) k.step

/-! ## Restore (R403–R406) -/

/-- Whether a manifest's own digest, identity and state let its generation be valid (R403). -/
def Mod.manGood (m : Mod) (b : List Byte) : Bool :=
  let body := b.take 976
  let s := manState b
  sha384 (body.take 2 ++ [0] ++ body.drop 3) == b.drop 976 && manJob b == m.job && dfield b 4 2 == m.f BLB.IDENT.ID &&
    dfield b 32 2 == m.f CFG.LAYOUT.S_GIB && dfield b 28 4 == m.f UPD.EXTENT.UNITS && decide (2 ≤ s) && decide (s ≤ 4)

/-- A generation is judged (R403): a unit that cannot be read leaves it invalid and damaged. -/
def Mod.judgeGen (m : Mod) (g : Nat) : Mod × Bool :=
  let b := m.manifest g
  if !m.manGood b || m.is (BLB.GEN_STAT.DAMAGED g) then (m, false)
  else
    let r := m.readGen g false
    (r.1, r.2.2 && shardDigest (m.genBytes r.2.1 g) == manShard b (dfield b 3 1 % 8))

/-- The valid generation that holds number `c`. -/
def Mod.validFor (m : Mod) (c : Nat) : Option Nat :=
  [0, 1].find? fun g => (if g = 0 then m.ckpt.valid0 else m.ckpt.valid1) && manC (m.manifest g) == c

/-- The largest number held in a valid generation, at or below `RS_C` and below every candidate refused; 0 when there is none. -/
def Mod.ownCandidate (m : Mod) : Nat :=
  let w := (m.rd BLB.RS_C.o).toNat
  (([0, 1].filter fun g => m.validFor (manC (m.manifest g)) == some g).map fun g => manC (m.manifest g)).foldl (fun a c =>
    if (w = 0 ∨ c ≤ w) ∧ m.ckpt.refused.all (fun r => decide (c < r)) then max a c else a) 0

/-- The round that runs: one for each candidate refused before. -/
def Mod.round (m : Mod) : Nat := m.ckpt.refused.length

/-- The module's candidate of the running round goes to the slice-wide maximum (R404). -/
def Mod.offerCandidate (m : Mod) : Mod := m.contributeOwn kCand m.round (m.tagFor m.steps.oldest) [m.ownCandidate]

/-- A restore starts by judging both generations. -/
def Mod.restoreGo (m : Mod) : Mod :=
  let m := m.abortCkpt.readManifests
  let (m, v0) := m.judgeGen 0
  let (m, v1) := m.judgeGen 1
  let m := (m.hubStart 148 (m.rd BLB.RS_C.o).toNat 2 0).ckptOf fun x => { x with
    valid0 := v0, valid1 := v1, refused := [], cand := none, lacking := none, rebuilt := [], written := [], slices := [] }
  (m.sets [(BLB.STAT.PHASE, 5), (BLB.RS_STAT.BUSY, 1), (BLB.RS_STAT.REBUILT, 0)]).offerCandidate

/-- The slice-wide candidate of the running round, once it is held; 0 when none remains. -/
def Mod.roundCand (m : Mod) : Option Nat := (m.gathered kCand m.round).map fun l => maxAll (column l 0)

/-- Whether the fragment of a generation can be read and has the digest that its manifest names. -/
def Mod.fragGood (m : Mod) (g : Nat) : Mod × Bool :=
  let r := m.see byCkpt [(m.fragBase g, m.stripe)]
  (r.1, r.2.2 && shardDigest (m.fragBytes r.2.1 g) == ((m.manifest g).drop 64).take 48)

/-- What the module submits on candidate `c`: its group, 1 when it lacks a valid shard, or a valid fragment of a set that was not
imported, `SEEN`, and the step of its manifest for `c` where it has one, be the generation valid or not (R404). -/
def Mod.roundWord (m : Mod) (c : Nat) : Mod × List Nat :=
  let m := m.readManifests
  let b := m.manifest c
  let s := manState b
  let (m, ok) := match m.validFor c with
    | none => (m, false)
    | some g => if s = 4 then (m, true) else m.fragGood g
  let has := m.manFor c
  (m, [m.f BLB.GROUP.ID, (!ok).toNat, (has && (s == 3 || s == 4)).toNat, has.toNat, if has then manStep b else 0])

/-- Whether the words on the running round's candidate are still to be submitted. -/
def Mod.roundDue (m : Mod) : Bool :=
  m.ckptPhase == 5 && m.ckpt.cand.isNone && !(m.coll.own.any fun c => c.kind == kRound && c.inst == m.round) &&
    m.roundCand.any (· != 0)

/-- The words on a candidate follow once the candidate is known. -/
def Mod.roundFlow (m : Mod) : Mod :=
  if !m.roundDue then m
  else
    let (m, w) := m.roundWord (m.roundCand.getD 0)
    m.contributeOwn kRound m.round (m.tagFor m.steps.oldest) w

/-- A candidate is refused: the next round follows. -/
def Mod.refuseCand (m : Mod) (c : Nat) : Mod := (m.ckptOf fun x => { x with refused := x.refused ++ [c] }).offerCandidate

/-- The modules that lack their shard of the candidate, with their words on it. -/
def Mod.roundLacks (m : Mod) (ws : List (List Nat)) : List (Nat × List Nat) :=
  ((m.asked kRound).zip ws).filter fun x => x.2.getD 1 0 != 0

/-- The steps of the manifests that the modules have. -/
def roundSteps (ws : List (List Nat)) : List Nat := (ws.filter fun w => w.getD 3 0 == 1).map fun w => w.getD 4 0

/-- How many members of each group lack their shard. -/
def Mod.roundTotals (m : Mod) (ws : List (List Nat)) : List Nat :=
  ((ws.map fun w => w.getD 0 0).dedup).map fun g => countB ((m.roundLacks ws).map fun x => x.2.getD 0 0 == g)

/-- The position of the member of the own group that lacks its shard. -/
def Mod.roundLacking (m : Mod) (ws : List (List Nat)) : Option Nat :=
  ((m.roundLacks ws).find? fun x => x.2.getD 0 0 == m.f BLB.GROUP.ID).bind fun e => m.posOf e.1

/-- Whether the set of candidate `c` was imported. Of a set of which this module has no manifest it is a free choice (log entry 69). -/
def Mod.importedFor (m : Mod) (c : Nat) : Bool :=
  if m.manFor c then manState (m.manifest c) == 4 else Config.freeNat m.free % 2 == 1

/-- Whether the words of every module accept candidate `c` (R404): some module has SEEN it, all steps are equal and every group's total
is within its limit. -/
def Mod.roundGood (m : Mod) (c : Nat) (ws : List (List Nat)) (totals : List Nat) : Bool :=
  orAll (column ws 2) != 0 && ((roundSteps ws).all fun a => (roundSteps ws).all (· == a)) &&
    totals.all fun t => decide (t ≤ if m.importedFor c then 0 else 1)

/-- The words of every module on candidate `c`, in the order of `asked`, decide, with the own manifests read again. The member of the own
group that lacks its shard is rebuilt (R405). -/
def Mod.judgeRound (m : Mod) (c : Nat) (ws : List (List Nat)) : Mod :=
  let r := m.readManifests
  let t := r.fresh.1
  if r.roundGood c ws (m.roundTotals ws) then t.ckptOf fun x => { x with cand := some c, lacking := m.roundLacking ws, rebuilt := [] }
  else t.refuseCand c

/-- What a round returns with: the candidate, whether a module has seen it, whether all steps are equal, how many members of each group
lack their shard, and which of the own group; with candidate 0 none remains. -/
def Mod.roundHeld (m : Mod) : Option (Word × Bool × Bool × List Nat × Option (Fin 8)) :=
  m.roundCand.bind fun c =>
    if c = 0 then some (0, false, false, [], none)
    else (m.gathered kRound m.round).map fun ws =>
      (BitVec.ofNat 32 c, orAll (column ws 2) != 0, (roundSteps ws).all fun a => (roundSteps ws).all (· == a), m.roundTotals ws,
        (m.roundLacking ws).map (Fin.ofNat 8))

/-- The result of a round (R404): the candidate is accepted, or refused and the next round follows; with no candidate left the restore
fails. -/
def Mod.restoreRound (m : Mod) : Mod :=
  if m.ckptPhase ≠ 5 ∨ m.ckpt.cand.isSome then m
  else match m.roundCand with
    | none => m
    | some 0 => m.restoreFail
    | some c => match m.gathered kRound m.round with
      | none => m
      | some ws => m.judgeRound c ws

/-- The rebuilt shard is checked against the manifest of a valid group member, and its manifest written from that member's fields (R405).
The member's own state digest, position and fragment digest cannot be this module's: those fields are its own. Its fragment is not needed:
one that cannot be read has no digest here. -/
def Mod.acceptRebuilt (m : Mod) (c : Nat) (man : List Byte) : Mod × Bool :=
  let whole := m.ckpt.rebuilt.any fun r => r.2.1 == 0 && decide (m.extent ≤ r.2.2)
  match m.readGen c false with
  | (m, mem, ok) =>
    if !ok ∨ !whole ∨ shardDigest (m.genBytes mem c) ≠ manShard man m.gpos then (m, false)
    else
      let own := m.genState mem c
      let (m, frag, read) := m.see byCkpt [(m.fragBase c, m.stripe)]
      let b := m.makeManifest 3 (dfield man 6 2) (manStep man) c own (manStart man)
        (if read then shardDigest (m.fragBytes frag c) else []) (manShard man)
      (((m.putManifest c b).set BLB.RS_STAT.REBUILT 1).mendGen (c % 2), true)

/-- The step bookkeeping after a restore of step `k`: step k + 1 is the next, and nothing of any step is left, so that no tag
stays closed (log entry 54). -/
def Mod.restoredTo (m : Mod) (k : Nat) : Mod :=
  let m := (m.discard 0).dropSmalls fun kind _ => kind == kCand || kind == kRound || kind == kStart
  -- a fetch that could not be served goes with the content it was for (R272)
  let m := (m.mside fun x => { x with fetches := [], updated := [] }).ckptOf fun x => { x with awaitStart := none }
  let m := m.dupOf fun d => { d with sentDigest := false, recheck := false, passBefore := none }
  let m := m.stepsOf fun s => { s with
    oldest := k + 1, attempts := [], begun := [], six := [], submitted := [], held := [], healthOk := [], failed := none, again := none
    rerun := none, nextFault := none, tags := [], closed := [], released := k + 1 }
  let m := m.vineOf fun v => { v with step := k + 1, checked := k + 1 }
  -- the tags of the steps after k begin anew, and with them their numbering (R301)
  let m := { m with router := { m.router with seqs := [] } }
  let m := m.hltOf fun h => { h with quiet := [], mquiet := [], skips := [] }
  let m := m.updOf fun u => { u with writes := [], ownDone := false, mirDone := false }
  (((m.setStepRegs k 0).setRing true m.ledger.mBase []).resetTrackers fun _ => true).ldg fun l => { l with fullSteps := [] }

/-- The own training state takes the generation of checkpoint `c` as read in `mem`, when its digest is the manifest's (R406). -/
def Mod.restoredFrom (m : Mod) (c : Nat) (mem : Tbl Byte) : Mod :=
  let e := m.extent
  let g := m.genBase c
  let src := latchOf mem g [(0, e)]
  let m := m.zeroRange 0 e
  let m := ({ m with mem := tmerge m.mem src }).bulkWritten byCkpt [(0, e)]
  let b := m.manifest c
  if regionDigest m.mem 0 e ≠ dfield b 40 16 then m.restoreFail
  else
    let k := manStep b
    let m := m.restoredTo k
    let m := (m.restoreOver 0).sets [(BLB.STAT.PHASE, 0), (BLB.RS_STAT.BUSY, 0), (BLB.RS_GOT.C, c)]
    m.raiseBLB 6 c 0 (c % 2) k

/-- The chosen generation has been copied into the own training state (R406), which follows the rebuild of R405: a member that rebuilds
another's shard has then sent all of its stripe. -/
def Mod.restoreCopied (m : Mod) (man : List Byte) : Mod :=
  match m.ckpt.cand with
  | none => m
  | some c =>
    if m.ckptPhase ≠ 5 ∨ (m.rebuilding.isSome ∧ m.ckpt.written.length < m.sliceCount) then m
    else
      match (if m.ckpt.lacking = some m.gpos then m.acceptRebuilt c man else (m, true)) with
      | (m, false) => m.restoreFail
      | (m, true) =>
        let e := m.extent
        match m.see byCkpt [(m.genBase c, e)] with
        | (m, _, false) => m.restoreFail
        | (m, mem, true) =>
          m.readManifests.restoredFrom c mem

/-! ## Drain, import and the bridge's relay (R407–R409) -/

/-- A drain starts, of the generation that the write names, with its fragment where that is asked for. -/
def Mod.drainGo (m : Mod) : Mod :=
  let g := m.f BLB.DR_CTL.GEN
  ((m.hubStart 148 (m.f (BLB.GEN_C.C g)) 3 0).ckptOf fun x => { x with drainPos := 0, drainGen := g, drainFrag := m.is BLB.DR_CTL.FRAG }).sets
    [(BLB.STAT.DRAIN, 1), (BLB.GEN_STAT.DRAINING g, 1)]

/-- A drain ends with an event, or with none when the run-time ended it. -/
def Mod.drainEnd (m : Mod) (code : Option Nat) : Mod :=
  if !m.is BLB.STAT.DRAIN then m
  else
    let g := m.ckpt.drainGen
    let m := (m.sets [(BLB.STAT.DRAIN, 0), (BLB.GEN_STAT.DRAINING 0, 0), (BLB.GEN_STAT.DRAINING 1, 0)]).hubEnd 148 (m.f (BLB.GEN_C.C g)) 3 0
      (if code = some 8 then 0 else 1)
    match code with
    | some c => let m := m.readManifests
      m.raiseBLB c (m.f (BLB.GEN_C.C g)) 0 g (manStep (m.manifest g))
    | none => m

/-- What a drain sends, in order, as (area, offset, length). -/
def Mod.drainPlan (m : Mod) : List (Nat × Nat × Nat) :=
  [(0, 0, m.extent)] ++ (if m.ckpt.drainFrag then [(1, 0, m.stripe)] else []) ++ [(0, m.sizeS - 4096, 1024)]

/-- The next EXPORT packet to the bridge; DRAIN_DONE after the manifest. -/
def Mod.drainSend (m : Mod) : Mod :=
  if !m.is BLB.STAT.DRAIN then m
  else
    let g := m.ckpt.drainGen
    match planAt m.drainPlan m.ckpt.drainPos with
    | none => m.drainEnd (some 8)
    | some (area, o, n) =>
      match m.load byCkpt ((if area = 0 then m.genBase g else m.fragBase g) + o) n with
      | (m, none) => m.drainEnd (some 9)
      | (m, some bs) =>
        let m := m.sendTo (m.f TOR.BRIDGE.ID) (m.tagFor m.steps.oldest) clsCKPT 5 (dataInfo m.id g area o) bs
        let q := m.ckpt.drainPos + 1
        let m := ((m.ckptOf fun x => { x with drainPos := q }).count BLB.SN_EXPORT_LO.o n).progress 148
        if (planAt m.drainPlan q).isNone then m.drainEnd (some 8) else m

/-- An EXPORT is relayed by the bridge to its host adapter. -/
def Mod.takeExport (m : Mod) (p : Pkt) : Mod :=
  if m.bridging then m.sendOut 7 (m.peer 7) (tagOf p) clsCKPT 5 (infoOf p) p.payload else m.protoError p

/-- The generation of an import begins as WRITING; the number and the step are those of this moment. -/
def Mod.importBegin (m : Mod) : Mod :=
  let c := (m.rd BLB.IM_C.o).toNat
  let k := m.pair48 BLB.IM_STEP_LO.o BLB.IM_STEP_HI.o
  let m := (((m.hubStart 148 c 4 0).ckptOf fun x => { x with impC := c, impStep := k }).mendGen (c % 2)).sets [(BLB.STAT.PHASE, 6), (BLB.STAT.GEN, c % 2)]
  m.putManifest c (m.makeManifest 1 (m.tagFor k) k c 0 0 [] fun _ => [])

/-- An import ends: the shard digest is formed, and the manifest written IMPORTED. A unit that cannot be read ends it without a result. -/
def Mod.importDone (m : Mod) : Mod :=
  let c := m.ckpt.impC
  let k := m.ckpt.impStep
  match m.readGen c false with
  | (m, _, false) => ((m.set BLB.STAT.PHASE 0).hubEnd 148 c 4 0 1).raiseBLB 11 c 0 (c % 2) k
  | (m, mem, true) =>
    let d := shardDigest (m.genBytes mem c)
    let m := m.putManifest c (m.makeManifest 4 (m.tagFor k) k c (m.genState mem c) 0 [] fun p => if p = m.gpos then d else [])
    ((m.set BLB.STAT.PHASE 0).hubEnd 148 c 4 0 0).raiseBLB 10 c 0 (c % 2) k

/-- An import ends without a result; the manifest stays WRITING. -/
def Mod.importEnd (m : Mod) (code : Option Nat) : Mod :=
  if m.ckptPhase ≠ 6 then m
  else
    let c := m.ckpt.impC
    let m := (m.set BLB.STAT.PHASE 0).hubEnd 148 c 4 0 1
    match code with
    | some e => m.raiseBLB e c 0 (c % 2) m.ckpt.impStep
    | none => m

/-- An IMPORT: forwarded by the bridge when its host sent it, written into the generation at its target. -/
def Mod.takeImport (m : Mod) (port : Nat) (p : Pkt) : Mod :=
  let i := infoOf p
  if port = 7 then
    if m.bridging then m.sendTo (infoModule i) (m.tagFor m.steps.oldest) clsCKPT 6 i p.payload else m.protoError p
  else
    let o := infoOff i
    if m.ckptPhase ≠ 6 ∨ infoModule i ≠ m.id ∨ infoGen i ≠ m.f BLB.STAT.GEN ∨ infoArea i ≠ 0 ∨ m.extent < o + p.payload.length then
      (m.protoError p).importEnd none
    else match m.store byCkpt (m.genBase (infoGen i) + o) p.payload with
      | (m, true) => m.progress 148
      | (m, false) => m.importEnd none

/-! ## Meetings (R402) and recovery (R412) -/

/-- A hole-set change ends every operation of the engine. -/
def Mod.ckptHole (m : Mod) : Mod :=
  let m := (m.abortCkpt).drainEnd (some 9)
  let m := m.importEnd (some 11)
  if m.ckptPhase = 5 then m.restoreFail else m

/-- Warm recovery does the same; what NOW asked for and start words are forgotten. -/
def Mod.warmCkpt (m : Mod) : Mod := { m.ckptHole with ckpt := Ckpt.init }

end Sys2Proof.Machine
end

