-- ==== Sys2Proof/Machine/Alias.lean ====
section
/-! DEFINITION. Aliases and the hole-set change (R321–R324, R355, R365–R367, R427), the takeover's and the swap's ALIAS (R371, R375,
R379), the wiring check (R318), the host bridge and its loss ring (R335, R336). -/

namespace Sys2Proof.Machine

/-! ## The wiring check (R318) -/

/-- A torus port that is UP and faces another module than its neighbour is reported. -/
def Mod.wiringCheck (m : Mod) (p : Nat) : Mod :=
  if p < 6 ∧ m.miswired p then m.raiseTOR 1 (m.peer p) p 0 else m

/-! ## Hole-set changes -/

/-- A context's requests to a module in the hole set count as drained (R427). A reply that still comes is late (R176). -/
def Mod.drainHoles (m : Mod) : Mod :=
  let l := m.reqs.filter fun r => m.ctxState r.core r.ctx == 2 && r.kind != 3 && !r.dead && m.holes.contains r.dest
  l.foldl (fun m r =>
    let m := (m.readEnds r).answer r (· == r)
    { m with reqs := m.reqs ++ [{ r with dead := true }] }) m

/-- Unmarked remote COPYs with an acknowledgement outstanding complete with DMA_ADDR (R366). -/
def Mod.dropUnmarked (m : Mod) : Mod :=
  let plain (r : Req) : Bool := r.kind == 0 && r.last && !r.dead && r.dest != m.id && ((m.queue r.core r.q).taken.any fun d =>
    d.num == r.num && hOpcode d.bytes == 0x20 && !(copyDesc d.bytes).mark)
  let l := m.reqs.filter plain
  l.foldl (fun m r => (m.noteStatus r.core r.q r.num 0x43).answer r (covers r)) m

/-- The hole set changes (R324). On every module but the stand-in the oldest unchecked step goes on, and the next is discarded and rewound
once the first is checked (R355); a stand-in takes its own path (R372). Pods of the steps that are not rewound are sent again (R365),
collectives entries rerun, and contributions to internal collectives are sent again (R367). -/
def Mod.holeSetChange (m : Mod) (lost standin : Nat) : Mod :=
  let m := m.ckptHole
  let k := m.steps.oldest
  let m := if standin = m.id then m
    else (m.discard (k + 1)).stepsOf fun s => { s with again := match s.again with | some x => some x | none => some true }
  let m := if standin ≠ m.id ∨ m.dup.finishing ∨ m.steps.failed.any (·.1 == k) then (m.resendPods (k + 1)).collRerun lost standin else m
  (m.resendSmalls.dropUnmarked).drainHoles

/-- A hole-set change that comes while a takeover is under way is handled after the takeover's ALIAS (R376). -/
def Mod.holeChanges (m : Mod) (lost standin : Nat) : Mod :=
  if m.dup.takeover.isSome then m.dupOf fun d => { d with later := d.later ++ [(lost, standin)] } else m.holeSetChange lost standin

/-- An entry of the alias table. -/
def Mod.setAlias (m : Mod) (e lost standin step epoch : Nat) : Mod :=
  m.sets [(TOR.AL_ID.LOST e, lost), (TOR.AL_ID.STANDIN e, standin), (TOR.AL_ID.VALID e, 1), (TOR.AL_STEP_LO.VAL e, step),
    (TOR.AL_STEP_HI.VAL e, step / 2 ^ 32), (TOR.AL_STEP_HI.EPOCH e, epoch)]

/-- An epoch is later than another (R321). -/
def laterEpoch (e h : Nat) : Bool := let d := (e + 65536 - h) % 65536; decide (1 ≤ d) && decide (d ≤ 32767)

/-- When an alias names the bridge, the backup becomes the active bridge with a fresh loss ring (R335, R336). -/
def Mod.bridgeLost (m : Mod) (lost : Nat) : Mod :=
  if lost = m.f TOR.BRIDGE.ID ∧ m.f TOR.BRIDGE.BACKUP = m.id ∧ lost ≠ m.id ∧ !m.is TOR.BRIDGE_STAT.ACTIVE then
    ((m.set TOR.BRIDGE_STAT.ACTIVE 1).setRecords 0).raiseTOR 5 lost 0 0
  else m

/-- The spare that a swap's alias names takes the lost identity at the named step: its queues start that step from the rewind table
given for that identity (R379). Packets of earlier steps go on to its partner (R382). -/
def Mod.swapIn (m : Mod) (lost step : Nat) : Mod :=
  if m.dup.paired ∧ (m.dup.swapping ∨ m.dup.peerRole = 2) ∧ m.role ≠ 2 then
    let m := m.dupOf fun d => { d with
      swapFor := if lost = m.id then none else some lost, passBefore := some (lost, step), peerRole := 1, swapping := false }
    ((m.rewindTo step false).setRole 1).raiseDUP 11 m.dup.peerId 0 step
  else m

/-- The entry of a lost id leaves the table. -/
def Mod.clearAlias (m : Mod) (e : Nat) : Mod := ((m.wr (TOR.AL_ID.o e) 0).wr (TOR.AL_STEP_LO.o e) 0).wr (TOR.AL_STEP_HI.o e) 0

/-- An ALIAS that ends the alias of an id (R321): its epoch is kept, so that a repeat is known. -/
def Mod.endAlias (m : Mod) (lost step epoch : Nat) : Mod :=
  let m := { m with router := { m.router with ended := tset (fun _ => 0) m.router.ended lost (epoch + 1) } }
  let old := m.aliases.find? (·.2.1 == lost)
  let m := match old with | some (e, _, _) => m.clearAlias e | none => m
  let m := if lost = m.id then m.swapIn lost step else m
  if old.isSome then m.holeChanges lost lost else m

/-- Whether an ALIAS that ends an alias comes for the first time here: its epoch is later than the one held (R311, R321). -/
def Mod.endsAnew (m : Mod) (lost epoch : Nat) : Bool :=
  (match m.aliases.find? (·.2.1 == lost) with
    | some (e, _, _) => laterEpoch epoch (m.f (TOR.AL_STEP_HI.EPOCH e))
    | none => true) &&
  (match tget (fun _ => 0) m.router.ended lost with | 0 => true | h + 1 => laterEpoch epoch h)

/-- An ALIAS is entered (R321). The flag says that it was new here and is to be forwarded. -/
def Mod.enterAlias (m : Mod) (lost standin step epoch : Nat) : Mod × Bool :=
  if standin = lost then (if m.endsAnew lost epoch then (m.endAlias lost step epoch, true) else (m, false))
  else match m.aliases.find? (·.2.1 == lost) with
  | some (e, _, _) =>
    if !laterEpoch epoch (m.f (TOR.AL_STEP_HI.EPOCH e)) then (m, false)
    else
      let m := (m.setAlias e lost standin step epoch).bridgeLost lost
      (if standin = m.id then m.swapIn lost step else m, true)
  | none =>
    match (List.range 32).find? fun e => !m.is (TOR.AL_ID.VALID e) with
    | none => (m.raiseTOR 2 lost 0 0, false)
    | some e =>
      let m := (m.setAlias e lost standin step epoch).bridgeLost lost
      let m := m.holeChanges lost standin
      (if standin = m.id then m.swapIn lost step else m, true)

/-- An ALIAS packet: entered, and forwarded on every torus port of the slice but the one it came in on (R323). -/
def Mod.takeAlias (m : Mod) (port : Nat) (p : Pkt) : Mod :=
  match m.enterAlias (payNat p 0 2 % 8192) (payNat p 2 2 % 8192) (payNat p 4 6) (payNat p 10 2) with
  | (m, true) => m.broadcast p (some port)
  | (m, false) => m

/-- The ALIAS packet that this module sends (R307). -/
def Mod.aliasOut (m : Mod) (lost standin step epoch : Nat) : Mod :=
  let (m, p) := m.numbered m.id 0 (m.tagFor m.steps.oldest) clsCTRL 2 1
    (leBytes 2 lost ++ leBytes 2 standin ++ leBytes 6 step ++ leBytes 2 epoch ++ List.replicate 4 0)
  m.broadcast p none

/-! ## Takeover (R371) and swap (R379) -/

/-- The takeover proceeds: the module becomes SOLO, enters the alias, sends it with the plan's epoch, and raises TAKEOVER. Changes of the
hole set that came meanwhile are handled then (R376). -/
def Mod.takeOver (m : Mod) : Mod :=
  match m.dup.takeover with
  | none => m
  | some cause =>
    let lost := m.dup.peerId
    let k := m.steps.oldest
    let m := m.becomeSolo
    let ep := m.f DUP.TKO_EPOCH.EPOCH
    let m := match (List.range 32).find? fun e => !m.is (TOR.AL_ID.VALID e) with
      | some e => (m.setAlias e lost m.id k ep).bridgeLost lost
      | none => m.raiseTOR 2 lost 0 0
    let later := m.dup.later
    let m := ((m.holeSetChange lost m.id).aliasOut lost m.id k ep).raiseDUP 3 lost cause k
    later.foldl (fun m e => m.holeSetChange e.1 e.2) (m.dupOf fun d => { d with later := [] })

/-- The takeover goes on at once when every neighbour has answered (R309). -/
def Mod.takeoverFlow (m : Mod) : Mod :=
  if m.dup.takeover.isSome && m.dup.awaiting.isEmpty then m.takeOver else m

/-- Whether the fill of a swap is complete, so that `SWAP_STEP` names its step. -/
def Mod.swapFilled (m : Mod) : Bool := m.dup.swapping && m.dup.rm == 0 && m.dup.cmpFrom.any (· ≤ m.dup.rmStep + 1)

/-- The STEP_MARK that opens the swap's step (R379): the queue is reloaded from the own table; at the first of them the ALIAS goes out,
the roles change and SWAPPED is raised. -/
def Mod.swapMark (m : Mod) (n q : Nat) : Mod :=
  let b := m.swapStep
  let opened := m.tagStep (m.f (CORE.Q_STAT.GEN n q)) == b
  let reload (m : Mod) : Mod :=
    match m.unitLoad ⟨2, none, 3, 144⟩ (m.pair48 DUP.RW_TBL_LO.o DUP.RW_TBL_HI.o + 16 * (4 * n + q)) 16 with
    | (m, some ent) => (m.rewindQueue n q b ent false).take n q
    | (m, none) => m
  if !opened then m
  else if m.dup.swapAt = some b then reload m
  else if !m.swapFilled ∨ b < m.dup.rmStep + 2 ∨ m.role ≠ 2 then m
  else match m.dup.lostId with
    | none => m
    | some lost =>
      let spare := if m.dup.reversing then lost else m.f DUP.SWAP.SPARE
      let ep := (m.f DUP.TKO_EPOCH.EPOCH + 1) % 65536
      let m := m.dupOf fun d => { d with swapAt := some b, swapping := false, reversing := false, peerRole := 1 }
      let m := (m.setRole 1).set DUP.TKO_EPOCH.EPOCH ep
      let m := (m.enterAlias lost spare b ep).1
      ((reload m).aliasOut lost spare b ep).raiseDUP 11 spare 0 b

/-! ## The host bridge (R335, R336, R360) -/

/-- The input window. -/
def Mod.inWindow (m : Mod) (a n : Nat) : Bool :=
  let b := m.pair48 TOR.IN_BASE_LO.o TOR.IN_BASE_HI.o
  decide (b ≤ a) && decide (a + n ≤ b + m.f TOR.IN_SIZE.UNITS * 0x200000)

/-- A host write into the input window: recorded as a Pod of the local step, written, copied to the partner, and acknowledged at once
only where there is no partner to copy to. -/
def Mod.hostWrite (m : Mod) (p : Pkt) (a : Nat) (bs : List Byte) : Mod :=
  let k := m.localStep
  let pod := { p with replay := false }
  let mine (s : Segment) : Bool := s.step == k && !s.copy
  let fresh : Segment := ⟨k, m.tagFor k, m.id, false, false, false, []⟩
  let m := if m.is LDG.CFG.ENABLE ∧ !(m.ledger.fullSteps.contains k && m.ledger.input.any fun s => mine s && s.unprot) then
      ((m.onInput (addPod mine fresh pod)).count LDG.SN_PODS_LO.o 1).count LDG.SN_POD_BYTES_LO.o (podBytes pod)
    else m
  let m := (m.store (By.hub (some (m.tagFor k))) a bs).1.progress 150
  if m.dup.paired then
    let key := ((m.id * 8192 + m.dup.peerId) * 65536 + m.tagFor k) * 8 + clsDUP
    let s := tget (fun _ => 0) m.router.seqs key
    let m := m.sendDup (m.tagFor k) 5 0 (pktBytes pod)
    m.ldg fun l => { l with inputAcks := l.inputAcks ++ [(s, p)] }
  else m.sendOut 7 (srcOf p) (tagOf p) clsRSP 0 p.seq.toNat []

end Sys2Proof.Machine
end

