-- ==== Sys2Proof/Machine/FieldTest.lean ====
section
/-! DEFINITION. Field test and classification (R440–R456): the mode, a run and its points, the classes of units, and the health
history's windows. The patterns themselves run on the parts under test; their results reach the sequencer as the command's operand. -/

namespace Sys2Proof.Machine

def Mod.tst (m : Mod) (f : Test → Test) : Mod := { m with test := f m.test }

/-! ## Field-test mode (R440, R441) -/

/-- The conditions of R440 on entering field-test mode. -/
def Mod.testModeOk (m : Mod) : Bool :=
  (m.role == 0 || m.role == 4) && !m.is UPD.CFG.ENABLE && !m.is DUP.CFG.ENABLE && !m.is BLB.CFG.ENABLE && !m.is FEN.CFG.ENABLE &&
    !m.is TOR.COLL_CTL.ENABLE && m.ckptPhase != 5 && m.ckptPhase != 6 && !m.is BLB.STAT.DRAIN

/-- Whether a run is in HEAT or RUN. -/
def Mod.testing (m : Mod) : Bool := m.f TST.STAT.STATE == 1 || m.f TST.STAT.STATE == 2

/-- Leaving field-test mode: every granule EMPTY, every squash window cleared, every queue disabled (R441). -/
def Mod.leaveTest (m : Mod) : Mod :=
  let m := { m.set TST.CFG.MODE 0 with stalk := [] }
  let m := m.clearWindows fun _ => true
  let m := (List.range 16).foldl (fun m w => if m.is (MEM.WIN_ATTR.VALID w) then m.clearWindow w else m) m
  (List.range 512).foldl (fun m i => if m.enabled (i / 4) (i % 4) then m.disableQueue (i / 4) (i % 4) else m) m

/-! ## Runs (R442–R448) -/

/-- The rail that PLAN.RAIL selects: 0 C0, 1 C1, 2 H; and the set point of a rail, numbered as RAIL_SET. -/
def planRail (r : Nat) : Nat := if r = 2 then 0 else r + 1
def Mod.railSet (m : Mod) (r : Nat) : Nat := m.f (PWR.RAIL_SET.MV r)

/-- Words of the latched plan: PLAN, V_FLOOR, T_TARGET and UNITS0–4. -/
def Mod.planWord (m : Mod) (i : Nat) : Word := m.test.plan.getD i 0
def Mod.planField (m : Mod) (i : Nat) (f : Field) : Nat := f.get (m.planWord i)
def Mod.runRail (m : Mod) : Nat := planRail (m.planField 0 TST.PLAN.RAIL)
def Mod.runFloor (m : Mod) : Nat := m.planField 1 TST.V_FLOOR.MV

/-- The rails of a die link (R413). -/
def linkRails (d : Nat) : List Nat := if d = 153 then [1, 2] else if d = 154 then [1, 0] else [2, 0]

/-- Domains under test in the latched plan. A die link is tested only while a rail of its own is the selected rail, and a port only while
its `ENABLE` is clear (R446). -/
def Mod.underTest (m : Mod) : List Nat :=
  (List.range 156).filter fun d => (m.planWord (3 + d / 32)).getLsbD (d % 32) && (decide (d < 153) || (linkRails d).contains m.runRail) &&
    !(decide (136 ≤ d) && decide (d < 144) && m.is (LNK.PORT_CTL.ENABLE (d - 136)))

/-! ### Seed sets (R444) -/

/-- A pattern record of a seed set. -/
structure PatternRec where
  cls : Nat
  template : Nat
  flags : Nat
  len : Nat
  seed : Nat
  answer : List Byte
deriving DecidableEq, Repr

def patternRec (b : List Byte) : PatternRec where
  cls := leNat (b.take 1)
  template := leNat ((b.drop 1).take 1)
  flags := leNat ((b.drop 2).take 2)
  len := leNat ((b.drop 4).take 4)
  seed := leNat ((b.drop 8).take 8)
  answer := (b.drop 16).take 16

/-- Where the image of a slot begins (R501), its body length, and the header of the set: format, version, records, templates. -/
def seedBase (slot : Nat) : Nat := 0x4000000 + slot * 0x1000000
def Mod.seedBody (m : Mod) (slot : Nat) : Nat := leNat (m.flashBytes (seedBase slot + 12) 4)
def Mod.seedWord (m : Mod) (slot i : Nat) : Nat := leNat (m.flashBytes (seedBase slot + 64 + 4 * i) 4)

/-- The `i`th pattern record of a set. The records end the body: they follow the template table, whose entries the spec does not size (log
entry 124). -/
def Mod.seedPattern (m : Mod) (slot i : Nat) : PatternRec :=
  patternRec (m.flashBytes (seedBase slot + 64 + m.seedBody slot - 32 * (m.seedWord slot 2 - i)) 32)

/-- Whether a record is one that R444 allows. -/
def PatternRec.allowed (r : PatternRec) (templates : Nat) : Bool :=
  decide (1 ≤ r.cls) && decide (r.cls ≤ 9) && decide (r.flags ≤ 1) && r.seed != 0 && decide (r.template < templates)

/-- Whether the body of a slot's image is a seed set: its header, and every record. -/
def Mod.seedForm (m : Mod) (slot : Nat) : Bool :=
  let p := m.seedWord slot 2
  m.seedWord slot 0 == 1 && m.flashBytes (seedBase slot + 64 + 16) 48 == List.replicate 48 0 && decide (64 + 32 * p ≤ m.seedBody slot) &&
    (List.range p).all fun i => (m.seedPattern slot i).allowed (m.seedWord slot 3)

/-- The operand bytes that a pattern draws from the generator (R445). -/
def PatternRec.operands (r : PatternRec) : List Byte := patternBytes (BitVec.ofNat 64 r.seed) r.len

/-- Whether a pattern passes: the digest of what its template left in the output region is the answer (R445). -/
def PatternRec.passes (r : PatternRec) (out : List Byte) : Bool := (sha384 out).take 16 == r.answer

/-- Whether patterns of a class fit a domain (R413, R444). -/
def classFits (c d : Nat) : Bool :=
  if d < 128 then decide (1 ≤ c) && decide (c ≤ 4) else if d < 136 then c == 5 || c == 6 else if d < 144 then c == 9
  else if d < 153 then c == 7 else c == 8

/-- Whether pattern `i` is run on a domain at the running point: of a seed set the records whose class fits, at every point or at the
lowest one; which known-answer kernels fit a domain the spec leaves to them (R444, R446). -/
def Mod.patternRuns (m : Mod) (d i : Nat) : Bool :=
  let low := decide (m.test.pointMv < m.runFloor + 10)
  if m.planField 0 TST.PLAN.CONTENT = 0 then true
  else
    let slot := m.planField 0 TST.PLAN.SLOT
    let r := m.seedPattern slot i
    decide (i < m.seedWord slot 2) && classFits r.cls d && (r.flags % 2 == 1 || low)

/-- Whether any pattern is run on a domain at the running point. -/
def Mod.patternsRun (m : Mod) (d : Nat) : Bool :=
  m.planField 0 TST.PLAN.CONTENT == 0 ||
    (List.range (m.seedWord (m.planField 0 TST.PLAN.SLOT) 2)).any fun i => m.patternRuns d i

/-! ### The heater (R443) -/

/-- Cores of the selected die, and whether fewer than eight of them are free of the test. -/
def Mod.testCores (m : Mod) : List Nat := (List.range 128).filter fun n => n / 64 + 1 == m.runRail

/-- Cores whose arrays the heater drives: those of the selected die that are not under test, and between patterns those under test too
where fewer than eight are free. -/
def Mod.heating (m : Mod) : List Nat :=
  if !m.test.heater || !m.testing then []
  else
    let u := m.underTest
    let free := m.testCores.filter fun n => !u.contains n
    if free.length < 8 then m.testCores else free

/-- The unit mask of the plan registers, as a list of domains. -/
def Mod.unitsSet (m : Mod) : List Nat := (List.range 156).filter fun d => (m.rd (TST.UNITS.o (d / 32))).getLsbD (d % 32)

/-- A rail's voltage changes: the regulator's own value and what `RAIL_MEAS` reads. -/
def Mod.setRail (m : Mod) (r mv : Nat) : Mod :=
  { m with power := { m.power with railMv := tset (fun _ => 0) m.power.railMv r mv } }.set (PWR.RAIL_MEAS.MV r) mv
def Mod.railMv (m : Mod) (r : Nat) : Nat := tget (fun _ => 0) m.power.railMv r

/-- Point 0 begins: at the set point, with the plan's delay setting (R442, R446). A trim before it does not count (R448). -/
def Mod.runPoints (m : Mod) : Mod :=
  let mv := m.railSet m.runRail
  let m := (m.setRail m.runRail mv).tst fun t => { t with pointMv := mv, dly := m.planField 0 TST.PLAN.DLY, trimmed := false }
  m.sets [(TST.STAT.STATE, 2), (TST.STAT.POINT, 0)]

/-- A run starts: the plan is latched, and the run heats, or enters RUN when no target is set (R446). -/
def Mod.runGo (m : Mod) : Mod :=
  let plan := [m.rd TST.PLAN.o, m.rd TST.V_FLOOR.o, m.rd TST.T_TARGET.o] ++ (List.range 5).map fun i => m.rd (TST.UNITS.o i)
  let hot := m.f TST.T_TARGET.C != 0
  let m := m.tst fun t => { t with plan := plan, results := [], abort := false, voidOnce := false, trimmed := false, heater := hot }
  if hot then m.sets [(TST.STAT.STATE, 1), (TST.STAT.POINT, 0)] else m.runPoints

/-- Whether test content may overwrite a byte: local stores, and HBM outside the Bulb and parity-fragment regions (R441). -/
def Mod.testByte (m : Mod) (a : Nat) : Bool :=
  (storeOf a 1).isSome || (decide (a < hbmTop) && (decide (a < m.regionBase 3) || decide (m.regionBase 5 ≤ a)))

/-- What the content of a run has overwritten holds free bytes (R441; log entry 111). -/
def Mod.testContent (m : Mod) : Mod :=
  let (m, k) := m.fresh
  { m with mem := freeBytes k m.testByte m.mem }

/-- The run leaves HEAT or RUN: the rail returns to its set point, `DLY` to 0 and the heater stops. -/
def Mod.runOver (m : Mod) (state : Nat) : Mod :=
  let r := m.runRail
  let m := if m.f TST.STAT.STATE = 2 then m.testContent.setRail r (if r = 0 then m.railSet r else max 600 (m.railSet r - 10 * m.power.trim)) else m
  (m.tst fun t => { t with heater := false, abort := false, dly := 0 }).set TST.STAT.STATE state

/-- `ABORT`: after the current point, or at once while no point runs (R448). -/
def Mod.runAbort (m : Mod) : Mod :=
  if m.f TST.STAT.STATE = 1 then m.runOver 4 else m.tst fun t => { t with abort := true }

/-- The die reaches the target (R443). -/
def Mod.heatReached (m : Mod) : Mod :=
  if m.f TST.STAT.STATE ≠ 1 then m
  else m.runPoints.set TST.STAT.TJ (m.planField 2 TST.T_TARGET.C)

/-- The target is not reached within 120 s. -/
def Mod.noHeat (m : Mod) : Mod := if m.f TST.STAT.STATE ≠ 1 then m else m.runOver 5

/-- The heater stops at 103 °C and resumes at 100 °C. -/
def Mod.heaterTrip (m : Mod) (tj : Nat) : Mod :=
  if !m.testing || m.planField 2 TST.T_TARGET.C == 0 then m
  else
    let m := m.set TST.STAT.TJ tj
    if 103 ≤ tj then m.tst fun t => { t with heater := false }
    else if tj ≤ 100 then m.tst fun t => { t with heater := true } else m

def Mod.resultOf (m : Mod) (u : Nat) : TestRes := tget (fun _ => TestRes.none) m.test.results u
def Mod.setResult (m : Mod) (u : Nat) (r : TestRes) : Mod :=
  m.tst fun t => { t with results := tset (fun _ => TestRes.none) t.results u r }

/-- A failure of a domain is noted: its first failing point and pattern, and whether it hung. At one point a pattern's failure and a hang
are one failure with both marked (R448); a later one changes nothing. -/
def Mod.noteFail (m : Mod) (u pattern : Nat) (hang : Bool) : Mod :=
  let r := m.resultOf u
  if r.fail then (if r.point = m.f TST.STAT.POINT then m.setResult u { r with hang := r.hang || hang } else m)
  else m.setResult u ⟨true, true, hang, m.f TST.STAT.POINT, pattern⟩

/-- The records and the class of a unit after a completed run (R452). The class it had before the run's own record decides the row. -/
def Mod.runVerdict (m : Mod) (u : Nat) (fail : Bool) (point pattern : Nat) : Mod :=
  let was := m.unitClass u
  if fail then
    let m := m.charge 0x11 u 0 0 0 (point + 256 * pattern)
    if was = 1 then m.setClass u 3 else m
  else
    let m := m.hist 0x10 u 0 0 0 0
    let full := decide (2 ≤ m.planField 0 TST.PLAN.REPEAT) && decide (1 ≤ m.planField 0 TST.PLAN.DLY) && decide (m.runFloor ≤ 620)
    if was = 1 ∧ full then m.setClass u (if m.recent u < m.f TST.TRANS_MAX.COUNT then 2 else 3) else m

/-- The run completes after the point at `V_FLOOR` (R446): TEST_FAIL for each domain that failed, else TEST_DONE; then records and
classes, and unit 254's when every domain was tested. -/
def Mod.runDone (m : Mod) : Mod :=
  let us := m.underTest.filter fun u => (m.resultOf u).tested
  let bad := us.filter fun u => (m.resultOf u).fail
  let m := ((m.runOver 3).count TST.SN_RUNS_LO.o 1).count TST.SN_FAILS_LO.o bad.length
  let m := if bad.isEmpty then m.raiseTST 1 [(TST.EVT_INFO.UNIT, 254)]
    else bad.foldl (fun m u => m.raiseTST 2 [(TST.EVT_INFO.UNIT, u), (TST.EVT_INFO.POINT, (m.resultOf u).point)]) m
  let m := us.foldl (fun m u => let r := m.resultOf u; m.runVerdict u r.fail r.point r.pattern) m
  if us.length = 156 then
    match bad with
    | [] => m.runVerdict 254 false 0 0
    | u :: _ => m.runVerdict 254 true (m.resultOf u).point (m.resultOf u).pattern
  else m

/-- The next point, 10 mV lower, or the end of the run. -/
def Mod.nextPoint (m : Mod) : Mod :=
  let m := m.tst fun t => { t with voidOnce := false, trimmed := false }
  if m.test.abort then m.runOver 4
  else if m.test.pointMv ≤ m.runFloor then m.runDone
  else
    let mv := m.test.pointMv - 10
    let m := (m.tst fun t => { t with pointMv := mv }).set TST.STAT.POINT (m.f TST.STAT.POINT + 1)
    m.setRail m.runRail mv

/-- A point ends with the patterns that failed, by unit and pattern: of those that were run, the ones whose output did not have their answer,
or in which a unit under test met a DATA status, PARITY or a tile mismatch (R445, R446). A domain that no pattern of the point fits is not
tested by it. A trim during it makes it VOID: it is run once more, and
skipped with POINT_VOID when it is VOID again (R448). An ABORT lets the point count and ends the run. -/
def Mod.pointEnd (m : Mod) (fails : List (Nat × Nat)) : Mod :=
  if m.f TST.STAT.STATE ≠ 2 then m
  else if m.test.trimmed then
    if m.test.abort then m.runOver 4
    else if m.test.voidOnce then
      (m.raiseTST 3 [(TST.EVT_INFO.UNIT, 254), (TST.EVT_INFO.POINT, m.f TST.STAT.POINT)]).nextPoint
    else m.tst fun t => { t with voidOnce := true, trimmed := false }
  else
    let us := m.underTest.filter m.patternsRun
    let m := us.foldl (fun m u => (m.setResult u { m.resultOf u with tested := true }).progress u) m
    let m := fails.foldl (fun m e => if us.contains e.1 ∧ m.patternRuns e.1 e.2 then m.noteFail e.1 e.2 false else m) m
    m.nextPoint

/-- A warm recovery or a thermal trip ends a run as ABORTED and leaves field-test mode (R448, R456). `hung` is a domain under test whose
SPROUT is the cause: its failure is recorded with its point first (R447). Whether a pattern had failed at that point before the hang no
event has told: a free value says so, and which (log entry 124). An ABORTED run changes no class by its results. -/
def Mod.testAborts (m : Mod) (hung : Option Nat) : Mod :=
  let m := match hung with
    | some u =>
      if m.f TST.STAT.STATE = 2 ∧ m.underTest.contains u then
        let (m, k) := m.fresh
        let both := Config.freeBit k
        let m := ((if both then m.noteFail u (Config.freeNat k) false else m).noteFail u 0 true).count TST.SN_FAILS_LO.o 1
        m.hist 0x11 u (if both then 3 else 1) 0 0 (m.f TST.STAT.POINT)
      else m
    | none => m
  let m := if m.testing then m.runOver 4 else m
  if m.is TST.CFG.MODE then m.leaveTest else m

/-! ## Classes and history windows (R449–R452, R455) -/

/-- `WINDOW` days of powered time have passed without a fault record. -/
def Mod.classExpires (m : Mod) (u : Nat) : Mod := if m.unitClass u = 2 ∧ m.recent u = 0 then m.setClass u 0 else m

/-- `CLS_SEL.GO` fills `CLS`. -/
def Mod.classWindow (m : Mod) : Mod :=
  let u := m.f TST.CLS_SEL.UNIT
  m.sets [(TST.CLS.CLASS, m.unitClass u), (TST.CLS.RECENT, min (m.recent u) 255)]

/-- The selected unit becomes CLEAN from PERMANENT; the table of R452 gives CLEAR no other move. -/
def Mod.classClear (m : Mod) : Mod :=
  let u := m.f TST.CLS_SEL.UNIT
  if m.unitClass u = 3 then m.setClass u 0 else m

/-- `HIST_SEL.GO` fills `HIST_D0`–`7` with one record; beyond the oldest they read zero. -/
def Mod.histWindow (m : Mod) : Mod :=
  let b := match m.test.hist[m.f TST.HIST_SEL.AGE]? with | some r => histBytes r | none => []
  (List.range 8).foldl (fun m i => m.wr (TST.HIST_D.o i) (BitVec.ofNat 32 (leNat ((b.drop (4 * i)).take 4)))) m

/-- The retry of each second (R451): held records are written when flash writes work again. -/
def Mod.histRetry (m : Mod) (ok : Bool) : Mod :=
  let m := m.tst fun t => { t with secs := t.secs + 1, flashBad := !ok }
  if ok then
    let l := m.test.held
    l.foldl Mod.histFlash (m.tst fun t => { t with held := [] })
  else m

/-- Units of a class, as `CLS_SUM` counts them: units 0–155 and 254. -/
def Mod.classCount (m : Mod) (c : Nat) : Nat := (m.test.classes.filter fun e => e.2 == c).length

/-- The result that `RES` shows. -/
def Mod.resWord (m : Mod) : Word :=
  let r := m.resultOf (m.f TST.RES_SEL.UNIT)
  let w := TST.RES.TESTED.put 0 r.tested.toNat
  let w := TST.RES.FAIL.put w r.fail.toNat
  let w := TST.RES.HANG.put w r.hang.toNat
  TST.RES.PATTERN.put (TST.RES.POINT.put w r.point) r.pattern

end Sys2Proof.Machine
end

