-- ==== Sys2Proof/Machine/Recovery.lean ====
section
/-! DEFINITION. Hangs, warm recovery and resets (R413–R436): busy domains and their Sprout counters, the causes of R420, the event table
of R422, the stalled recovery of R426, the failure of Parsnip (R429) and cold reset (R432, R433). -/

namespace Sys2Proof.Machine

def Mod.recovOf (m : Mod) (f : Recov → Recov) : Mod := { m with recov := f m.recov }

/-- `RST.STAT.STATE`. -/
def stRUN : Nat := 0
def stQUIESCE : Nat := 1
def stRESET : Nat := 2
def stRETRAIN : Nat := 3
def stFAILED : Nat := 4

def Mod.rstState (m : Mod) : Nat := m.f RST.STAT.STATE

/-- Whether Parsnip acts: it runs, and a stalled recovery or a failure has not left it to answer management reads only (R426, R533). -/
def Mod.acts (m : Mod) : Bool := m.parsnipUp && m.rstState != stFAILED

/-! ## Sprout counters and watches (R415–R419) -/

/-- The Sprout class of a domain (R413): 0 CORE, 1 MEM, 2 LINK, 3 HUB. -/
def sproutClass (d : Nat) : Nat :=
  if d < 128 then 0 else if d < 136 then 1 else if d < 144 ∨ 153 ≤ d then 2 else 3

/-- Whether a domain holds work (R415); under test it holds the patterns of the running point, of which the point's end is its progress
(R447). -/
def Mod.busy (m : Mod) (d : Nat) : Bool :=
  if m.f TST.STAT.STATE == 2 && m.underTest.contains d then true
  else if d < 128 then
    (List.range 4).any (fun q => (m.queue d q).taken.any fun x => x.phase != 0 || m.enabled d q) || (List.range 16).any fun c => m.ctxState d c == 2
  else if d < 136 then
    let s := d - 128
    (m.upd.running && (stackUnits s 0 m.extent != 0 || stackUnits s (m.regionBase 2) m.extent != 0)) ||
      m.memside.remaps.any (·.stack == s) || m.memside.waitAdds.any (·.inStacks.contains s) ||
      (m.is MPR.STAT.SCRUB_BUSY && m.budget 0 != 0)
  else if d < 144 then
    let x := m.port (d - 136)
    !x.retry.isEmpty || x.ready.any fun e => decide (pktSize e.1 ≤ x.credit e.1.cls.toNat)
  else if d = 144 then !m.router.held.isEmpty
  else if d = 145 then m.collRuns
  else if d = 146 then !m.fen.ops.isEmpty
  else if d = 147 then m.replaying
  else if d = 148 then m.ckptPhase != 0 || m.is BLB.STAT.DRAIN
  else if d = 149 then m.vine.t1.isSome || !m.vine.anns.isEmpty
  else if d = 150 then !m.ledger.inputAcks.isEmpty
  else if d = 151 then m.dup.rm != 0 || m.dup.rmIn != 0 || m.dup.takeover.isSome || m.dup.probing.isSome
  else if d = 152 then m.boot.attBusy
  else false

/-- Whether the watches of CORE and HUB domains are suspended (R417). -/
def Mod.heldNow (m : Mod) : Bool :=
  m.steps.failed.isSome || m.ckptPhase == 5 || m.ckptPhase == 6 || m.dup.takingOver

/-- The window of a Sprout class. -/
def Mod.sproutWin (m : Mod) (c : Nat) : Nat := (m.rd (RST.SP_WIN0.o + 4 * c)).toNat % 0x1000000

/-- Whether the watch of a domain runs (R416, R417). -/
def Mod.watched (m : Mod) (d : Nat) : Bool :=
  m.parsnipUp && m.rstState != stFAILED && m.is RST.CFG.WATCH_EN && decide (d < 156) && m.sproutWin (sproutClass d) != 0 &&
    (m.role == 1 || m.role == 2 || m.role == 3 || m.is TST.CFG.MODE) && !m.down d &&
    !(m.heldNow && (sproutClass d == 0 || sproutClass d == 3))

def Mod.sproutOf (m : Mod) (d : Nat) : Sprout := tget (fun _ => Sprout.zero) m.sp d

/-- Writing `SP_SEL` copies the selected domain's counter and busy state (R435). Time since it moved is read on the Vine's clock. -/
def Mod.sproutSelect (m : Mod) (d : Nat) : Mod :=
  let s := m.sproutOf d
  let idle := min ((m.vine.time.toNat - s.moved) / 1000) (2 ^ 31 - 1)
  m.sets [(RST.SP_SEL.DOMAIN, d), (RST.SP_VAL.COUNT, s.count.toNat), (RST.SP_STAT.BUSY, (m.busy d).toNat), (RST.SP_STAT.IDLE_US, idle)]

/-! ## Causes (R420, R421) -/

/-- A new recovery starts (R422): the cause recorded, QUIESCE, WARM_START; every port UP or TRAINING taken DOWN; the role FENCED; quiesce
requested. A field-test run has ended before (R447, R448). -/
def Mod.warmStart (m : Mod) (cause domain : Nat) : Mod :=
  let watched := (List.range 156).filter fun d => d != domain && m.watched d && m.busy d
  let m := m.testAborts (if cause = 1 then some domain else none)
  let m := (m.set RST.STAT.STATE stQUIESCE).raiseRST 2 domain cause
  let m := (m.count RST.SN_WARM_LO.o 1).hist 0x0C 254 cause 0 0 0
  let m := m.portsDown.setRole 4
  m.recovOf fun r => { Recov.none with cause := cause, linksTrained := r.linksTrained, expiring := watched }

/-- A cause of R420 arrives. While a recovery runs it is recorded and counted (R421); in FAILED Parsnip takes no action (R426). A recovery
runs in start-up too (log entry 71). -/
def Mod.warmCause (m : Mod) (cause domain : Nat) : Mod :=
  if !m.parsnipUp || m.rstState == stFAILED then m
  else if m.rstState = stRUN then m.warmStart cause domain
  else (m.count RST.SN_WARM_CAUSE_LO.o 1).hist 0x0C 254 cause 0 0 0

/-- Whether a window can run out on a domain: it is watched and busy, or was as the recovery began whose quiesce it has yet to answer. -/
def Mod.expires (m : Mod) (d : Nat) : Bool :=
  (m.watched d && m.busy d) || (m.rstState == stQUIESCE && m.recov.expiring.contains d && !m.quiesced d)

/-- A window expires on a busy domain (R416, R419, R447). -/
def Mod.sproutExpiry (m : Mod) (d : Nat) : Mod :=
  if !m.expires d then m
  else
    let m := m.recovOf fun r => { r with expiring := r.expiring.filter (· != d) }
    let m := (m.count RST.SN_SPROUT_LO.o 1).charge 0x07 d 0 0 0 0
    (if m.rstState = stRUN then m.raiseRST 1 d 0 else m).warmCause 1 d

/-! ## The quiesce (R423, R425) -/

/-- What a domain abandons when it acknowledges the quiesce request: no reply is waited for (R423). Warm recovery's own rules set its
registers later. -/
def Mod.abandon (m : Mod) (d : Nat) : Mod :=
  if d < 128 then
    let m := (List.range 4).foldl (fun m q => m.setQueue d q { m.queue d q with taken := [] }) m
    let m := { m with
      reqs := m.reqs.map fun (r : Req) => if r.core = d then { r with dead := true } else r
      heldWrites := m.heldWrites.filter (·.core != d) }
    m.setArr d { m.arr d with passes := [], activity := 0 }
  else if d < 136 then
    let m := (if m.upd.running then m.stopSix else m).warmScrub
    m.mside fun s => { s with
      waitAdds := (s.waitAdds.map fun a => { a with inStacks := a.inStacks.filter (· != d - 128) }).filter fun a => !a.inStacks.isEmpty
      remaps := s.remaps.filter (·.stack != d - 128) }
  else match d with
    | 144 => { m with router := { m.router with held := [], loop := [] } }
    | 145 => m.collOf fun c => { c with started := false, early := [] }
    | 146 => m.fenOf fun f => { f with ops := [], early := [] }
    | 147 =>
      let rest (l : List (Pkt × Option Nat)) := l.filter fun e => !(e.1.replay && m.idents.contains (srcOf e.1))
      let m := { m with router := { m.router with held := rest m.router.held } }
      (List.range 8).foldl (fun m p => m.onPort p fun x => { x with ready := rest x.ready }) m
    | 149 => m.vineOf fun v => { v with t1 := none, anns := [] }
    | 150 => m.ldg fun l => { l with inputAcks := [] }
    | 151 => m.dupOf fun x => { x with
        rm := 0, rmIn := 0, probing := none, takeover := none, awaiting := [], replies := [], later := [], swapping := false, acks := [] }
    | 148 => m.warmCkpt
    | 152 => { m with boot := { m.boot with attBusy := false } }
    | _ => m

/-- A domain acknowledges (R423). -/
def Mod.quiesceAck (m : Mod) (d : Nat) : Mod :=
  if !m.parsnipUp || m.rstState != stQUIESCE || m.recov.waited || !decide (d < 156) || m.quiesced d then m
  else (m.abandon d).recovOf fun r => { r with acked := r.acked ++ [d] }

/-- Blocks of which a domain holds holding counters (R475). -/
def domBlocks (d : Nat) : List Nat :=
  if d < 128 then [256 + d, 7]
  else if d = 128 then [15, 16, 17, 18]
  else if d < 136 then []
  else if d < 144 then [10]
  else match d with
    | 144 => [9]
    | 146 => [14]
    | 147 => [12]
    | 148 => [13]
    | 149 => [7, 8]
    | 151 => [11]
    | _ => []

/-- The counters of a domain restart, since it was switched off (R475). -/
def Mod.restartCounters (m : Mod) (d : Nat) : Mod :=
  { m with live := m.live.filter (fun e => regDomain e.1 != d)
           gaps := (m.gaps ++ domBlocks d).dedup }

/-- Free bytes of HBM: what a cold reset or the loss of a stack leaves, at the addresses that satisfy `p` (log entries 7 and 8). -/
def lostBytes (k : Nat) (p : Nat → Bool) (t : Tbl Byte) : Tbl Byte := freeBytes k (fun a => decide (a < hbmTop) && p a) t

/-- A stack loses its content: free bytes stand in it (R425). -/
def Mod.loseStack (m : Mod) (s : Nat) : Mod :=
  let (m, k) := m.fresh
  let mine (a : Nat) : Bool := decide (a < hbmTop) && stackOf a == s
  let m := { m with mem := lostBytes k mine (terase mine m.mem) }
  let m := m.mside fun x => { x with hbmErr := terase (fun u => stackOf (64 * u) == s) x.hbmErr }
  let m := (m.hist 0x0B (128 + s) 4 0 0 0).raiseRST 6 (128 + s) m.recov.cause
  let m := (m.damageGen 0 (128 + s)).damageGen 1 (128 + s)
  m.recovOf fun r => { r with lost := r.lost ++ [s] }

/-- A domain that has not acknowledged is switched off and loses what it held (R422, R425). -/
def Mod.switchOff (m : Mod) (d : Nat) : Mod :=
  let m := { m with doms := { m.doms with off := m.doms.off ++ [d] } }
  let m := ((m.abandon d).restartCounters d).count RST.SN_QOFF_LO.o 1
  let m := m.raiseRST 3 d m.recov.cause
  let m := m.set (RST.DOM_OFF.OFF (d / 32)) (m.f (RST.DOM_OFF.OFF (d / 32)) ||| 2 ^ (d % 32))
  if 128 ≤ d ∧ d < 136 then m.loseStack (d - 128)
  else if d = 149 then m.recovOf fun r => { r with vineOff := true }
  else m

/-- `QUIESCE_WAIT` ends (R422). -/
def Mod.quiesceExpiry (m : Mod) : Mod :=
  if !m.parsnipUp || m.rstState != stQUIESCE || m.recov.waited then m
  else
    let m := (List.range 5).foldl (fun m i => m.set (RST.DOM_OFF.OFF i) 0) m
    let late := (List.range 156).filter fun d => !m.quiesced d
    (late.foldl Mod.switchOff m).recovOf fun r => { r with waited := true }

/-! ## Reset and retraining (R422, R424) -/

/-- Generations are closed: every tag that the module has opened, and every packet of classes 1–7 until a step is opened (R424). -/
def Mod.closeTags (m : Mod) : Mod :=
  m.stepsOf fun s => { s with closed := (s.closed ++ s.tags).dedup, tags := [], dropAll := true }

/-- The stacks are in self refresh, once every domain has acknowledged or been switched off; generations are closed and every domain
but Parsnip is held in reset. -/
def Mod.selfRefreshIn (m : Mod) : Mod :=
  let all := (List.range 156).all m.quiesced
  if !m.parsnipUp || m.rstState != stQUIESCE || !(m.recov.waited || all) then m
  else
    let m := if m.recov.waited then m else (List.range 5).foldl (fun m i => m.set (RST.DOM_OFF.OFF i) 0) m
    let m := (m.recovOf fun r => { r with selfRefresh := true }).closeTags
    { m with doms := { m.doms with held := true, except := [] } }.set RST.STAT.STATE stRESET

/-- Every byte of every local store is zero with valid check bits (R161). -/
def Mod.zeroStores (m : Mod) : Mod :=
  { m with mem := m.mem.filter fun e => decide (e.1 < lsBase) }.mside fun s => { s with lsErr := [] }

/-- The low word of a remap entry as the history loads it: its CAUSE is 3 (R273). -/
def fromHistory (lo : Nat) : Nat := lo / 16 * 16 + 12 + lo % 4

/-- Remap entries, pin marks and degraded channels of some stacks are loaded from the history, in the order recorded, without the records
that soft repair made good (R265, R266, R277, R281, R425). `repaired` numbers the remap records, oldest first. -/
def Mod.loadRepairs (m : Mod) (ss repaired : List Nat) : Mod :=
  let bit (w s : Nat) : Nat := if ss.contains s then 0 else w / 2 ^ s % 2 * 2 ^ s
  let m := [MPR.STAT.MARKED, MPR.STAT.DEGRADED].foldl (fun m f => m.set f (((List.range 8).map (bit (m.f f))).sum)) m
  let m := ss.foldl (fun m s =>
    let m := (List.range 16).foldl (fun m e => (m.wr (MPR.REMAP_LO.o (16 * s + e)) 0).wr (MPR.REMAP_HI.o (16 * s + e)) 0) m
    (List.range 32).foldl (fun m c => m.wr (MPR.PIN.o (32 * s + c)) 0) m) m
  let mine := m.test.hist.reverse.filter fun r => 128 ≤ r.unit && ss.contains (r.unit - 128)
  let m := (mine.filter fun r => r.kind == 0x0A && r.detail == 1).foldl (fun m r =>
    (m.set (MPR.PIN.DEGRADED (32 * (r.unit - 128) + r.data / 256 % 32)) 1).set MPR.STAT.DEGRADED
      (m.f MPR.STAT.DEGRADED ||| 2 ^ (r.unit - 128))) m
  let recs := mine.filter fun r => r.kind == 0x0B
  let marks := recs.filter fun r => r.detail == 1
  let m := marks.foldl (fun m r =>
    let i := 32 * (r.unit - 128) + r.data / 256 % 32
    if m.is (MPR.PIN.VALID i) then m
    else (m.sets [(MPR.PIN.PIN i, r.data % 64), (MPR.PIN.VALID i, 1)]).set MPR.STAT.MARKED
      (m.f MPR.STAT.MARKED ||| 2 ^ (r.unit - 128))) m
  let maps := (recs.filter fun r => r.detail == 2).zipIdx.filter fun e => !repaired.contains e.2
  maps.foldl (fun m e =>
    let s := e.1.unit - 128
    let lo := fromHistory (e.1.data % 2 ^ 32)
    let p : Place := ⟨s, bits lo 8 4, bits lo 12 9, bits lo 31 16, 0, 0⟩
    let old := if bits lo 1 1 = 1 then m.rowEntries p else []
    let m := old.foldl (fun m i => (m.wr (MPR.REMAP_LO.o (16 * s + i)) 0).wr (MPR.REMAP_HI.o (16 * s + i)) 0) m
    match m.freeEntry s with
    | none => m
    | some i => (m.wr (MPR.REMAP_LO.o (16 * s + i)) (BitVec.ofNat 32 lo)).wr (MPR.REMAP_HI.o (16 * s + i))
        (BitVec.ofNat 32 (e.1.data / 2 ^ 32))) m

/-- Debug mode is left and the trace buffer emptied, its records counted as lost (R493, R496). -/
def Mod.warmDebug (m : Mod) : Mod :=
  let m := if m.is DBG.STAT.DEBUG then (m.set DBG.STAT.DEBUG 0).raiseDBG 4 else m
  let m := m.count DBG.SN_TR_LOST_LO.o (recordsIn 0 m.trace.buf)
  { m with trace := Trace.init, accReq := none }

/-- Warm recovery of every block, as each chapter lays down. -/
def Mod.warmBlocks (m : Mod) : Mod :=
  let m := (List.range 128).foldl Mod.warmCore m
  let m := { m with reqs := [], heldWrites := [], arrs := [], fen := ⟨[], [], []⟩ }
  let m := m.warmUpdate.warmHealth.warmMem.warmScrub
  let m := m.warmColl.warmVine.warmDup.warmCkpt.warmDebug
  let m := if m.recov.vineOff then (m.vineOf fun v => { v with time := 0, rate := 0 }).sets [(VIN.STAT.HOLDOVER, 0)] else m
  let m := m.stepsOf fun s => { s with
    todo := [], rerun := none, again := none, begun := [], six := [], submitted := [], held := [], healthOk := []
    failed := none, nextFault := none }
  { m with router := { m.router with held := [], loop := [] }, boot := { m.boot with attBusy := false }, ledger := { m.ledger with inputAcks := [] } }

/-- The reset hold ends: domains switched off are on again, local stores are zeroed, registers are set, the die links and memory sides
retrain, and the ports negotiate (R422). Before READY the domains stay in the reset of start-up. -/
def Mod.resetHoldEnd (m : Mod) : Mod :=
  if !m.parsnipUp || m.rstState != stRESET then m
  else
    let m := m.zeroStores.warmBlocks
    let boot := m.f SEC.STAT.BOOT
    let m := { m with doms := ⟨boot != 5, if 6 ≤ boot then [142, 143] else [], [], true, true⟩ }
    let m := m.set RST.STAT.STATE stRETRAIN
    (m.recovOf fun r => { r with acked := [], linksTrained := false }).portsStart

/-- The die-to-die links finish their retraining; with the resonator stopped no PHY does (R16, R17). -/
def Mod.linksRetrained (m : Mod) : Mod :=
  if m.power.resonator then
    { m with doms := { m.doms with linkRetrain := false } }.recovOf fun r => { r with linksTrained := true }
  else m

/-- The HBM PHYs have retrained; stacks leave self refresh (R422), and the entries and marks of a stack that was lost are loaded again as at
start-up (R425): `repaired` numbers the remap records that soft repair made good. -/
def Mod.memRetrained (m : Mod) (repaired : List Nat) : Mod :=
  if m.recov.linksTrained then
    let m := if m.recov.lost.isEmpty then m else m.loadRepairs m.recov.lost repaired
    { m with doms := { m.doms with memRetrain := false } }.recovOf fun r => { r with selfRefresh := false, lost := [] }
  else m

/-- The recovery ends: `STATE` RUN and WARM_DONE. -/
def Mod.warmDone (m : Mod) : Mod :=
  if !m.parsnipUp || m.rstState != stRETRAIN || !m.recov.linksTrained then m
  else ((m.memRetrained []).set RST.STAT.STATE stRUN).raiseRST 4 255 m.recov.cause

/-! ## Stalled recovery and failure (R426, R500, R533) -/

/-- A FENCE naming the module itself, in a frame of its own: the last packet of a port that is about to be fenced (R308, R426). -/
def Mod.lastFence (m : Mod) (p : Nat) : Mod :=
  let pay := leBytes 2 m.id ++ [3, 0] ++ leBytes 6 m.vine.step ++ List.replicate 6 0
  let (m, pk) := m.numbered m.id (m.peer p) (m.tagFor m.steps.oldest) clsCTRL 3 0 pay
  let us := pktUnits pk
  m.putFrame p (m.port p).fseq (us ++ List.replicate (255 - us.length) 0)

/-- Every port is fenced. -/
def Mod.fenceAll (m : Mod) : Mod := (List.range 8).foldl Mod.fencePort m

/-- `RECOV_WAIT` expires without WARM_DONE (R426). The FENCE goes out on the ports that are UP just before they are fenced, since a
fenced port sends no packet (R310). -/
def Mod.recovStall (m : Mod) : Mod :=
  if !m.parsnipUp || m.rstState == stRUN || m.rstState == stFAILED then m
  else
    let m := (m.set RST.STAT.STATE stFAILED).raiseRST 5 255 m.recov.cause
    let m := (List.range 8).foldl (fun m p => if m.pstate p = pUP then m.lastFence p else m) m
    m.fenceAll.charge 0x09 254 3 0 0 0

/-- The core rails are off, and read so; a trim goes with them. -/
def Mod.railsOff (m : Mod) : Mod :=
  let m := { m with power := { m.power with railsOn := [], railMv := [], trim := 0 } }
  ([0, 1, 2].foldl (fun m r => m.set (PWR.RAIL_MEAS.MV r) 0) m).set PWR.STAT.TRIMMED 0

/-- Every domain but Parsnip is switched off and `STATE` is FAILED; only a cold reset ends it. -/
def Mod.failNow (m : Mod) : Mod :=
  { m with doms := ⟨true, [], [], false, false⟩, recov := { Recov.none with cause := m.recov.cause } }.railsOff.set RST.STAT.STATE stFAILED

/-! ## Parsnip's keep-alive (R429) -/

/-- Parsnip's keep-alive restarts the watch of 10 ms. -/
def Mod.keepAlive (m : Mod) : Mod :=
  if m.parsnipUp then m.dupOf fun d => { d with aliveAt := m.vine.time.toNat } else m

/-- 10 ms without a keep-alive: heartbeats stop, probes go unanswered and `ALERT_N` is asserted, until a cold reset. A warm recovery stops
where it stands (R434). -/
def Mod.keepAliveLost (m : Mod) : Mod := m.dupOf fun d => { d with dead := true }

/-! ## Cold reset (R432, R433) -/

/-- A cold reset. What the flash holds survives (images, staging, history with classes and results, boot count), and the levels of the
supply inputs; HBM holds free bytes. The start sequence begins with POWER_ON_START. -/
def Mod.coldReset (m : Mod) : Mod :=
  let levels := m.rd PWR.STAT.o &&& 7
  let meas := m.f PWR.IN_MEAS.CV
  let r : Mod := { Mod.reset with
    flash := m.flash
    mem := lostBytes m.free (fun _ => true) []
    test := { Test.init with
      hist := m.test.hist, histNext := m.test.histNext, histKept := m.test.histKept, flashBad := m.test.flashBad, classes := m.test.classes, results := m.test.results, bases := m.nextBase }
    -- every tag that the module has opened is closed (R433)
    steps := { Steps.init with closed := (m.steps.closed ++ m.steps.tags).dedup }
    boot := { Boot.init with bootCount := m.boot.bootCount, fromStaging := m.boot.fromStaging }
    power := { Power.init with
      inCv := m.power.inCv, switchClosed := m.power.switchClosed, hotDies := m.power.hotDies, resetNLow := m.power.resetNLow }
    free := m.free + 1 }
  ((r.wr PWR.STAT.o levels).set PWR.IN_MEAS.CV meas).set TST.HIST_N.COUNT m.test.hist.length

end Sys2Proof.Machine
end

