-- ==== Sys2Proof/Machine/Sign.lean ====
section
/-! DEFINITION. Verification of the signatures of R503: ECDSA over P-384 (FIPS 186-5), and LMS with the parameter sets LMS_SHA256_M32_H20
and LMOTS_SHA256_N32_W4 (RFC 8554, SP 800-208). The rule names these standards; their constants and algorithms are taken from them
(PRESUMED, log entry 126). -/

namespace Sys2Proof.Machine

/-! ## ECDSA over P-384 -/

/-- The field prime, the order of the base point, the coefficient b (a is −3), and the base point. -/
def p384 : Nat := 2 ^ 384 - 2 ^ 128 - 2 ^ 96 + 2 ^ 32 - 1
def n384 : Nat := 0xffffffffffffffffffffffffffffffffffffffffffffffffc7634d81f4372ddf581a0db248b0a77aecec196accc52973
def b384 : Nat := 0xb3312fa7e23ee7e4988e056be3f82d19181d9c6efe8141120314088f5013875ac656398d8a2ed19d2a85c8edd3ec2aef
def gx384 : Nat := 0xaa87ca22be8b05378eb1c71ef320ad746e1d3b628ba79b9859f741e082542a385502f25dbf55296c3a545e3872760ab7
def gy384 : Nat := 0x3617de4a96262c6f5d9e98bf9292dc29f8f41dbd289a147ce9da3113b5f0b8c00a60b1ce1d7e819d7a431d7c90ea0e5f

/-- A point of the curve in Jacobian coordinates: z = 0 is the point at infinity. -/
structure CurvePt where
  x : Nat
  y : Nat
  z : Nat
deriving DecidableEq, Repr

def CurvePt.zero : CurvePt := ⟨1, 1, 0⟩

/-- Subtraction modulo p of reduced numbers. -/
def subP (a b : Nat) : Nat := (a + p384 - b) % p384

/-- Twice a point. -/
def CurvePt.double (q : CurvePt) : CurvePt :=
  if q.z = 0 then q
  else
    let zz := q.z * q.z % p384
    let yy := q.y * q.y % p384
    let s := 4 * q.x * yy % p384
    let m := 3 * subP q.x zz * ((q.x + zz) % p384) % p384
    let x := subP (m * m % p384) (2 * s % p384)
    ⟨x, subP (m * subP s x % p384) (8 * yy * yy % p384), 2 * q.y * q.z % p384⟩

/-- The sum of two points. -/
def CurvePt.add (q r : CurvePt) : CurvePt :=
  if q.z = 0 then r
  else if r.z = 0 then q
  else
    let z1 := q.z * q.z % p384
    let z2 := r.z * r.z % p384
    let u1 := q.x * z2 % p384
    let u2 := r.x * z1 % p384
    let s1 := q.y * z2 * r.z % p384
    let s2 := r.y * z1 * q.z % p384
    if u1 = u2 then (if s1 = s2 then q.double else CurvePt.zero)
    else
      let h := subP u2 u1
      let d := subP s2 s1
      let hh := h * h % p384
      let hhh := h * hh % p384
      let v := u1 * hh % p384
      let x := subP (subP (d * d % p384) hhh) (2 * v % p384)
      ⟨x, subP (d * subP v x % p384) (s1 * hhh % p384), h * q.z * r.z % p384⟩

/-- A multiple of a point by a number below 2^384, bit by bit from the top. -/
def CurvePt.times (k : Nat) (q : CurvePt) : CurvePt :=
  (List.range 384).foldl (fun a i => if k.testBit (383 - i) then a.double.add q else a.double) CurvePt.zero

/-- A power modulo `n` with an exponent below 2^384. -/
def powMod (n b e : Nat) : Nat :=
  (List.range 384).foldl (fun a i => if e.testBit (383 - i) then a * a % n * b % n else a * a % n) 1

/-- Whether coordinates are those of a point of the curve. -/
def onCurve (x y : Nat) : Bool :=
  decide (x < p384) && decide (y < p384) && y * y % p384 == (subP (x * x * x % p384) (3 * x % p384) + b384) % p384

/-- Whether `sig`, r then s, signs the 48-byte digest under a public key of 97 bytes, uncompressed (R502, R503). -/
def ecdsaOk (key digest sig : List Byte) : Bool :=
  let x := beNat ((key.drop 1).take 48)
  let y := beNat ((key.drop 49).take 48)
  let r := beNat (sig.take 48)
  let s := beNat ((sig.drop 48).take 48)
  if key.length ≠ 97 ∨ key.take 1 ≠ [4] ∨ !onCurve x y ∨ r = 0 ∨ n384 ≤ r ∨ s = 0 ∨ n384 ≤ s then false
  else
    let w := powMod n384 s (n384 - 2)
    let e := beNat (digest.take 48)
    let q := (CurvePt.times (e * w % n384) ⟨gx384, gy384, 1⟩).add (CurvePt.times (r * w % n384) ⟨x, y, 1⟩)
    let zz := q.z * q.z % p384
    q.z != 0 && (q.x == r * zz % p384 || (decide (r + n384 < p384) && q.x == (r + n384) * zz % p384))

/-! ## SHA-256 (FIPS 180-4) -/

/-- Round constants and initial value: the first 32 bits of the fractions of the cube roots of the first 64 primes, and of the square roots
of the first eight. -/
def sha256K : List Word := (shaK.take 64).map fun k => BitVec.ofNat 32 (k.toNat / 2 ^ 32)
def sha256Init : List Word := (shaPrimes.take 8).map fun p => BitVec.ofNat 32 (Nat.sqrt (p * 2 ^ 64))

/-- Rotations of a word, and its shift by the last amount given, joined by exclusive or. -/
def mix32 (rots : List Nat) (shift : Option Nat) (w : Word) : Word :=
  rots.foldl (fun a r => a ^^^ w.rotateRight r) (match shift with | some k => w >>> k | none => 0)

/-- The words of the schedule that follow a window of sixteen, oldest first. -/
def more256 : Nat → List Word → List Word
  | 0, _ => []
  | k + 1, win =>
    let at_ := fun i => win.getD i 0
    let next := [at_ 0, mix32 [7, 18] (some 3) (at_ 1), at_ 9, mix32 [17, 19] (some 10) (at_ 14)].sum
    next :: more256 k (win.drop 1 ++ [next])

/-- One round on the working variables a to d and e to h. -/
def round256 (v : List Word × List Word) (kw : Word) : List Word × List Word :=
  match v with
  | ([a, b, c, d], [e, f, g, h]) =>
    let choose := g ^^^ (e &&& (f ^^^ g))
    let most := (a &&& (b ||| c)) ||| (b &&& c)
    let step := [h, mix32 [6, 11, 25] none e, choose, kw].sum
    ([step + mix32 [2, 13, 22] none a + most, a, b, c], [d + step, e, f, g])
  | _ => v

/-- One 64-byte block. -/
def block256 (h : List Word) (blk : List Byte) : List Word :=
  let first := (pieces 4 16 blk).map fun b => BitVec.ofNat 32 (beNat b)
  let out := (List.zipWith (· + ·) sha256K (first ++ more256 48 first)).foldl round256 (h.take 4, h.drop 4)
  List.zipWith (· + ·) h (out.1 ++ out.2)

/-- The SHA-256 digest, 32 bytes. -/
def sha256 (bs : List Byte) : List Byte :=
  let n := bs.length
  let p := bs ++ [0x80] ++ List.replicate ((55 + 64 - n % 64) % 64) 0 ++ beBytes 8 (8 * n)
  let h := (pieces 64 (p.length / 64) p).foldl block256 sha256Init
  h.flatMap fun x => beBytes 4 x.toNat

/-! ## LMS -/

/-- The 4-bit digit `i` of a byte string. -/
def digit4 (bs : List Byte) (i : Nat) : Nat := let b := (bs.getD (i / 2) 0).toNat; if i % 2 = 0 then b / 16 else b % 16

/-- The 67 digits of a 32-byte value: its own 64, then those of their checksum. -/
def otsDigits (q : List Byte) : List Nat :=
  let ds := (List.range 64).map (digit4 q)
  let sum := beBytes 2 ((ds.map fun d => 15 - d).sum * 16)
  ds ++ (List.range 3).map (digit4 sum)

/-- A chain of hashes from step `a` to the last. -/
def otsChain (pre : List Byte) (a : Nat) (x : List Byte) : List Byte :=
  (List.range (15 - a)).foldl (fun t j => sha256 (pre ++ beBytes 1 (a + j) ++ t)) x

/-- The one-time public key that a one-time signature of a message leads to. -/
def otsKey (ident leaf msg sig : List Byte) : List Byte :=
  let q := sha256 (ident ++ leaf ++ [0x81, 0x81] ++ (sig.drop 4).take 32 ++ msg)
  let zs := (otsDigits q).zipIdx.map fun d => otsChain (ident ++ leaf ++ beBytes 2 d.2) d.1 ((sig.drop (36 + 32 * d.2)).take 32)
  sha256 (ident ++ leaf ++ [0x80, 0x80] ++ zs.flatten)

/-- The root that a leaf's key and a path of twenty nodes lead to. -/
def lmsRoot (ident : List Byte) (node : Nat) (leaf path : List Byte) : List Byte :=
  ((List.range 20).foldl (fun (s : Nat × List Byte) i =>
    let x := (path.drop (32 * i)).take 32
    let up := s.1 / 2
    (up, sha256 (ident ++ beBytes 4 up ++ [0x83, 0x83] ++ (if s.1 % 2 = 1 then x ++ s.2 else s.2 ++ x)))) (node, leaf)).2

/-- Whether an LMS signature of 2828 bytes signs a message under a public key of 56 bytes. -/
def lmsOk (key msg sig : List Byte) : Bool :=
  let ident := (key.drop 8).take 16
  let leaf := sig.take 4
  let q := beNat leaf
  let ots := (sig.drop 4).take 2180
  if key.length ≠ 56 ∨ sig.length ≠ 2828 ∨ key.take 8 ≠ beBytes 4 8 ++ beBytes 4 3 ∨ ots.take 4 ≠ beBytes 4 3 ∨
      (sig.drop 2184).take 4 ≠ beBytes 4 8 ∨ 2 ^ 20 ≤ q then false
  else
    let node := 2 ^ 20 + q
    let kc := otsKey ident leaf msg ots
    let lf := sha256 (ident ++ beBytes 4 node ++ [0x82, 0x82] ++ kc)
    lmsRoot ident node lf (sig.drop 2188) == key.drop 24

end Sys2Proof.Machine
end

