-- ==== Sys2Proof/Machine/Boot.lean ====
section
/-! DEFINITION. Start-up, images and identity (R497–R512): the start sequence of R498, the verification of images (R502–R505), staging,
installing and serving them (R506–R510), and attestation (R511, R512). Signatures are verified by Sign.lean. -/

namespace Sys2Proof.Machine

def Mod.bootOf (m : Mod) (f : Boot → Boot) : Mod := { m with boot := f m.boot }

/-- `SEC.STAT.BOOT`. -/
def bROM : Nat := 0
def bVERIFY : Nat := 1
def bWAIT : Nat := 2
def bPOWERUP : Nat := 3
def bTRAIN : Nat := 4
def bREADY : Nat := 5
def bFETCH : Nat := 6
def bHALT : Nat := 7

def Mod.bootState (m : Mod) : Nat := m.f SEC.STAT.BOOT
def Mod.setBoot (m : Mod) (b : Nat) : Mod := m.set SEC.STAT.BOOT b
def Mod.ready (m : Mod) : Bool := m.bootState == bREADY
def Mod.fetching_ (m : Mod) : Bool := m.bootState == bFETCH || m.bootState == bHALT

/-! ## Flash (R501) -/

/-- Base and size of the area of an image kind: 1 firmware, 2 configuration, 3 seed set in slot `n`. -/
def imgArea (kind n : Nat) : Nat × Nat :=
  match kind with
  | 1 => (0x100000, 0x1F00000)
  | 2 => (0x2000000, 0x100000)
  | _ => (0x4000000 + n * 0x1000000, 0x1000000)

/-- The staging area. -/
def stageBase : Nat := 0x2100000
def stageSize : Nat := 0x1F00000

/-! ## Images (R502–R504) -/

/-- Header fields of an image at a flash address: version, body length, and offsets of the owner block and signature block. -/
def Mod.imgVersion (m : Mod) (a : Nat) : Nat := leNat (m.flashBytes (a + 8) 4)
def Mod.imgBody (m : Mod) (a : Nat) : Nat := leNat (m.flashBytes (a + 12) 4)
def Mod.imgOwnerAt (m : Mod) (a : Nat) : Nat := (64 + m.imgBody a + 4095) / 4096 * 4096
def Mod.imgSignAt (m : Mod) (kind a : Nat) : Nat := m.imgOwnerAt a + (if kind = 2 then 4096 else 0)
def Mod.imgLength (m : Mod) (kind a : Nat) : Nat := m.imgSignAt kind a + 4096

/-- The signed digest: SHA-384 of header and body. -/
def Mod.imgDigest (m : Mod) (a : Nat) : List Byte := sha384 (m.flashBytes a (64 + m.imgBody a))

/-- Whether the header follows R502 for a kind and the image fits an area of `size` bytes. -/
def Mod.imgFormat (m : Mod) (kind a size : Nat) : Bool :=
  m.flashBytes a 8 == leBytes 4 0x4550494D ++ leBytes 4 kind && m.flashBytes (a + 16) 48 == List.replicate 48 0 &&
    decide (m.imgLength kind a ≤ size)

/-- ECDSA and LMS keys that sign an image of a kind: the vendor's, or for a configuration those of its owner block. -/
def Mod.imgKeys (m : Mod) (kind a : Nat) : List Byte × List Byte :=
  if kind = 2 then (m.flashBytes (a + m.imgOwnerAt a) 97, m.flashBytes (a + m.imgOwnerAt a + 97) 56)
  else (Config.vendorEcdsa, Config.vendorLms)

/-- Whether the owner block verifies under both vendor keys. -/
def Mod.ownerOk (m : Mod) (a : Nat) : Bool :=
  let o := a + m.imgOwnerAt a
  let d := sha384 (m.flashBytes o 153)
  ecdsaOk Config.vendorEcdsa d (m.flashBytes (o + 153) 96) && lmsOk Config.vendorLms d (m.flashBytes (o + 249) 2828)

/-- What is wrong with an image, as `EVT_INFO.WHY` codes it; 0 when it is valid (R504). -/
def Mod.imgWhy (m : Mod) (kind a size : Nat) : Nat :=
  if !m.imgFormat kind a size then 5
  else if kind = 2 ∧ !m.ownerOk a then 4
  else
    let s := a + m.imgSignAt kind a
    let d := m.imgDigest a
    let k := m.imgKeys kind a
    match ecdsaOk k.1 d (m.flashBytes s 96), lmsOk k.2 d (m.flashBytes (s + 96) 2828) with
    | true, true => 0
    | false, true => 1
    | true, false => 2
    | false, false => 3

/-- A layout word that keeps R35. -/
def layoutOk (w : Nat) : Bool :=
  let s := w % 128
  let l := w / 256 % 32
  decide (s % 4 = 0) && decide (4 ≤ s) && decide (s ≤ 64) && decide (1 ≤ l) && decide (l ≤ 24)

/-- The register word that a configuration's body sets (log entry 11). -/
def Mod.cfgWord (m : Mod) (a off : Nat) : Word := Config.imageWord (m.flashBytes (a + 64) (m.imgBody a)) off

/-- A set point that R515 allows; the module sets no rail elsewhere (R19). -/
def railOk (v : Nat) : Bool := decide (600 ≤ v) && decide (v ≤ 900) && v % 10 == 0

/-- A configuration image with its field checks (R498, R505; log entry 106). -/
def Mod.cfgWhy (m : Mod) (a size : Nat) : Nat :=
  match m.imgWhy 2 a size with
  | 0 =>
    let w := (m.cfgWord a CFG.LAYOUT.o).toNat
    let rails := (List.range 3).all fun r => railOk (PWR.RAIL_SET.MV 0 |>.get (m.cfgWord a (PWR.RAIL_SET.o r)))
    if layoutOk w && decide (w / 0x2000 = 0) && decide (w / 128 % 2 = 0) && rails then 0 else 6
  | y => y

/-- A valid staged image is copied into its area, and the copy read back (R507). Firmware from staging is remembered with the flash. -/
def Mod.install (m : Mod) (kind slot : Nat) : Mod :=
  let m := m.putFlash (imgArea kind slot).1 (m.flashBytes stageBase (m.imgLength kind stageBase))
  if kind = 1 then m.bootOf fun b => { b with fromStaging := true } else m

/-! ## The start sequence (R498, R505) -/

/-- The ROM runs: the boot count rises. -/
def Mod.startRom (m : Mod) : Mod :=
  let m := m.set PWR.STAT.AUX_OK 1
  m.bootOf fun b => { b with started := true, bootCount := b.bootCount + 1 }

/-- The auxiliary input is in range with `RESET_N` high. After its loss, or with `RESET_N` released, the module starts anew from a cold
reset; a die that is still hot holds it in reset (R533). A module that has started and lost nothing sees no such event. -/
def Mod.powerOn (m : Mod) : Mod :=
  let lost := !m.is PWR.STAT.AUX_OK
  if m.boot.started && !lost then m
  else
    let m := if lost then m.coldReset.set PWR.STAT.AUX_OK 1 else m
    let m := { m with power := { m.power with resetNLow := false, coldHold := false } }
    if m.power.hotDies.isEmpty then m.startRom else { m with power := { m.power with startPending := true } }

/-- PUF reconstruction ends (R511). -/
def Mod.identityDone (m : Mod) (ok : Bool) : Mod :=
  if !m.parsnipUp || !m.boot.started || m.bootState != bROM then m
  else
    let m := if ok then m.set SEC.STAT.ID_OK 1 else (m.set SEC.STAT.ID_OK 0).raiseSEC 6 []
    m.setBoot bVERIFY

/-- The firmware image is valid and in force; `FETCHED` says that it was installed from staging (R507, R516). -/
def Mod.takeFirmware (m : Mod) : Mod :=
  let a := (imgArea 1 0).1
  let m := m.bootOf fun b => { b with fwDigest := m.imgDigest a, fwVersion := m.imgVersion a }
  (m.set SEC.IMAGE_VER.VERSION m.boot.fwVersion).set SEC.STAT.FETCHED m.boot.fromStaging.toNat

/-- The configuration image is valid too: it is in force, the rails' set points are its, and the module waits for its power inputs. -/
def Mod.takeConfig (m : Mod) : Mod :=
  let cf := imgArea 2 0
  let m := m.bootOf fun b => { b with cfgDigest := m.imgDigest cf.1, cfgVersion := m.imgVersion cf.1 }
  let m := [0, 1, 2].foldl (fun m r => m.set (PWR.RAIL_SET.MV r) (PWR.RAIL_SET.MV r |>.get (m.cfgWord cf.1 (PWR.RAIL_SET.o r)))) m
  m.setBoot bWAIT

/-- Both images have been judged, and start-up takes the row of R505 that applies. -/
def Mod.imagesJudged (m : Mod) : Mod :=
  if !m.parsnipUp || !m.boot.started || m.bootState != bVERIFY then m
  else
    let fw := imgArea 1 0
    let cf := imgArea 2 0
    match m.imgWhy 1 fw.1 fw.2 with
    | 0 =>
      let m := m.takeFirmware
      (match m.cfgWhy cf.1 cf.2 with
       | 0 => m.takeConfig
       | y =>
         if m.cfgWhy stageBase cf.2 = 0 then (m.install 2 0).coldReset
         else (m.setBoot bHALT).raiseSEC 2 [(SEC.EVT_INFO.WHY, y)])
    | y =>
      if m.imgWhy 1 stageBase fw.2 = 0 then (m.install 1 0).coldReset
      else (m.setBoot bFETCH).raiseSEC 1 [(SEC.EVT_INFO.WHY, y)]

/-- Both power inputs hold (R497): the 48 V input at `cv` × 10 mV and `PWR_EN`. -/
def Mod.inputsReady (m : Mod) (cv : Nat) : Mod :=
  if !m.parsnipUp || !decide (4000 ≤ cv) || !decide (cv ≤ 6000) then m
  else
    let m := { m with power := { m.power with inCv := cv } }.sets [(PWR.STAT.IN_OK, 1), (PWR.STAT.PWR_EN, 1), (PWR.IN_MEAS.CV, cv)]
    if m.bootState = bWAIT then m.setBoot bPOWERUP else m

/-- The rails reach their set points, and the resonator and PHYs lock. Without the resonator the rails
stand and start-up goes no further. In FETCH and HALT only the H rail is raised, at a voltage that the manual does not state within the
range of R19, and P6 and P7 are enabled (R506). -/
def Mod.railsUp (m : Mod) : Mod :=
  if !m.parsnipUp || !m.is PWR.STAT.IN_OK || !m.is PWR.STAT.PWR_EN || m.power.tripLatch || m.rstState == stFAILED then m
  else if m.bootState = bPOWERUP then
    let m := [0, 1, 2].foldl (fun m r => m.setRail r (m.railSet r)) m
    let m := { m with power := { m.power with railsOn := [0, 1, 2] } }
    if m.power.resonator then m.setBoot bTRAIN else m
  else if m.fetching_ && m.power.railsOn.isEmpty then
    let (m, k) := m.fresh
    let m := { m with power := { m.power with railsOn := [0] }, doms := { m.doms with except := [142, 143] } }.setRail 0
      (580 + Config.freeNat k % 321)
    [6, 7].foldl (fun m p => (m.set (LNK.PORT_CTL.ENABLE p) 1).enablePort p) m
  else m

/-- The die-to-die links finish training, at start-up or in a warm recovery. -/
def Mod.dieLinksUp (m : Mod) : Mod :=
  if !m.parsnipUp || !m.power.resonator then m
  else if m.rstState = stRETRAIN then m.linksRetrained
  else if m.bootState = bTRAIN ∧ m.rstState = stRUN then m.recovOf fun r => { r with linksTrained := true } else m

/-- The CFG registers, and the enables that a configuration may set, are loaded (R480, R499). -/
def Mod.loadConfig (m : Mod) : Mod :=
  let a := (imgArea 2 0).1
  let m := [CFG.LAYOUT.o, CFG.BUDGET0.o, CFG.BUDGET1.o].foldl (fun m o => m.wr o (m.cfgWord a o)) m
  let m := m.set CFG.IMAGE.VERSION m.boot.cfgVersion
  [FEN.CFG.ENABLE, LDG.CFG.ENABLE].foldl (fun m f => m.set f (f.get (m.cfgWord a f.off))) m

/-- The end of start-up (R498): repairs loaded, local stores zeroed, configuration loaded, locks set, READY with role SPARE. -/
def Mod.becomeReady (m : Mod) (repaired : List Nat) : Mod :=
  let m := { m with doms := ⟨false, [], [], false, false⟩ }
  let m := ((m.loadRepairs (List.range 8) repaired).zeroStores.loadConfig).loadBudgets
  let m := (m.set GEN.LOCK.BITS (m.f GEN.LOCK.BITS ||| 3)).set MEM.STAT.TRAINED 255
  let m := ((m.set RST.STAT.STATE stRUN).setRole 0).loadManifests
  ((m.bootOf fun b => { b with seedPending := [0, 1, 2, 3] }).setBoot bREADY).raiseSEC 7 []

/-- The HBM finishes training, at start-up or in a warm recovery; `repaired` numbers the remap records that soft repair made good. -/
def Mod.hbmUp (m : Mod) (repaired : List Nat) : Mod :=
  if !m.parsnipUp then m
  else if m.rstState = stRETRAIN then m.memRetrained repaired
  else if m.bootState = bTRAIN ∧ m.rstState = stRUN ∧ m.recov.linksTrained then m.becomeReady repaired else m

/-- What is wrong with the image of a slot: a body that is no seed set breaks the format (R444). -/
def Mod.seedWhy (m : Mod) (slot : Nat) : Nat :=
  let a := imgArea 3 slot
  match m.imgWhy 3 a.1 a.2 with
  | 0 => if m.seedForm slot then 0 else 5
  | y => y

/-- A seed-set slot is verified (R444, R505): its version stands in the header of the set. -/
def Mod.verifySeed (m : Mod) (slot : Nat) : Mod :=
  let a := imgArea 3 slot
  match m.seedWhy slot with
  | 0 => m.sets [(TST.SET_STAT.VALID slot, 1), (TST.SET_STAT.VERSION slot, leNat (m.flashBytes (a.1 + 68) 4))]
  | y => (m.wr (TST.SET_STAT.o slot) 0).raiseSEC 3 [(SEC.EVT_INFO.WHY, y), (SEC.EVT_INFO.SLOT, slot)]

def Mod.seedDone (m : Mod) (slot : Nat) : Mod :=
  if !m.acts || !m.ready || !m.boot.seedPending.contains slot then m
  else (m.bootOf fun b => { b with seedPending := b.seedPending.filter (· != slot) }).verifySeed slot

/-! ## Staging (R506–R508, R510) -/

/-- The number of a staging source: MGMT 0, a module's FABRIC writes 1 + id, a port in FETCH or HALT 0x4000 + port. -/
def Mod.stageSource (m : Mod) (a : Agent) : Nat :=
  match a with
  | .mgmt => 0
  | .fabric src port => if m.fetching_ then 0x4000 + port.val else 1 + src.toNat

/-- Whether a source may write the staging registers under the claim in force (R510). -/
def Mod.claimOk (m : Mod) (src : Nat) : Bool := match m.boot.stageClaim with | none => true | some c => c == src

/-- A word is appended to the staging area; the first one claims it. -/
def Mod.stageWord (m : Mod) (src : Nat) (v : Word) : Mod :=
  let pos := m.f SEC.STAGE_POS.BYTES
  let m := m.putFlash (stageBase + pos) (leBytes 4 v.toNat)
  (m.bootOf fun b => { b with stageClaim := some src }).set SEC.STAGE_POS.BYTES (pos + 4)

/-- Staging is empty and unclaimed. -/
def Mod.stageClear (m : Mod) : Mod := (m.bootOf fun b => { b with stageClaim := none }).set SEC.STAGE_POS.BYTES 0

/-- `STAGE_CTL.DONE` (R507): `kind` 0 firmware, 1 configuration, 2 seed set. -/
def Mod.stageVerify (m : Mod) (kind slot : Nat) : Mod :=
  let k := kind + 1
  let size := min (imgArea k slot).2 (m.f SEC.STAGE_POS.BYTES)
  match m.imgWhy k stageBase size with
  | 0 =>
    let m := m.install k slot
    if m.fetching_ then (m.raiseSEC 4 []).coldReset
    else
      let m := m.stageClear
      let m := if k = 3 then m.verifySeed slot else m.set SEC.STAT.INSTALLED 1
      m.raiseSEC 4 []
  | y => m.stageClear.raiseSEC 5 [(SEC.EVT_INFO.WHY, y)]

/-! ## Serving an image (R509, R510) -/

/-- Bytes of the firmware image as stored in flash. -/
def Mod.fwLength (m : Mod) : Nat := m.imgLength 1 (imgArea 1 0).1

/-- The next WRITE of a serve: 256 bytes to `STAGE_D`, or at the end `STAGE_CTL` with `DONE` and kind firmware. -/
def Mod.serveSend (m : Mod) (port : Nat) : Mod :=
  let pos := m.boot.servePos
  let (info, pay) := if pos < m.fwLength
    then (ioInfo 2 ((SEC.STAGE_D.o 0) / 16) 0 0 true, m.flashBytes ((imgArea 1 0).1 + pos) 256)
    else (ioInfo 2 (SEC.STAGE_CTL.o / 16) 8 4 true, List.replicate 8 0 ++ leBytes 4 1 ++ List.replicate 4 0)
  let (m, pk) := m.numbered m.id 0 (m.tagFor m.steps.oldest) clsREQ 0 info pay
  (m.bootOf fun b => { b with serveSeq := pk.seq.toNat }).toPort port pk (some (port / 2))

def Mod.serveGo (m : Mod) : Mod :=
  let p := m.f SEC.FETCH_CTL.PORT
  (m.bootOf fun b => { b with serving := some p, servePos := 0 }).serveSend p

/-- The peer's ACK or REFUSED of the WRITE that is outstanding: the next one, or FETCH_FAIL. -/
def Mod.serveReply (m : Mod) (ok : Bool) : Mod :=
  match m.boot.serving with
  | none => m
  | some p =>
    if !ok then (m.bootOf fun b => { b with serving := none }).raiseSEC 5 []
    else if m.fwLength ≤ m.boot.servePos then m.bootOf fun b => { b with serving := none }
    else (m.bootOf fun b => { b with servePos := b.servePos + 256 }).serveSend p

/-! ## Attestation (R511, R512) -/

/-- A report is asked for; without an identity it is refused. -/
def Mod.attestGo (m : Mod) : Mod :=
  if !m.is SEC.STAT.ID_OK then m.sets [(SEC.ATT_STAT.DONE, 0), (SEC.ATT_STAT.ERR, 1)]
  else (m.bootOf fun b => { b with attBusy := true }).sets [(SEC.ATT_STAT.DONE, 0), (SEC.ATT_STAT.ERR, 0)]

/-- Bytes 0–159 of the report. -/
def Mod.report (m : Mod) : List Byte :=
  let nonce := (List.range 8).flatMap fun i => leBytes 4 (m.rd (SEC.ATT_NONCE.o i)).toNat
  -- the digest of an image that is not in force reads zero
  let digest (d : List Byte) : List Byte := d ++ List.replicate (48 - d.length) 0
  nonce ++ digest m.boot.fwDigest ++ digest m.boot.cfgDigest ++ leBytes 4 m.boot.fwVersion ++ leBytes 4 m.boot.cfgVersion ++
    leBytes 1 (m.f GEN.LOCK.BITS) ++ leBytes 1 m.role ++ leBytes 2 m.id ++ leBytes 4 m.boot.bootCount ++
    m.flashBytes (Config.serialAt % 0xFFFF9) 8 ++ leBytes 1 (m.bootState + 8 * m.f SEC.STAT.FETCHED) ++ List.replicate 7 0

/-- The report and its signature stand in `ATT_D0`–`63` (R512). -/
def Mod.attestEnd (m : Mod) : Mod :=
  let r := m.report
  let all := r ++ Config.attestSign (sha384 r)
  let m := (List.range 64).foldl (fun m i => m.wr (SEC.ATT_D.o i) (BitVec.ofNat 32 (leNat ((all.drop (4 * i)).take 4)))) m
  ((m.bootOf fun b => { b with attBusy := false }).set SEC.ATT_STAT.DONE 1).progress 152

/-- The report is formed in `ATT_D0`–`63`. -/
def Mod.attestDone (m : Mod) : Mod :=
  if !m.boot.attBusy then m
  else
    m.attestEnd

end Sys2Proof.Machine
end

