-- ==== Sys2Proof/Machine/Power.lean ====
section
/-! DEFINITION. Supplies, rails and thermal trip (R42, R47, R500, R515, R517, R525–R534) and the die and resonator failures of R420. -/

namespace Sys2Proof.Machine

def Mod.pwr (m : Mod) (f : Power → Power) : Mod := { m with power := f m.power }

/-! ## The 48 V input (R500, R526, R527) -/

/-- The measured input. -/
def Mod.noteInput (m : Mod) (cv : Nat) : Mod := (m.pwr fun p => { p with inCv := cv }).set PWR.IN_MEAS.CV cv

/-- The core rails are not kept on while a power input is missing in start-up (R497, R523): start-up waits for both again, and the ports of
FETCH and HALT are off until the H rail is up again (log entry 118). -/
def Mod.startUnpowered (m : Mod) : Mod :=
  if m.power.railsOn.isEmpty ∧ m.bootState ≠ bPOWERUP then m
  else
    let m := m.railsOff
    if m.fetching_ then
      let m := { m with doms := { m.doms with except := [] } }
      [6, 7].foldl (fun m p => (m.set (LNK.PORT_CTL.ENABLE p) 0).disablePort p) m
    else (m.recovOf fun r => { r with linksTrained := false }).setBoot bWAIT

/-- A supply fault: after READY every port is fenced, the other domains are switched off, `STATE` is FAILED and IN_LOW is raised, also where
`STATE` is FAILED already (R500, R534). -/
def Mod.supplyFault (m : Mod) : Mod :=
  if !m.parsnipUp then m
  else if m.ready then (m.fenceAll.failNow).raisePWR 3
  else m.startUnpowered

/-- The input stays outside 40–60 V for more than 1 ms, or drops below 36 V. -/
def Mod.inputLow (m : Mod) (cv : Nat) : Mod :=
  if 4000 ≤ cv ∧ cv ≤ 6000 then m
  else
    let m := (m.noteInput cv).set PWR.STAT.IN_OK 0
    { m with mgmt := { m.mgmt with regFault := 1 } }.supplyFault

/-- `PWR_EN` goes low. -/
def Mod.enableFell (m : Mod) : Mod := (m.set PWR.STAT.PWR_EN 0).supplyFault

/-- The auxiliary input is lost: Parsnip stops. -/
def Mod.auxiliaryLost (m : Mod) : Mod := m.set PWR.STAT.AUX_OK 0

/-- The internal capacitance reaches the input voltage: the input switch closes. -/
def Mod.inrushOver (m : Mod) (cv : Nat) : Mod :=
  let m := (m.noteInput cv).pwr fun p => { p with switchClosed := true }
  if 4000 ≤ cv ∧ cv ≤ 6000 then m.set PWR.STAT.IN_OK 1 else m

/-- The input rises above 65 V: the switch opens. -/
def Mod.inputHigh (m : Mod) (cv : Nat) : Mod :=
  if cv ≤ 6500 then m else (m.pwr fun p => { p with switchClosed := false }).inputLow cv

/-- The input falls below 36 V on unmating: the switch opens. -/
def Mod.unmated (m : Mod) (cv : Nat) : Mod :=
  if 3600 ≤ cv then m else (m.pwr fun p => { p with switchClosed := false }).inputLow cv

/-! ## RESET_N and the thermal trip (R432, R533, R534) -/

/-- `RESET_N` is held low. The latch of a trip holds until the hot die lets the reset take effect (R534). -/
def Mod.resetLow (m : Mod) : Mod :=
  m.coldReset.pwr fun p => { p with resetNLow := true, tripLatch := m.power.tripLatch && !m.power.hotDies.isEmpty }

/-- A die reaches 110 °C: THERMTRIP_N low, rails and transmitters off, the state latched; a warm recovery is abandoned and a field-test run
leaves no result. -/
def Mod.thermalTrip (m : Mod) (die : Nat) : Mod :=
  let m := (m.pwr fun p => { p with
    tripLatch := true, hotDies := if p.hotDies.contains die then p.hotDies else p.hotDies ++ [die] }).railsOff
  let m := { m with mgmt := { m.mgmt with regFault := 1 } }
  if m.boot.started then
    let m := if m.testing then (m.tst fun t => { t with results := [], heater := false, abort := false }).sets
      [(TST.STAT.STATE, 0), (TST.STAT.POINT, 0)] else m
    m.failNow
  else m

/-- Every die has cooled below 100 °C. A module that a hot die held in reset is released, with its latch, and starts. -/
def Mod.diesCooled (m : Mod) : Mod :=
  let m := m.pwr fun p => { p with hotDies := [], tripLatch := p.tripLatch && m.boot.started }
  if m.power.startPending then (m.pwr fun p => { p with startPending := false }).startRom else m

/-! ## Causes from the hardware (R17, R42, R420) -/

/-- The reference resonator stops: so does every clocked PHY, and no port is UP. Parsnip records the cause at every stage of start-up. -/
def Mod.resonatorStops (m : Mod) : Mod :=
  let m := (m.pwr fun p => { p with resonator := false }).portsDown
  if m.acts then (m.charge 0x09 254 2 0 0 0).warmCause 3 255 else m

/-- A core rail that is up is measured at `mv`, below 0.57 V. -/
def Mod.railFalls (m : Mod) (r mv : Nat) : Mod :=
  if !decide (mv < 570) || !m.parsnipUp || !m.power.railsOn.contains r || m.rstState == stFAILED then m
  else ((m.setRail r mv).charge 0x09 254 1 0 0 r).warmCause 2 255

/-- A die-to-die link that has trained loses its lock, or fails its frame check 16 times in a row. -/
def Mod.dieLinkFails (m : Mod) (l : Nat) : Mod :=
  if !m.parsnipUp || !(m.ready || m.recov.linksTrained) || m.rstState == stFAILED then m
  else (m.charge 0x08 (153 + l) 0 0 0 0).warmCause 4 (153 + l)

/-! ## Rails (R47, R517) -/

/-- Whether the sequencer holds a rail away from its set point. -/
def Mod.railTested (m : Mod) (r : Nat) : Bool := m.f TST.STAT.STATE == 2 && m.runRail == r

/-- A rail after a trim step down: 10 mV lower, where that leaves it within the range of R19. -/
def Mod.trimmedMv (m : Mod) (r : Nat) : Nat :=
  let low := if m.railTested r then 580 else 600
  if low + 10 ≤ m.railMv r then m.railMv r - 10 else m.railMv r

/-- The average input power over 1 ms exceeds 2800 W: C0 and C1 are lowered together by 10 mV, each as far as R19 lets it (log entry
77). -/
def Mod.trimDown (m : Mod) (w : Nat) : Mod :=
  if !m.acts then m
  else
  let m := m.set PWR.IN_MEAS.W w
  let v1 := m.trimmedMv 1
  let v2 := m.trimmedMv 2
  if w ≤ 2800 ∨ !m.power.railsOn.contains 1 ∨ (v1 = m.railMv 1 ∧ v2 = m.railMv 2) then m
  else
    let m := ((m.setRail 1 v1).setRail 2 v2).pwr fun p => { p with trim := p.trim + 1 }
    ((((m.tst fun t => { t with trimmed := t.trimmed || m.f TST.STAT.STATE == 2 }).set PWR.STAT.TRIMMED 1).count PWR.SN_TRIM_LO.o 1)).raisePWR 1

/-- The voltage one step of 10 mV nearer to `want`. -/
def mvToward (want now : Nat) : Nat := if now < want then min want (now + 10) else max want (now - 10)

/-- The voltage that a rail is held at without a trim: its set point, or the point of a test run. -/
def Mod.railWant (m : Mod) (r : Nat) : Nat := if m.railTested r then m.test.pointMv else m.railSet r

/-- After 10 ms below 2700 W C0 and C1 move one step toward the set voltage; the trim is over once both have it. -/
def Mod.trimUp (m : Mod) (w : Nat) : Mod :=
  if !m.acts then m
  else
  let m := m.set PWR.IN_MEAS.W w
  if 2700 ≤ w ∨ m.power.trim = 0 then m
  else
    let v1 := mvToward (m.railWant 1) (m.railMv 1)
    let v2 := mvToward (m.railWant 2) (m.railMv 2)
    let left := if v1 = m.railWant 1 ∧ v2 = m.railWant 2 then 0 else max 1 (m.power.trim - 1)
    let m := ((m.setRail 1 v1).setRail 2 v2).pwr fun p => { p with trim := left }
    (m.set PWR.STAT.TRIMMED (if left = 0 then 0 else 1)).raisePWR 2

/-- The junction temperature that a measured number stands for: within 2 °C of `T_TARGET` on the die that a run holds there (R442). -/
def Mod.junction (m : Mod) (r n : Nat) : Nat :=
  let t := m.planField 2 TST.T_TARGET.C
  if m.railTested r && t != 0 then t - 2 + n % 5 else n % 256

/-- The sensors read at a 1 ms tick: the junction temperature of a rail's die, and the input's voltage and power. They are measured
quantities, free (log entry 110). -/
def Mod.sensed (m : Mod) (r : Nat) : Mod :=
  if !m.acts then m
  else
    let (m, k) := m.fresh
    let n := Config.freeNat k
    let m := m.sets [(PWR.RAIL_MEAS.TJ r, m.junction r n), (PWR.IN_MEAS.W, n / 256 % 65536)]
    let m := if m.is PWR.STAT.IN_OK then m.set PWR.IN_MEAS.CV (4000 + n / 16777216 % 2001) else m
    if (if m.testing then m.runRail else planRail (m.f TST.PLAN.RAIL)) = r then m.set TST.STAT.TJ (m.junction r n) else m

/-- At a 1 ms tick a rail moves 10 mV toward its set point, unless a trim is in force, and the sensors are read. -/
def Mod.railStep (m : Mod) (r : Nat) : Mod :=
  let t := m.sensed r
  if !m.acts || !m.power.railsOn.contains r || m.railTested r || (r != 0 && m.power.trim != 0) then t
  else t.setRail r (mvToward (m.railSet r) (m.railMv r))

end Sys2Proof.Machine
end

