-- ==== Sys2Proof/Machine/Mgmt.lean ====
section
/-! DEFINITION. The management connector apart from registers: the Alert Response Address (R458, R522), PMBus at the regulator stage (R514)
and boundary scan (R513). Each leaves in `Mgmt.out` the bytes that the module drives; `nack` says that it did not acknowledge. -/

namespace Sys2Proof.Machine

/-- The module answers with bytes, or ignores a transaction, or answers NACK. -/
def Mod.driveOut (m : Mod) (bs : List Byte) : Mod := { m with mgmt := { m.mgmt with out := bs, nack := false } }
def Mod.silent (m : Mod) : Mod := { m with mgmt := { m.mgmt with out := [], nack := true } }

/-- SMBus address bytes: register interface and regulator stage, for a write; a read adds 1. -/
def smbRegs : Byte := 0x94
def smbPmbus : Byte := 0x96

/-- The Alert Response Address: the 7-bit address in bits [7:1] of the byte returned, with its PEC. -/
def Mod.alertResponse (m : Mod) : Mod :=
  if m.parsnipUp && m.alertLow then m.driveOut [smbRegs, pec8 [0x19, smbRegs]] else m.silent

/-! ## PMBus (R514)

The regulator stage's answers are the module's: none while Parsnip has failed or the auxiliary input is absent (R431, R522, R524). -/

/-- The regulator's readings: input in 10 mV and W, rail voltages in mV. -/
def Mod.pmReadings (m : Mod) : List Nat :=
  [m.power.inCv, m.f PWR.IN_MEAS.W, m.railMv 0, m.railMv 1, m.railMv 2, m.mgmt.regFault]

/-- A PMBus read returns bytes whose format the manual does not give, with the PEC over the whole transaction. -/
def Mod.pmRead (m : Mod) (cmd : Byte) : Mod :=
  if !m.parsnipUp then m.silent
  else
  let (m, k) := m.fresh
  let bs := Config.pmbus cmd.toNat m.mgmt.page (k :: m.pmReadings)
  m.driveOut (bs ++ [pec8 ([smbPmbus, cmd, smbPmbus + 1] ++ bs)])

/-- `PAGE`: 0 H, 1 C0, 2 C1; other pages are not accepted. A failed PEC is ignored. -/
def Mod.pmPage (m : Mod) (p pec : Byte) : Mod :=
  if !m.parsnipUp then m.silent
  else if pec ≠ pec8 [smbPmbus, 0x00, p] then m
  else if 2 < p.toNat then m.silent
  else { m with mgmt := { m.mgmt with page := p.toNat, out := [], nack := false } }

/-- `CLEAR_FAULTS`. -/
def Mod.pmClear (m : Mod) (pec : Byte) : Mod :=
  if !m.parsnipUp then m.silent
  else if pec ≠ pec8 [smbPmbus, 0x03] then m
  else { m with mgmt := { m.mgmt with regFault := 0, out := [], nack := false } }

/-- Commands of R514. -/
def pmCommands : List Nat := [0x00, 0x03, 0x79, 0x88, 0x89, 0x8B, 0x8C, 0x8D, 0x97]

/-- Any other command is answered with NACK. -/
def Mod.pmOther (m : Mod) (cmd : Byte) : Mod := if m.parsnipUp && pmCommands.contains cmd.toNat then m else m.silent

/-! ## Boundary scan (R513) -/

/-- The instruction numbers by which the model names IDCODE and BYPASS. -/
def irIDCODE : Nat := 1
def irBYPASS : Nat := 2

/-- `n` bits of a number, least significant first. -/
def bitList : Nat → Nat → List Bool
  | 0, _ => []
  | n + 1, x => (x % 2 == 1) :: bitList n (x / 2)

/-- Before `LOCK.SCAN` every instruction works only while `PWR_EN` is low; after it only BYPASS and IDCODE work. -/
def Mod.scanOk (m : Mod) (basic : Bool) : Bool :=
  if (m.f GEN.LOCK.BITS).testBit 1 then basic else !m.is PWR.STAT.PWR_EN

def Mod.scanIdcode (m : Mod) : Mod :=
  if m.scanOk true then { m with mgmt := { m.mgmt with ir := irIDCODE, tdo := bitList 32 0x08812A8B } } else m

/-- The bypass register, one bit, holds zero when it is selected. -/
def Mod.scanBypass (m : Mod) : Mod :=
  if m.scanOk true then { m with mgmt := { m.mgmt with ir := irBYPASS, tdo := [false] } } else m

/-- Another instruction: it is in force; what it shifts depends on pins outside the module. -/
def Mod.scanOther (m : Mod) (ir : Nat) : Mod :=
  if m.scanOk false then { m with mgmt := { m.mgmt with ir := ir + 3, tdo := [] } } else m

end Sys2Proof.Machine
end

