-- ==== Sys2Proof/Machine/RegRead.lean ====
section
/-! DEFINITION. Reading a register (R457–R464): the fields that the module forms at the read from what it holds, and what an agent
gets. No read changes any state of the module (R462). -/

namespace Sys2Proof.Machine

/-- Readable bits of a register: every access type but WO (R462). -/
def RegDef.readable (r : RegDef) : Nat := r.rw ||| r.ro ||| r.w1s

/-- The accumulator read registers, which read as zero outside debug mode (R126, R127). -/
def isAccReg (off : Nat) : Bool := decide (DBG.ACC_SEL.o ≤ off) && decide (off < DBG.ACC_D.o 16)

/-- A core register's word with the fields formed at the read: `CORE.STAT` and `Q_STAT.WAITING` (R191). -/
def Mod.coreWord (m : Mod) (n off : Nat) : Word :=
  let w := m.rd off
  if off = CORE.STAT.o n then
    let w := (CORE.STAT.QHALT n).put w (bitsOf 4 fun q => m.halted n q)
    (CORE.STAT.QBUSY n).put w (bitsOf 4 fun q =>
      !(m.queue n q).taken.isEmpty || m.f (CORE.Q_HEAD.OFFSET n q) != m.f (CORE.Q_TAIL.OFFSET n q))
  else match [0, 1, 2, 3].find? fun q => off == CORE.Q_STAT.o n q with
    | some q => (CORE.Q_STAT.WAITING n q).put w (m.waiting n q).toNat
    | none => w

/-- Pending table writes of this module (R216). -/
def Mod.pendingWrites (m : Mod) : Nat := (m.upd.writes.filter fun w => !w.mirror).length

/-- The word of a register as it stands, with every field that the module forms at the read. -/
def Mod.liveWord (m : Mod) (off : Nat) : Word :=
  let w := m.rd off
  let b := off / 0x1000
  if 256 ≤ b then m.coreWord (b - 256) off
  else match b with
  | 0 =>
    if off = GEN.EVT_SUM.o then BitVec.ofNat 32 m.evtSum
    else match [0, 1, 2, 3].find? fun i => off == GEN.EVT_SUM_C.o i with
      | some i => BitVec.ofNat 32 (m.evtSumCore i)
      | none => w
  | 3 => if off = RST.STAT.o then RST.STAT.HELD.put w m.heldNow.toNat else w
  | 6 =>
    if off = TST.RES.o then m.resWord
    else if off = TST.CLS_SUM.o then
      BitVec.ofNat 32 (m.classCount 1 + 0x100 * m.classCount 2 + 0x10000 * m.classCount 3)
    else w
  | 7 =>
    if isAccReg off && !m.is DBG.STAT.DEBUG then 0
    else if off = DBG.TR_BUF.o then DBG.TR_BUF.USED.put w m.trace.buf.length
    else w
  | 8 => if off = VIN.STAT.o then VIN.STAT.ROOT.put w m.isRoot.toNat else w
  | 9 =>
    if off = TOR.RANK.o then TOR.RANK.WRAP.put (TOR.RANK.Q.put w (m.rankOf m.id)) (bitsOf 3 m.wrapped)
    else if off = TOR.BRIDGE_STAT.o then TOR.BRIDGE_STAT.ACTIVE.put w m.bridging.toNat
    else w
  | 12 =>
    if off = LDG.STAT.o then LDG.STAT.UNPROT.put (LDG.STAT.REPLAYING.put w m.replaying.toNat) m.unprotected.toNat
    else if off = LDG.M_USED.o then LDG.M_USED.LINES.put w ((ringUsed m.ledger.marked + 63) / 64)
    else if off = LDG.IN_USED.o then LDG.IN_USED.LINES.put w ((ringUsed m.ledger.input + 63) / 64)
    else w
  | 14 =>
    if off = FEN.STAT.o then FEN.STAT.EARLY_FULL.put (FEN.STAT.OPEN.put w m.fen.ops.length) m.earlyFull.toNat
    else if off = FEN.EARLY_USED.o then FEN.EARLY_USED.UNITS.put w m.earlyUsed
    else w
  | 15 =>
    if off = UPD.STAT.o then UPD.STAT.PENDING.put w m.pendingWrites
    else if off = UPD.STK_HIGH.o then UPD.STK_HIGH.COUNT.put w m.stalkHigh
    else w
  | 16 =>
    if off = HLT.TC_STAT.o then HLT.TC_STAT.WINDOW.put w m.tileWindow.toNat
    else if HLT.WIN_STAT.o ≤ off ∧ off ≤ HLT.WIN_D.o 15 then m.windowDone.rd off
    else w
  | 17 => if off = MEM.STAT.o then MEM.STAT.HOLD_FULL.put w m.holdFull.toNat else w
  | _ => w

/-- The status of a read (R458): 5 for an address that no table defines (R463), 3 while the register's domain is down (R464). -/
def Mod.readStatus (m : Mod) (off : Nat) : Nat :=
  if (findReg (off / 0x1000) (off % 0x1000)).isNone then 5 else if m.down (m.regDom off) then 3 else 0

/-- What a read of an offset returns (R462–R464): WO and reserved fields read zero, as do undefined offsets and registers whose
domain is down. -/
def Mod.regRead (m : Mod) (off : Nat) : Word :=
  match findReg (off / 0x1000) (off % 0x1000) with
  | none => 0
  | some r => if m.down (m.regDom off) then 0 else m.liveWord off &&& BitVec.ofNat 32 r.readable

/-! ## Fabric reads (R459, R463) -/

/-- Whether a fabric access covers whole words on word boundaries; the module refuses any other with reason 0x01. -/
def wholeWords (a n : Nat) : Bool := a % 4 == 0 && n % 4 == 0

/-- The bytes that a fabric READ of register space returns. -/
def Mod.regBytes (m : Mod) (off n : Nat) : List Byte :=
  (List.range (n / 4)).flatMap fun i => leBytes 4 (m.regRead (off + 4 * i)).toNat

/-! ## Snapshots (R474–R478) -/

/-- Whether a register is a holding register that the snapshot command fills (R474). -/
def isHold (off : Nat) : Bool :=
  let b := off / 0x1000
  let o := off % 0x1000
  if 256 ≤ b then decide (0x400 ≤ o)
  else if [3, 4, 6, 8, 11, 12, 13, 14, 15, 16].contains b then decide (0x100 ≤ o)
  else match b with
  | 7 => (decide (0x100 ≤ o) && decide (o < 0x200)) || decide (0x400 ≤ o)
  | 9 => decide (0x400 ≤ o)
  | 10 => decide (0x100 ≤ o) && decide (o < 0x500) && decide (0x40 ≤ o % 0x80)
  | 17 => decide (0x400 ≤ o)
  | 18 => decide (0xA00 ≤ o)
  | _ => false

/-- `SNAP.CTL.TAKE` (R474). -/
def Mod.snapTake (m : Mod) : Mod := { m.set SNAP.STAT.BUSY 1 with resets := [] }

/-- Live words that the snapshot forms at the sample: the Vine time, and the sums over the bank that was last final (R236). -/
def Mod.sampleLive (m : Mod) : Mod :=
  let put (m : Mod) (o n : Nat) : Mod := (m.lset o n).lset (o + 4) (n / 2 ^ 32)
  let m := put m VIN.SN_TIME_LO.o m.vine.time.toNat
  let s := m.healthSums
  let m := put (put m HLT.SN_ELEM_LO.o (s.getD 0 0)) HLT.SN_ZERO_LO.o (s.getD 1 0)
  let m := put (put m HLT.SN_SAT_LO.o (s.getD 2 0)) HLT.SN_NONFIN_LO.o (s.getD 3 0)
  -- joules of input energy since the last snapshot: a measured quantity, free (log entry 10)
  let (m, e) := m.fresh
  m.count PWR.SN_ENERGY_LO.o (Config.freeNat e)

/-- Blocks whose holding values do not continue from the previous snapshot (R475). -/
def Mod.gapBlocks (m : Mod) : List Nat := m.gaps ++ ((List.range 156).filter m.down).flatMap domBlocks

/-- The samples of a snapshot that runs are taken and copied (R474–R477). -/
def Mod.snapshotEnd (m : Mod) (spread : Nat) (coinc : List Nat) : Mod :=
  let gb := m.gapBlocks
  let met := m.resets.filter fun e => coinc.contains e.1
  let hit (k : Nat) : Bool := met.any (·.1 == k)
  let copy (k live : Nat) : Nat := match met.find? (·.1 == k) with | some e => e.2 | none => live
  let m := m.sampleLive
  let m := { m with regs := terase isHold m.regs, gaps := [], resets := [] }
  let m := m.live.foldl (fun m e => if isHold e.1 && !m.down (regDomain e.1) then m.wr e.1 e.2 else m) m
  let m := m.wr SNAP.GAP.o (BitVec.ofNat 32 (bitsOf 19 gb.contains))
  let m := (List.range 4).foldl (fun m i =>
    m.wr (SNAP.GAP_C.o i) (BitVec.ofNat 32 (bitsOf 32 fun d => gb.contains (256 + 32 * i + d)))) m
  let m := m.wr SNAP.COINC.o (BitVec.ofNat 32 (bitsOf 3 hit))
  let m := (List.range 16).foldl (fun m i =>
    m.wr (SNAP.COINC_Q.o i) (BitVec.ofNat 32 (bitsOf 32 fun d => hit (3 + 32 * i + d)))) m
  let m := m.wr SNAP.L_COLL_DONE.o (BitVec.ofNat 32 (copy 0 (m.regRead TOR.COLL_DONE.o).toNat))
  let m := m.set SNAP.L_SLICES.COUNT (copy 1 (MPR.SCRUB_STAT.SLICES.get (m.regRead MPR.SCRUB_STAT.o)))
  let m := m.set SNAP.L_RM_UNITS.UNITS (copy 2 (DUP.RM_STAT.UNITS.get (m.regRead DUP.RM_STAT.o)))
  let m := (List.range 512).foldl (fun m w => m.wr (SNAP.L_Q_DONE.o w)
    (BitVec.ofNat 32 (copy (3 + w) (m.regRead (CORE.Q_DONE.o (w / 4) (w % 4))).toNat))) m
  m.sets [(SNAP.SPREAD.NS, spread), (SNAP.STAT.SEQ, m.f SNAP.STAT.SEQ + 1), (SNAP.STAT.BUSY, 0)]

/-- The end of a snapshot (R474–R477): every holding register takes its live word, zero where its domain is down; the live counters of
R476 are copied, and `coinc` names those whose reset fell in the handshake of the sample, among those that were reset since `TAKE`:
0 `COLL_DONE`, 1 `SLICES`, 2 `RM_UNITS`, 3 + w queue word w; their copies hold the value before the reset. `spread` is the Vine time between the first sample and the last. -/
def Mod.snapshotDone (m : Mod) (spread : Nat) (coinc : List Nat) : Mod :=
  if !m.is SNAP.STAT.BUSY then m
  else
    m.snapshotEnd spread coinc

end Sys2Proof.Machine
end

