-- ==== Sys2Proof/Machine/Debug.lean ====
section
/-! DEFINITION. Debug mode (R493, R494), the trace ring (R491, R492), the activity counters (R484), and what a nanosecond of Vine time
does while no command waits. -/

namespace Sys2Proof.Machine

/-! ## Debug mode (R493) -/

/-- Whether the role admits debug mode: SPARE, FENCED or PROBATION. -/
def Mod.debugRole (m : Mod) : Bool := m.role == 0 || m.role == 4 || m.role == 3

def Mod.debugEnter (m : Mod) : Mod := (m.set DBG.STAT.DEBUG 1).raiseDBG 3

/-- Leaving drops an accumulator read that was asked for and not taken. -/
def Mod.debugLeave (m : Mod) : Mod := { m.set DBG.STAT.DEBUG 0 with accReq := none }.raiseDBG 4

/-! ## The trace ring (R491, R492) -/

/-- Slots of the ring: 64 KiB units of 32-byte slots. -/
def Mod.traceN (m : Mod) : Nat := 2048 * m.f DBG.TR_SIZE.UNITS

def Mod.traceBase (m : Mod) : Nat := m.pair48 DBG.TR_BASE_LO.o DBG.TR_BASE_HI.o
def Mod.tracePub (m : Mod) : Nat := m.pair48 DBG.TR_PUB_LO.o DBG.TR_PUB_HI.o

/-- Slots written and not consumed. -/
def Mod.traceHeld (m : Mod) : Nat := ((m.rd DBG.TR_HEAD.o).toNat + 2 ^ 32 - (m.rd DBG.TR_TAIL.o).toNat) % 2 ^ 32

/-- Slots that an item moves at most. -/
def itemSlots : Nat := 4096

/-- Whether the ring has room for an item: always with `WRAP` set. -/
def Mod.traceRoom (m : Mod) : Bool := m.is DBG.TR_CTL.WRAP || decide (itemSlots ≤ m.traceN - m.traceHeld)

/-- Setting `TR_CTL.EN`: the head, the tail and the write position are zero. -/
def Mod.traceStart (m : Mod) : Mod :=
  let m := ((m.wr DBG.TR_HEAD.o 0).wr DBG.TR_TAIL.o 0).wr DBG.TR_WPOS.o 0
  { m with trace := { m.trace with fullRaised := false } }

/-- The slots that an item writes, with a PAD before a two-slot record that would straddle the end of the ring of `n` slots, and the
slots of the buffer that stay. A record moves whole. -/
def itemOf (pad : List Byte) (n : Nat) : Nat → Nat → List (List Byte) → List (List Byte) × List (List Byte)
  | 0, _, buf => ([], buf)
  | _, _, [] => ([], [])
  | k + 1, pos, s :: rest =>
    if s.getD 11 0 = 2 then
      match k, rest with
      | j + 1, s2 :: rest =>
        if pos + 1 = n then let (w, b) := itemOf pad n (j + 1) 0 (s :: s2 :: rest); (pad :: w, b)
        else let (w, b) := itemOf pad n j ((pos + 2) % n) rest; (s :: s2 :: w, b)
      | _, _ => ([], s :: rest)
    else let (w, b) := itemOf pad n k ((pos + 1) % n) rest; (s :: w, b)
termination_by structural k => k

/-- A flush item moves records from the buffer to the trace ring (R491, R492). -/
def Mod.flushMove (m : Mod) : Mod :=
  let n := m.traceN
  let pos := m.f DBG.TR_WPOS.SLOT
  let (w, rest) := itemOf (traceSlot m 254 0 0 1 0 0 []) n itemSlots pos m.trace.buf
  let writes := (List.range w.length).map fun i => (m.traceBase + 32 * ((pos + i) % n), w.getD i [])
  let m := writes.foldl (fun m w => m.unitStore (By.hub none) w.1 w.2) m
  let m := { m with trace := { m.trace with buf := rest, fullRaised := false } }
  let head := (m.rd DBG.TR_HEAD.o).toNat + w.length
  let m := (m.wr DBG.TR_HEAD.o (BitVec.ofNat 32 head)).set DBG.TR_WPOS.SLOT ((pos + w.length) % n)
  if m.is DBG.TR_PUB_HI.EN then m.unitStore (By.hub none) m.tracePub (leBytes 4 head) else m

/-- A flush item under the trace budget (R27, R491). One that a step boundary drops has moved nothing and is counted; one that finds no
room does not start, and TRACE_FULL is raised once. -/
def Mod.flushItem (m : Mod) (dropped : Bool) : Mod :=
  if !m.is DBG.TR_CTL.EN || m.down 149 || m.budget 2 == 0 then m
  else if !m.traceRoom then
    if m.trace.fullRaised then m else { m.raiseDBG 2 with trace := { (m.raiseDBG 2).trace with fullRaised := true } }
  else if dropped then m.count DBG.SN_TR_DROP_LO.o 1
  else
    m.flushMove

/-! ## Time (R484) -/

/-- Cores whose vector engine holds a started descriptor. -/
def Mod.vectorBusy (m : Mod) : List Nat :=
  ((m.queues.filter fun e => e.2.taken.any fun d => d.phase == 1 && engineOf (hOpcode d.bytes) == 3).map (·.1 / 4)).dedup

/-- Lines of a stopped pass may resume in any nanosecond: a free choice for each array (R80; log entry 40). -/
def Mod.resumeArrays (m : Mod) : Mod :=
  ((m.arrs.filter fun e => e.2.stopped).map (·.1)).foldl (fun m n =>
    let (m, k) := m.fresh
    if Config.freeBit k then m.setArr n { m.arr n with activity := 1 } else m) m

/-- A nanosecond of Vine time passes: the time and the activity counters rise. -/
def Mod.tick (m : Mod) : Mod :=
  let m := m.resumeArrays.windowDone
  let vec := m.vectorBusy
  let arr := ((m.arrs.filter fun e => e.2.activity != 0).map (·.1) ++ m.heating).dedup
  let hub (b : Bool) (o : Nat) (m : Mod) : Mod := if b then m.count o 1 else m
  let fen := m.busy 146
  let coll := m.busy 145
  let ck := m.busy 148
  let upd := ((List.range 8).filter fun s => m.busy (128 + s)).length
  let m := arr.foldl (fun m n => m.count (DBG.SN_ARR_BUSY_LO.o n) 1) m
  let m := vec.foldl (fun m n => m.count (DBG.SN_VEC_BUSY_LO.o n) 1) m
  let m := hub ck DBG.SN_CKPT_BUSY_LO.o (hub coll DBG.SN_COLL_BUSY_LO.o (hub fen DBG.SN_FEN_BUSY_LO.o m))
  let m := if upd = 0 then m else m.count DBG.SN_UPD_BUSY_LO.o upd
  { m with vine := { m.vine with time := m.vine.time + 1 } }

end Sys2Proof.Machine
end

