-- ==== Sys2Proof/Machine/RegWrite.lean ====
section
/-! DEFINITION. Writing a register (R462–R473): the reasons to reject a write, block by block, the word stored, and what an accepted
write does. -/

namespace Sys2Proof.Machine

/-! ## A write under judgement -/

/-- A register write: offset, the word that stands, the word written and whether it comes from FABRIC (R457). -/
structure RegW where
  off : Nat
  old : Word
  new : Word
  fabric : Bool
deriving DecidableEq, Repr

/-- A reason to reject: whether it holds, and its code (R468). -/
abbrev Cause := Bool × Nat

def cLocked : Nat := 2
def cState : Nat := 4
def cBusy : Nat := 3
def cRange : Nat := 5
def cValue : Nat := 1
def cReserved : Nat := 6

/-- The write would change a field (R468: rules that lock a field judge only such a write). -/
def RegW.chg (w : RegW) (f : Field) : Bool := w.off == f.off && f.get w.old != f.get w.new

/-- The write sets a field that is zero, or clears one that is not. -/
def RegW.sets (w : RegW) (f : Field) : Bool := w.chg f && f.get w.old == 0
def RegW.clears (w : RegW) (f : Field) : Bool := w.chg f && f.get w.new == 0

/-- The write puts 1 in a WO field. -/
def RegW.one (w : RegW) (f : Field) : Bool := w.off == f.off && f.get w.new != 0

/-- The write gives a field a value that satisfies `p`. -/
def RegW.gives (w : RegW) (f : Field) (p : Nat → Bool) : Bool := w.off == f.off && p (f.get w.new)

/-- The register's row. -/
def RegW.row (w : RegW) : Option RegDef := findReg (w.off / 0x1000) (w.off % 0x1000)

def RegW.rwMask (w : RegW) : Word := BitVec.ofNat 32 (match w.row with | some r => r.rw | none => 0)

/-- The write changes a read-write field of the register at `o`. -/
def RegW.chgReg (w : RegW) (o : Nat) : Bool := w.off == o && (w.old ^^^ w.new) &&& w.rwMask != 0

def RegW.chgAny (w : RegW) (l : List Nat) : Bool := l.any w.chgReg

/-- The EVT registers and WERR: a write whose SEQ matches clears CODE (R469, R471). -/
def isEvt (off : Nat) : Bool := evtOff (off / 0x1000) == some off

/-- Whether the write changes anything at all. -/
def RegW.acts (w : RegW) : Bool :=
  match w.row with
  | none => false
  | some r =>
    if isEvt w.off then w.new.toNat % 0x10000 == w.old.toNat % 0x10000 && w.old.toNat / 0x10000 % 256 != 0
    else (w.old ^^^ w.new) &&& BitVec.ofNat 32 r.rw != 0 || w.new &&& BitVec.ofNat 32 r.wo != 0 ||
      w.new &&& ~~~w.old &&& BitVec.ofNat 32 r.w1s != 0

/-- The word that an accepted write stores: RW fields as written, W1S bits joined; WO fields hold nothing (R462). -/
def RegW.stored (w : RegW) : Word :=
  match w.row with
  | none => w.old
  | some r => (w.old &&& ~~~(BitVec.ofNat 32 r.rw)) ||| (w.new &&& BitVec.ofNat 32 r.rw) ||| (w.new &&& BitVec.ofNat 32 r.w1s)

/-! ## Locks (R473) -/

def Mod.lockBit (m : Mod) (i : Nat) : Bool := (m.rd GEN.LOCK.o).getLsbD i

/-- Whether a lock bit that is set guards what the write would change. -/
def Mod.lockedWrite (m : Mod) (w : RegW) : Bool :=
  let b := w.off / 0x1000
  (m.lockBit 0 && w.chgReg CFG.LAYOUT.o) ||
  (m.lockBit 2 && b == 7 && w.acts) ||
  (m.lockBit 3 && (w.sets TST.CFG.MODE || w.one TST.CLS_CTL.CLEAR)) ||
  (m.lockBit 4 && (List.range 3).any fun r => w.chg (PWR.RAIL_SET.MV r)) ||
  (m.lockBit 5 && b == 5 && (w.acts || (decide (SEC.STAGE_D.o 0 ≤ w.off))) && w.off != SEC.ATT_CTL.o &&
    !((List.range 8).any fun i => w.off == SEC.ATT_NONCE.o i))

/-! ## Reasons by block -/

/-- Whether bytes lie wholly in core `n`'s local store, or wholly in the Stalk and workspace region outside the Stalk (R192). -/
def Mod.queueMem (m : Mod) (n a len : Nat) : Bool := inStore n a len || m.inWork a len

/-- R192 for queue `q` of core `n`; `m` holds the words as the write would leave them. -/
def Mod.enableBad (m : Mod) (n q : Nat) : Bool :=
  decide (m.ringSize n q < 16) || !m.queueMem n (m.ringBase n q) (64 * m.ringSize n q) ||
  (m.is (CORE.CQ_SIZE.RECORDS n q) &&
    !m.queueMem n (m.pair48 (CORE.CQ_BASE_LO.o n q) (CORE.CQ_BASE_HI.o n q)) (16 * m.f (CORE.CQ_SIZE.RECORDS n q))) ||
  (m.is (CORE.CNT_HI.EN n q) && !m.queueMem n (m.pair48 (CORE.CNT_LO.o n q) (CORE.CNT_HI.o n q)) 4)

def rejQueue (m m' : Mod) (w : RegW) (n q : Nat) : List Cause :=
  let en := m.enabled n q
  [ (en && w.chgAny [CORE.Q_BASE_LO.o n q, CORE.Q_BASE_HI.o n q, CORE.Q_SIZE.o n q, CORE.CQ_BASE_LO.o n q, CORE.CQ_BASE_HI.o n q,
      CORE.CQ_SIZE.o n q, CORE.CNT_LO.o n q, CORE.CNT_HI.o n q], cState),
    (en && w.chg (CORE.Q_CTL.FEED n q), cState),
    (m.is (CORE.Q_CTL.FEED n q) && w.chg (CORE.Q_TAIL.OFFSET n q), cState),
    (w.one (CORE.Q_CTL.RESUME n q) && !m.halted n q, cState),
    (w.gives (CORE.Q_TAIL.OFFSET n q) fun t => decide (m.ringSize n q ≤ t), cRange),
    (w.sets (CORE.Q_CTL.ENABLE n q) && m'.enableBad n q, cRange),
    (w.gives (CORE.Q_SIZE.UNITS n q) fun u => decide (u < 16) || decide (262144 < u), cValue) ]

/-- R192 for context `c` of core `n`. -/
def rejCtx (m : Mod) (w : RegW) (n c : Nat) : List Cause :=
  let s := m.ctxState n c
  [ (w.one (CORE.CTX_CTL.OPEN n c) && s == 1, cState),
    (w.one (CORE.CTX_CTL.TEARDOWN n c) && s != 1, cState),
    (w.one (CORE.CTX_CTL.OPEN n c) && s == 2, cBusy) ]

def rejCORE (m m' : Mod) (w : RegW) (n : Nat) : List Cause :=
  let o := w.off % 0x1000
  if 0x100 ≤ o ∧ o < 0x200 then rejQueue m m' w n ((o - 0x100) / 0x40)
  else if 0x300 ≤ o ∧ o < 0x400 then rejCtx m w n ((o - 0x300) / 0x10)
  else []

/-- R158. -/
def rejFEN (m : Mod) (w : RegW) : List Cause := [(w.clears FEN.CFG.ENABLE && !m.fen.ops.isEmpty, cBusy)]

/-- The layout and tables that a setting of `UPD.CFG.ENABLE` checks (R218). -/
def Mod.updBad (m : Mod) : Bool :=
  let e := m.extent
  (m.stalkSize != 0 && !m.inRegion 6 m.stalkBase m.stalkSize) || decide (m.sizeS < e) ||
  decide (e < m.listOff + 64 * m.listN) || decide (e < m.layerOff 0 + 8 * m.layerN) || decide (e < m.recAddr 0 + 8 * 4096) ||
  decide (e < m.hdrOff + hdrBytes) || m.layerN == 0 || decide (4096 < m.layerN) ||
  !m.inWork (m.pair48 UPD.LOSS_LO.o UPD.LOSS_HI.o) 16

/-- The table write that the TW registers describe (R216). -/
def Mod.twWrite (m : Mod) : TableWrite where
  step := m.pair48 UPD.TW_STEP_LO.o UPD.TW_STEP_HI.o
  table := m.f UPD.TW_TGT.TABLE
  index := m.f UPD.TW_TGT.INDEX
  word := m.f UPD.TW_WORD.VAL
  data := (List.range 4).map fun i => m.rd (UPD.TW_DATA.o i)
  number := m.dup.twNumber
  acked := false
  mirror := false

/-- Step c of R216. -/
def Mod.twBase (m : Mod) : Nat := m.pair48 UPD.STEP_LO.o UPD.STEP_HI.o

/-- The bytes that judging a table write reads: the rebase notes, and the update-list entry for a freeze-map word (R216). -/
def Mod.twRanges (m : Mod) (x : TableWrite) : List (Nat × Nat) :=
  (m.hdrOff + 272, 512) :: (if x.table = 4 ∧ x.index < m.listN then [(m.listOff + 64 * x.index, 64)] else [])

/-- Whether one of those bytes lies in an uncorrectable unit. -/
def Mod.twUnread (m : Mod) (x : TableWrite) : Bool :=
  (m.twRanges x).any fun r => (List.range ((r.1 + r.2 + 63) / 64 - r.1 / 64)).any fun i => m.outcome (r.1 / 64 + i) == 2

/-- Whether `INDEX` or `TW_WORD` is out of range. -/
def Mod.twRange (m : Mod) (x : TableWrite) : Bool :=
  match x.table with
  | 0 => decide (4096 ≤ x.index) || x.word != 0
  | 1 => decide (m.layerN ≤ x.index) || x.word != 0
  | 2 => decide (16 ≤ x.index) || x.word != 0
  | 3 => x.index != 0 || x.word != 0
  | 4 => decide (m.listN ≤ x.index) ||
      decide (((tentOf (m.peek (m.listOff + 64 * x.index) 64)).mapBits + 63) / 64 ≤ x.word)
  | _ => false

/-- Whether the data break R99, R100, R112 or R205, or `TABLE` is 5 to 7. -/
def twValue (x : TableWrite) : Bool :=
  let d (i : Nat) : Word := x.data.getD i 0
  let two := (d 0).toNat + 2 ^ 32 * (d 1).toNat
  let num (i : Nat) : Num := num32 (d i)
  let half : Num := .fin false 1 (-1)
  let zero : Num := .fin false 0 0
  let beta (a : Num) : Bool := a.isFinite && !(a.lt half) && a.lt numOne
  let pos (a : Num) : Bool := a.isFinite && !a.isZero && !(a.lt zero)
  let nonneg (a : Num) : Bool := a.isFinite && !(a.lt zero)
  match x.table with
  | 0 =>
    let r := scaleRec two
    !recOk two || (r.mode == 1 && (decide (r.tse < r.tmin) || decide (r.tmax < r.tse)))
  | 1 => !layerOk two
  | 2 => !(beta (num 0) && beta (num 1) && nonneg (num 2) && nonneg (num 3))
  | 3 => !(pos (num 1) && pos (num 2))
  | 4 => false
  | _ => true

/-- Whether the pending limit of R216 is reached, which holds for every write, one that would replace a pending one too. -/
def Mod.twFull (m : Mod) : Bool :=
  decide (64 ≤ m.pendingWrites + (m.notesIn m.mem).length)

/-- R218. -/
def rejUPD (m m' : Mod) (w : RegW) : List Cause :=
  let en := m.is UPD.CFG.ENABLE
  let x := m.twWrite
  let go := w.one UPD.TW_GO.GO
  [ (en && decide (UPD.LIST.o ≤ w.off) && decide (w.off ≤ UPD.LOSS_HI.o) && w.acts, cState),
    (w.sets UPD.CFG.ENABLE && m'.updBad, cRange),
    (w.sets UPD.CFG.ENABLE && !m.is HLT.CFG.ENABLE, cState),
    (go && !en, cState),
    (go && (decide (x.step < m.twBase + 3) || m.twRange x), cRange),
    (go && twValue x, cValue),
    (go && (m.twFull || m.twUnread x), cBusy) ]

/-- R238. -/
def rejHLT (m : Mod) (w : RegW) : List Cause :=
  [ (w.gives HLT.CFG.SKIP_MAX (· == 0), cValue),
    (w.gives HLT.QUIET_STEPS.STEPS (· == 0), cValue),
    (w.gives HLT.TC_CTL.EVERY (· == 0), cValue),
    (w.gives HLT.WIN_SEL.TABLE (· == 3), cValue),
    (m.is HLT.STAT.VOTING && w.chgReg HLT.CFG.o, cBusy),
    (m.health.winDue && w.one HLT.WIN_SEL.GO, cBusy),
    (w.clears HLT.CFG.ENABLE && m.is UPD.CFG.ENABLE, cState) ]

/-- R242: whether window `v` may be valid. -/
def Mod.windowBad (m : Mod) (v : Nat) : Bool :=
  let b := m.winBase v
  let n := m.winSize v
  n == 0 || !m.inRegion 6 b n ||
  ((List.range 16).any fun u => u != v && m.is (MEM.WIN_ATTR.VALID u) && overlap (b, n) (m.winBase u, m.winSize u)) ||
  (m.winKind v != 0 && m.touchesStalk b n)

/-- R260 for window `v`. -/
def rejWin (m m' : Mod) (w : RegW) (v : Nat) : List Cause :=
  let regs := [MEM.WIN_BASE_LO.o v, MEM.WIN_BASE_HI.o v, MEM.WIN_SIZE.o v, MEM.WIN_ATTR.o v]
  let valid := m.is (MEM.WIN_ATTR.VALID v)
  let sq := (MEM.WIN_ATTR.SQUASH v).get w.new
  let lsb := signed 9 ((MEM.WIN_ATTR.WLSB v).get w.new)
  let attr := w.off == MEM.WIN_ATTR.o v
  [ (valid && w.chgAny regs && !w.clears (MEM.WIN_ATTR.VALID v), cState),
    (w.clears (MEM.WIN_ATTR.VALID v) && m.is (MEM.WIN_ATTR.STEPTAG v) && m.is (MEM.WIN_STAT.OPEN v), cBusy),
    (m.is MEM.CFG.SQ_EN && w.chgAny regs && m.memside.waitAdds.any (·.win == v), cBusy),
    (w.gives (MEM.WIN_ATTR.VIEW v) (· == 3), cValue),
    (w.gives (MEM.WIN_ATTR.SQUASH v) (· == 3), cValue),
    (w.one (MEM.WIN_ATTR.STEPTAG v) && sq == 0, cValue),
    (attr && (decide (lsb < -192) || decide (96 < lsb) || (sq != 1 && lsb != 0)), cValue),
    (w.sets (MEM.WIN_ATTR.VALID v) && m'.windowBad v, cRange),
    (w.one (MEM.WIN_CTL.CLEAR v) && (!valid || m.is (MEM.WIN_ATTR.STEPTAG v)), cState) ]

def rejMEM (m m' : Mod) (w : RegW) : List Cause :=
  let o := w.off % 0x1000
  if 0x100 ≤ o ∧ o < 0x300 then rejWin m m' w ((o - 0x100) / 0x20) else []

/-- R282. -/
def rejMPR (m m' : Mod) (w : RegW) : List Cause :=
  let busy := m.is MPR.STAT.SCRUB_BUSY
  let go := w.one MPR.SCRUB_CTL.GO
  let ask := w.one MPR.REMAP_REQ_HI.GO
  let len := m.f MPR.SCRUB_LEN.UNITS
  [ (w.gives MPR.CFG.CE_REMAP (· == 0), cValue),
    (w.gives MPR.CFG.PIN_MARK (· == 0), cValue),
    (busy && (go || w.chgAny [MPR.SCRUB_BASE_LO.o, MPR.SCRUB_BASE_HI.o, MPR.SCRUB_LEN.o, MPR.SCRUB_SUM_LO.o, MPR.SCRUB_SUM_HI.o]), cBusy),
    (go && (len == 0 || !inHbm m.scrubBase (len * sliceBytes) || !inHbm m.scrubSum 64), cRange),
    (w.one MPR.SCRUB_CTL.ABORT && !busy, cState),
    (ask && !inHbm m'.remapAsked 64, cRange),
    (ask && m.remapBusy m'.remapAsked, cBusy) ]

/-- R316 for port `p`. -/
def rejPort (m : Mod) (w : RegW) (p : Nat) : List Cause :=
  let en := m.is (LNK.PORT_CTL.ENABLE p)
  let shares := (List.range 8).map fun c => m.share p c / 64
  let st := m.pstate p
  [ (en && (w.chgAny ((List.range 4).map (LNK.CRED.o p)) || w.chg (LNK.PORT_CTL.FLOOR p)), cState),
    (w.sets (LNK.PORT_CTL.ENABLE p) && (decide (512 < shares.sum) || shares.any fun s => decide (s < 4)), cRange),
    (w.gives (LNK.PORT_CTL.FLOOR p) fun f => f == 0 || decide (9 < f), cValue),
    (w.gives (LNK.PORT_CTL.HB_MISS p) (· == 0), cValue),
    ((List.range 4).any fun k =>
      (w.gives (LNK.CRED.SHARE_A p k) fun s => decide (512 < s)) || w.gives (LNK.CRED.SHARE_B p k) fun s => decide (512 < s), cValue),
    (w.one (LNK.PORT_CTL.RETRAIN p) && (st == pDISABLED || st == pFENCED), cState),
    (w.one (LNK.PORT_CTL.FENCE p) && st == pDISABLED, cState),
    (w.one (LNK.PORT_CTL.UNFENCE p) && !(m.port p).ours, cState) ]

def Mod.anyPortOn (m : Mod) : Bool := (List.range 8).any fun p => m.is (LNK.PORT_CTL.ENABLE p)

def rejLNK (m : Mod) (w : RegW) : List Cause :=
  let o := w.off % 0x1000
  if 0x100 ≤ o ∧ o < 0x500 then rejPort m w ((o - 0x100) / 0x80)
  else [(m.anyPortOn && w.chgReg LNK.CAPS.o, cState), (w.gives LNK.CAPS.RATES (· == 0), cValue)]

/-- Whether `TORUS`, `ORIGIN` or `SIZE` breaks R317 or R319, or this module's id lies outside the slice (R341). -/
def Mod.torusBad (m : Mod) : Bool :=
  let lim : List Nat := [32, 16, 16]
  ([0, 1, 2].any fun a => m.torus a == 0 || decide (lim.getD a 0 < m.torus a) || m.side a == 0 || decide (m.torus a < m.side a) ||
    decide (m.torus a ≤ m.origin a)) || !m.inSlice m.id

/-- R341. -/
def rejTOR (m m' : Mod) (w : RegW) : List Cause :=
  let above (f : Field) (lim : Nat) : Bool := w.gives f fun v => v == 0 || decide (lim < v)
  [ ((m.is TOR.CFG.ENABLE || m.anyPortOn) && w.chgAny [TOR.ID.o, TOR.TORUS.o, TOR.ORIGIN.o, TOR.SIZE.o], cState),
    (w.sets TOR.CFG.ENABLE && m.torusBad, cRange),
    (above TOR.TORUS.TX 32 || above TOR.TORUS.TY 16 || above TOR.TORUS.TZ 16 || above TOR.SIZE.SX (m'.torus 0) ||
      above TOR.SIZE.SY (m'.torus 1) || above TOR.SIZE.SZ (m'.torus 2), cValue),
    (m.is TOR.COLL_CTL.ENABLE && w.chgAny [TOR.COLL_PROG_LO.o, TOR.COLL_PROG_HI.o, TOR.COLL_CNT_LO.o, TOR.COLL_CNT_HI.o], cState),
    (w.one TOR.COLL_CTL.RESUME && !m.is TOR.COLL_STAT.STOPPED, cState),
    (m.bridging && w.chgAny [TOR.BRIDGE.o, TOR.IN_BASE_LO.o, TOR.IN_BASE_HI.o, TOR.IN_SIZE.o, TOR.LR_BASE_LO.o, TOR.LR_BASE_HI.o],
      cBusy) ]

/-- R343. -/
def rejVIN (m : Mod) (w : RegW) : List Cause :=
  [(w.chgReg VIN.CFG.o && (List.range 6).any fun p => m.pstate p == pUP, cState)]

/-- The plan registers (R368). -/
def planRegs : List Nat :=
  [DUP.TKO_EPOCH.o, DUP.SW_WIN_LO.o, DUP.SW_WIN_HI.o, DUP.LS_CORE.o, DUP.RW_TBL_LO.o, DUP.RW_TBL_HI.o, DUP.SOLO_TBL_LO.o,
    DUP.SOLO_TBL_HI.o, DUP.SOLO_COLL_LO.o, DUP.SOLO_COLL_HI.o, DUP.SW_LOFF_LO.o, DUP.SW_LOFF_HI.o, DUP.SW_SIZE.o]

/-- The role that a write of `DUP.CFG` asks for: a zero asks for SPARE only where the role table has that request, in a FENCED module
with no fenced port (R345, R462). -/
def Mod.roleAsked (m : Mod) (w : RegW) : Option Nat :=
  if w.off ≠ DUP.CFG.o then none
  else
    let r := DUP.CFG.ROLE_REQ.get w.new
    if r = 0 then (if m.roleOk 0 then some 0 else none) else some r

/-- Whether a write of one half of `SWAP_STEP` makes it less than two beyond the step at RM_DONE (R388) whatever the other half will be, or
with a high half that asks for the low one (R466; log entry 121). -/
def Mod.swapEarly (m : Mod) (w : RegW) : Bool :=
  let b := m.dup.rmStep + 2
  m.swapFilled && (if w.off = DUP.SWAP_STEP_HI.o then decide (w.new.toNat % 2 ^ 16 < b / 2 ^ 32)
    else w.off == DUP.SWAP_STEP_LO.o && m.f DUP.SWAP_STEP_HI.VAL == b / 2 ^ 32 && decide (w.new.toNat < b % 2 ^ 32))

/-- R388. The values that no role request has break the value rule alone (log entry 53). -/
def rejDUP (m : Mod) (w : RegW) : List Cause :=
  let pend := m.is DUP.ROLE.TKO_PENDING
  [ (m.is DUP.ROLE.ARMED && (w.chgAny (DUP.PARTNER.o :: DUP.TRAY.o :: planRegs) || w.chg DUP.CFG.PPORT), cState),
    (w.one DUP.TKO_CTL.ARM && !m.planOk, cState),
    (w.one DUP.TKO_CTL.REVERSE && !(pend && m.reverseOk), cState),
    (w.one DUP.TKO_CTL.SWAP_GO && !m.swapOk, cState),
    (w.one DUP.TKO_CTL.MFILL_GO && !m.mfillOk, cState),
    (w.one DUP.TKO_CTL.CONFIRM && !pend, cState),
    ((m.roleAsked w).any fun r => r == 2 || decide (4 ≤ r), cValue),
    ((m.roleAsked w).any fun r => r != 2 && decide (r < 4) && !m.roleOk r, cState),
    (w.gives DUP.PROBE_WAIT.US fun u => decide (u < 10) || decide (800 < u), cValue),
    (w.gives DUP.RM_RATE.GBPS (· == 0), cValue),
    (m.swapEarly w, cRange) ]

/-- R390. -/
def rejLDG (m m' : Mod) (w : RegW) : List Cause :=
  [ (m.is LDG.CFG.ENABLE && w.chgAny [LDG.IN_SIZE.o, LDG.IN_KEEP.o], cState),
    (w.off == LDG.IN_SIZE.o && decide (m.sizeL < 0x100000 + m'.inRing + 0x1000000), cRange),
    (w.gives LDG.IN_KEEP.STEPS (· == 0), cValue) ]

/-- Whether the parity group registers break R412. -/
def Mod.groupBad (m : Mod) : Bool :=
  !m.members.all m.inSlice || !decide (m.members.Nodup) || m.member m.gpos != m.id

/-- Whether a restore may start over a checkpoint whose copy waits for a step that is held FAILED (R402). -/
def Mod.restoreOverrides (m : Mod) : Bool := m.ckptPhase == 1 && m.steps.failed.isSome

/-- R412. -/
def rejBLB (m m' : Mod) (w : RegW) : List Cause :=
  let en := m.is BLB.CFG.ENABLE
  let ph := m.ckptPhase
  let g := m'.f BLB.DR_CTL.GEN
  let st := m.f (BLB.GEN_STAT.STATE g)
  [ ((en || ph != 0) && w.chgAny ([BLB.JOB_LO.o, BLB.JOB_HI.o, BLB.GROUP.o, BLB.IDENT.o] ++ (List.range 4).map BLB.MEMBER.o), cState),
    (w.sets BLB.CFG.ENABLE && m.groupBad, cRange),
    (w.one BLB.RS_CTL.GO && (m.is UPD.CFG.ENABLE || (ph != 0 && !m.restoreOverrides)), cState),
    (w.one BLB.DR_CTL.GO && ((st != 3 && st != 4) || m.is (BLB.GEN_STAT.DAMAGED g)), cState),
    (w.one BLB.IM_CTL.BEGIN && (ph != 0 || en), cState),
    (w.one BLB.IM_CTL.DONE && ph != 6, cState),
    (w.one BLB.DR_CTL.GO && m.is BLB.STAT.DRAIN, cBusy),
    (w.gives BLB.DR_RATE.GBPS (· == 0), cValue),
    (w.gives BLB.IM_C.C (· == 0), cValue) ]

/-- R436. -/
def rejRST (m : Mod) (w : RegW) : List Cause :=
  let win (f : Field) : Bool := w.gives f fun v => v != 0 && (decide (v < 1000) || decide (16000000 < v))
  [ (w.one RST.CTL.WARM && m.rstState != stRUN, cBusy),
    (w.one RST.CTL.COLD && w.fabric, cState),
    (win RST.SP_WIN0.US || win RST.SP_WIN1.US || win RST.SP_WIN2.US || win RST.SP_WIN3.US, cValue),
    (w.gives RST.QUIESCE_WAIT.US fun v => decide (v < 50) || decide (10000 < v), cValue),
    (w.gives RST.RECOV_WAIT.SECONDS fun v => decide (v < 4) || decide (60 < v), cValue),
    (w.gives RST.SP_SEL.DOMAIN fun d => decide (155 < d), cRange) ]

/-- Whether the plan breaks what `RUN_CTL.GO` checks (R456). -/
def Mod.planBad (m : Mod) : Bool :=
  m.unitsSet.isEmpty || (m.is TST.PLAN.CONTENT && !m.is (TST.SET_STAT.VALID (m.f TST.PLAN.SLOT))) ||
  decide (m.railSet (planRail (m.f TST.PLAN.RAIL)) < m.f TST.V_FLOOR.MV) ||
  m.unitsSet.any fun d => decide (136 ≤ d) && decide (d < 144) && m.is (LNK.PORT_CTL.ENABLE (d - 136))

def noUnit (u : Nat) : Bool := decide (155 < u) && u != 254

/-- R456. A `GO` outside field-test mode is rejected as the writes of the plan are. -/
def rejTST (m : Mod) (w : RegW) : List Cause :=
  let mode := m.is TST.CFG.MODE
  let go := w.one TST.RUN_CTL.GO
  [ (w.sets TST.CFG.MODE && !m.testModeOk, cState),
    (w.clears TST.CFG.MODE && m.testing, cState),
    (!mode && (go || w.chgAny ([TST.PLAN.o, TST.V_FLOOR.o, TST.T_TARGET.o] ++ (List.range 5).map TST.UNITS.o)), cState),
    (go && m.testing, cBusy),
    (w.one TST.RUN_CTL.ABORT && !m.testing, cState),
    (go && m.planBad, cRange),
    (w.gives TST.PLAN.RAIL (· == 3), cValue),
    (w.gives TST.PLAN.REPEAT (· == 0), cValue),
    (w.gives TST.V_FLOOR.MV fun v => decide (v < 580) || decide (900 < v) || v % 10 != 0, cValue),
    (w.gives TST.T_TARGET.C fun t => t != 0 && (decide (t < 75) || decide (100 < t)), cValue),
    (w.gives TST.TRANS_MAX.COUNT (· == 0), cValue),
    (w.gives TST.TRANS_MAX.WINDOW (· == 0), cValue),
    (w.gives (TST.UNITS.MASK 4) fun u => decide (2 ^ 28 ≤ u), cValue),
    (w.gives TST.CLS_SEL.UNIT noUnit, cValue),
    (w.gives TST.RES_SEL.UNIT noUnit, cValue),
    (w.one TST.CLS_CTL.CLEAR && !mode, cState) ]

/-- R467, R483. -/
def rejCFG (w : RegW) : List Cause :=
  [ (w.fabric && w.chgReg CFG.LAYOUT.o, cState),
    (w.off == CFG.LAYOUT.o && !layoutOk w.new.toNat, cValue) ]

def rejSNAP (m : Mod) (w : RegW) : List Cause := [(w.one SNAP.CTL.TAKE && m.is SNAP.STAT.BUSY, cBusy)]

/-- R127, R496. -/
def rejDBG (m m' : Mod) (w : RegW) : List Cause :=
  let dbg := m.is DBG.STAT.DEBUG
  let en := m.is DBG.TR_CTL.EN
  let n := 32 * m.traceN
  [ (!dbg && w.off == DBG.ACC_SEL.o && w.acts, cState),
    (w.one DBG.ACC_SEL.GO && m.accReq.isSome, cBusy),
    (w.one DBG.CTL.ENTER && (dbg || !m.debugRole), cState),
    (w.one DBG.CTL.LEAVE && !dbg, cState),
    (en && (w.chgAny ([DBG.TR_KINDS.o, DBG.TR_HUB.o, DBG.TR_BASE_LO.o, DBG.TR_BASE_HI.o, DBG.TR_SIZE.o, DBG.TR_PUB_LO.o,
      DBG.TR_PUB_HI.o] ++ (List.range 4).map DBG.TR_CORES.o) || w.chg DBG.TR_CTL.WRAP), cState),
    (m.is DBG.TR_CTL.WRAP && w.chgReg DBG.TR_TAIL.o, cState),
    (w.sets DBG.TR_CTL.EN && (n == 0 || !m.inWork m.traceBase n || (m.is DBG.TR_PUB_HI.EN && !m.inWork m.tracePub 4)), cRange),
    (w.off == DBG.TR_TAIL.o && decide (m.traceN < m'.traceHeld), cRange) ]

/-- R517. -/
def rejPWR (w : RegW) : List Cause :=
  (List.range 3).map fun r => (w.gives (PWR.RAIL_SET.MV r) fun v => !railOk v, cValue)

/-- Whether the staging registers take writes (R506, R517). -/
def Mod.stageOpen (m : Mod) : Bool := (m.fetching_ || m.ready) && m.is SEC.FETCH_CTL.ALLOW

/-- R467, R510, R517. -/
def rejSEC (m : Mod) (w : RegW) (a : Agent) : List Cause :=
  let data := decide (SEC.STAGE_D.o 0 ≤ w.off)
  let done := w.one SEC.STAGE_CTL.DONE
  let stage := data || done || w.one SEC.STAGE_CTL.ABORT
  let seed := done && SEC.STAGE_CTL.KIND.get w.new == 2
  let serve := w.one SEC.FETCH_CTL.SERVE
  [ (w.fabric && w.chg SEC.FETCH_CTL.ALLOW, cState),
    (stage && !m.stageOpen, cState),
    (seed && !(m.ready && m.is TST.CFG.MODE && !m.testing), cState),
    (serve && !m.ready, cState),
    (serve && m.boot.serving.isSome, cBusy),
    (w.one SEC.ATT_CTL.GO && m.boot.attBusy, cBusy),
    (stage && !m.claimOk (m.stageSource a), cBusy),
    (w.gives SEC.FETCH_CTL.PORT fun p => p != 6 && p != 7, cValue),
    (w.gives SEC.STAGE_CTL.KIND (· == 3), cValue),
    (data && decide (stageSize < m.f SEC.STAGE_POS.BYTES + 4), cRange) ]

/-- The reasons of a block's own rules; `m'` holds the word as the write would leave it. -/
def rejBlock (m m' : Mod) (w : RegW) (a : Agent) : List Cause :=
  let b := w.off / 0x1000
  if 256 ≤ b then rejCORE m m' w (b - 256)
  else match b with
  | 1 => rejCFG w
  | 2 => rejSNAP m w
  | 3 => rejRST m w
  | 4 => rejPWR w
  | 5 => rejSEC m w a
  | 6 => rejTST m w
  | 7 => rejDBG m m' w
  | 8 => rejVIN m w
  | 9 => rejTOR m m' w
  | 10 => rejLNK m w
  | 11 => rejDUP m w
  | 12 => rejLDG m m' w
  | 13 => rejBLB m m' w
  | 14 => rejFEN m w
  | 15 => rejUPD m m' w
  | 16 => rejHLT m w
  | 17 => rejMEM m m' w
  | 18 => rejMPR m m' w
  | _ => []

/-- The code recorded when several causes hold: the first in the order of R468. -/
def worstCause (l : List Cause) : Option Nat :=
  [cReserved, cLocked, cState, cBusy, cRange, cValue].find? fun c => l.any fun x => x.1 && x.2 == c

/-- The write of an agent at an offset, as it stands in the module. -/
def Mod.regW (m : Mod) (a : Agent) (off : Nat) (v : Word) : RegW :=
  ⟨off, m.rd off, v, match a with | .mgmt => false | .fabric _ _ => true⟩

/-- Why a write is rejected, or nothing (R463, R464, R468). -/
def Mod.regJudge (m : Mod) (a : Agent) (off : Nat) (v : Word) : Option Nat :=
  match findReg (off / 0x1000) (off % 0x1000) with
  | none => some cRange
  | some r =>
    let w := m.regW a off v
    if v &&& ~~~(BitVec.ofNat 32 (r.rw ||| r.ro ||| r.wo ||| r.w1s)) ≠ 0 then some cReserved
    else if m.lockedWrite w then some cLocked
    else
      -- `ACC_SEL` addresses the core that it names as the write leaves it
      let at_ := if off = DBG.ACC_SEL.o then (m.wr off w.stored).regDom off else m.regDom off
      worstCause ((m.down at_, cBusy) :: rejBlock m (m.wr off w.stored) w a)

/-- A rejection is recorded in WERR (R469). -/
def Mod.reject (m : Mod) (a : Agent) (off code : Nat) : Mod :=
  let seq := nextSeq ((m.rd GEN.WERR.o).toNat % 0x10000)
  let (ag, src) := match a with | .mgmt => (0, 0) | .fabric s _ => (1, s.toNat)
  let m := m.wr GEN.WERR.o (BitVec.ofNat 32 (seq + 0x10000 * code + 0x1000000 * ag))
  (m.wr GEN.WERR_ADDR.o (BitVec.ofNat 32 off)).wr GEN.WERR_SRC.o (BitVec.ofNat 32 src)

/-! ## What an accepted write does -/

/-- A table write is made pending, replaces one of the same item and step, and goes to the partner (R216). -/
def Mod.submitWrite (m : Mod) : Mod :=
  let x := m.twWrite
  let m := m.updOf fun u => { u with writes := (u.writes.filter fun y => !y.same x) ++ [x] }
  (m.dupOf fun d => { d with twNumber := (d.twNumber + 1) % 65536 }).forwardWrite x

def actCORE (m : Mod) (w : RegW) (n : Nat) : Mod :=
  let o := w.off % 0x1000
  if 0x100 ≤ o ∧ o < 0x200 then
    let q := (o - 0x100) / 0x40
    let m := if w.sets (CORE.Q_CTL.ENABLE n q) then m.enableQueue n q
      else if w.clears (CORE.Q_CTL.ENABLE n q) then m.disableQueue n q else m
    let m := if w.one (CORE.Q_CTL.RESUME n q) then m.resumeQueue n q else m
    if w.off = CORE.Q_TAIL.o n q then m.take n q else m
  else if 0x300 ≤ o ∧ o < 0x400 then
    let c := (o - 0x300) / 0x10
    if w.one (CORE.CTX_CTL.OPEN n c) then m.set (CORE.CTX_STAT.STATE n c) 1
    else if w.one (CORE.CTX_CTL.TEARDOWN n c) then m.teardownCtx n c
    else m
  else m

def actLNK (m : Mod) (w : RegW) : Mod :=
  let o := w.off % 0x1000
  if 0x100 ≤ o ∧ o < 0x500 then
    let p := (o - 0x100) / 0x80
    let m := if w.sets (LNK.PORT_CTL.ENABLE p) then m.enablePort p
      else if w.clears (LNK.PORT_CTL.ENABLE p) then m.disablePort p else m
    let m := if w.one (LNK.PORT_CTL.RETRAIN p) then m.retrainPort p else m
    let m := if w.one (LNK.PORT_CTL.FENCE p) then m.fencePort p else m
    if w.one (LNK.PORT_CTL.UNFENCE p) then m.unfencePort p else m
  else m

def actDUP (m : Mod) (w : RegW) (ask : Option Nat) : Mod :=
  let m := if w.clears DUP.CFG.ENABLE then m.dupOff else m
  let m := match ask with | some r => m.setRole r | none => m
  let m := if w.one DUP.TKO_CTL.ARM then m.set DUP.ROLE.ARMED 1 else m
  let m := if w.one DUP.TKO_CTL.DISARM then m.set DUP.ROLE.ARMED 0 else m
  let m := if w.one DUP.TKO_CTL.CONFIRM then m.set DUP.ROLE.TKO_PENDING 0 else m
  let m := if w.one DUP.TKO_CTL.REVERSE then (m.set DUP.ROLE.TKO_PENDING 0).startSwap true else m
  let m := if w.one DUP.TKO_CTL.SWAP_GO then m.startSwap false else m
  if w.one DUP.TKO_CTL.MFILL_GO then m.startFill 2 else m

def actSEC (m : Mod) (w : RegW) (a : Agent) : Mod :=
  if SEC.STAGE_D.o 0 ≤ w.off then m.stageWord (m.stageSource a) w.new
  else if w.one SEC.STAGE_CTL.ABORT then m.stageClear
  else if w.one SEC.STAGE_CTL.DONE then m.stageVerify (SEC.STAGE_CTL.KIND.get w.new) (SEC.STAGE_CTL.SLOT.get w.new)
  else if w.one SEC.FETCH_CTL.SERVE then m.serveGo
  else if w.one SEC.ATT_CTL.GO then m.attestGo
  else m

def actTST (m : Mod) (w : RegW) : Mod :=
  if w.clears TST.CFG.MODE then m.leaveTest
  else if w.one TST.RUN_CTL.GO then m.runGo
  else if w.one TST.RUN_CTL.ABORT then m.runAbort
  else if w.one TST.CLS_SEL.GO then m.classWindow
  else if w.one TST.CLS_CTL.CLEAR then m.classClear
  else if w.one TST.HIST_SEL.GO then m.histWindow
  else m

def actDBG (m : Mod) (w : RegW) : Mod :=
  let m := if w.one DBG.CTL.ENTER then m.debugEnter else m
  let m := if w.one DBG.CTL.LEAVE then m.debugLeave else m
  let m := if w.sets DBG.TR_CTL.EN then m.traceStart else m
  if w.one DBG.ACC_SEL.GO then { m.set DBG.ACC_STAT.DONE 0 with accReq := some w.new } else m

/-- The loss records are numbered anew when the write makes the module begin to act as the bridge (R336). -/
def actTOR (m : Mod) (w : RegW) : Mod :=
  let m := if w.off ≠ TOR.COLL_CTL.o ∧ m.bridging ∧ !(m.wr w.off w.old).bridging then m.setRecords 0 else m
  let m := if w.sets TOR.COLL_CTL.ENABLE then m.collEnable else if w.clears TOR.COLL_CTL.ENABLE then m.collDisable else m
  if w.one TOR.COLL_CTL.RESUME then m.collResumeGo else m

def actBLB (m : Mod) (w : RegW) : Mod :=
  let m := if w.one BLB.CTL.NOW then m.ckptOf fun c => { c with now := true } else m
  let m := if w.one BLB.RS_CTL.GO then m.restoreGo else m
  let m := if w.one BLB.DR_CTL.GO then m.drainGo else m
  let m := if w.one BLB.DR_CTL.ABORT then m.drainEnd none else m
  let m := if w.one BLB.IM_CTL.BEGIN then m.importBegin else m
  let m := if w.one BLB.IM_CTL.DONE then m.importDone else m
  if w.one BLB.IM_CTL.ABORT then m.importEnd none else m

def actMEM (m : Mod) (w : RegW) : Mod :=
  let o := w.off % 0x1000
  if 0x100 ≤ o ∧ o < 0x300 then
    let v := (o - 0x100) / 0x20
    if w.one (MEM.WIN_CTL.CLEAR v) then m.clearWindow v else m
  else if w.clears MEM.CFG.SQ_EN then m.refuseWaiting
  else m

def actMPR (m : Mod) (w : RegW) : Mod :=
  if w.one MPR.SCRUB_CTL.GO then m.startScrub
  else if w.one MPR.SCRUB_CTL.ABORT then m.endScrub true
  else if w.one MPR.REMAP_REQ_HI.GO then m.remapReq
  else m

def actUPD (m : Mod) (w : RegW) : Mod :=
  if w.one UPD.STK_CTL.CLEAR then { m with stalk := [] } else if w.one UPD.TW_GO.GO then m.submitWrite else m

def actRST (m : Mod) (w : RegW) : Mod :=
  if w.one RST.CTL.COLD then m.coldReset.pwr fun p => { p with coldHold := true }
  else if w.one RST.CTL.WARM then m.warmCause 6 255
  else if w.off = RST.SP_SEL.o then m.sproutSelect (RST.SP_SEL.DOMAIN.get w.new)
  else m

/-- The effect of an accepted write beyond the word it stores; `m` holds that word and `ask` is the role asked for. -/
def Mod.regAct (m : Mod) (w : RegW) (a : Agent) (ask : Option Nat) : Mod :=
  let b := w.off / 0x1000
  if 256 ≤ b then actCORE m w (b - 256)
  else match b with
  | 2 => if w.one SNAP.CTL.TAKE then m.snapTake else m
  | 3 => actRST m w
  | 5 => actSEC m w a
  | 6 => actTST m w
  | 7 => actDBG m w
  | 9 => actTOR m w
  | 10 => actLNK m w
  | 11 => actDUP m w ask
  | 13 => actBLB m w
  | 15 => actUPD m w
  | 16 => if w.one HLT.WIN_SEL.GO then m.windowGo else m
  | 17 => actMEM m w
  | 18 => actMPR m w
  | _ => m

/-- An accepted write: a clear of an event whose SEQ matches (R469, R471), or the word stored and its effect. -/
def Mod.regApply (m : Mod) (a : Agent) (off : Nat) (v : Word) : Mod :=
  let w := m.regW a off v
  if isEvt off then (if w.acts then m.wr off (w.old &&& 0xFF00FFFF) else m)
  else (m.wr off w.stored).regAct w a (m.roleAsked w)

/-- A register write that judging rejects because bytes cannot be read meets those units, which R271 repairs (R216). -/
def Mod.meetUnread (m : Mod) (off : Nat) (code : Nat) : Mod :=
  if off = UPD.TW_GO.o ∧ code = cBusy ∧ m.twUnread m.twWrite then (m.loads ⟨3, none, 3, 128⟩ (m.twRanges m.twWrite)).1 else m

/-- One register write of an agent (R462–R473). -/
def Mod.regWrite (m : Mod) (a : Agent) (off : Nat) (v : Word) : Mod :=
  match m.regJudge a off v with
  | some code => (m.meetUnread off code).reject a off code
  | none => m.regApply a off v

/-- The words of one fabric WRITE in increasing address order, each accepted or rejected on its own (R459). The second component says
that one was rejected. -/
def Mod.regWrites (m : Mod) (a : Agent) : List (Nat × Word) → Mod × Bool
  | [] => (m, false)
  | (o, v) :: rest =>
    let bad := (m.regJudge a o v).isSome
    let (m, b) := Mod.regWrites (m.regWrite a o v) a rest
    (m, bad || b)

end Sys2Proof.Machine
end

