-- ==== Sys2Proof/Machine/Receive.lean ====
section
/-! DEFINITION. Packets that arrive: the header checks (R305), foreign and late packets (R320, R353, R424), forwarding and the
pass-through to a partner (R325, R382), marked packets (R364), fabric reads and writes (R303, R459), the host adapter (R335, R460), image
packets in FETCH and HALT (R506), and the hand-over to the unit that a packet is for (R302). -/

namespace Sys2Proof.Machine

/-! ## Fabric accesses (R303, R32, R33, R459) -/

/-- Where a fabric access of `n` bytes lands: a module-local address, or the reason it is refused for (R302). -/
def Mod.fabricAddr (m : Mod) (dest space o n : Nat) : Nat ⊕ Nat :=
  let a := (if space = 0 then 0 else if space = 1 then lsBase else regBase) + o
  if !mapped a n then .inr 2
  else if space = 2 then (if dest = m.id ∧ wholeWords a n then .inl a else .inr 1)
  else if !((storeOf a n).isSome || m.inRegion 6 a n) then .inr 1
  else match m.servedAt dest a n with
    | none => .inr 1
    | some b => if (storeOf b n).isSome || m.inWork b n then .inl b else .inr 1

/-- The words of a WRITE of register space, by offset. -/
def regWords (off : Nat) (bs : List Byte) : List (Nat × Word) :=
  (List.range (bs.length / 4)).map fun i => (off + 4 * i, BitVec.ofNat 32 (leNat ((bs.drop (4 * i)).take 4)))

/-- How a response leaves: type, `INFO` and payload. -/
abbrev Answer := Mod → Nat → Nat → List Byte → Mod

/-- ACK and REFUSED of a packet, by an answer. -/
def ackBy (ans : Answer) (p : Pkt) (m : Mod) : Mod := ans m 0 p.seq.toNat []
def refuseBy (ans : Answer) (p : Pkt) (reason : Nat) (m : Mod) : Mod := ans m 2 (p.seq.toNat + 2 ^ 24 * reason) []

/-- The units that can stop a write of HBM: those it merges into that are beyond correction, and those whose bus fails on every retry
(R267, R268). -/
def Mod.writeStops (m : Mod) (a n : Nat) : List Nat :=
  if hbmTop ≤ a then []
  else
    let lo := a / 64
    (List.range ((a + n - 1) / 64 + 1 - lo)).filterMap fun i =>
      let u := m.viewed (64 * (lo + i)) / 64
      let partly := (i == 0 && a % 64 != 0) || (lo + i == (a + n - 1) / 64 && (a + n) % 64 != 0)
      if (partly && decide (2 ≤ m.outcome u)) || m.memside.bus.any (fun e => e.1 == u && decide (3 < e.2)) then some u else none

/-- Units are read in turn; false when one of them is uncorrectable. -/
def Mod.canRead (m : Mod) (b : By) : List Nat → Mod × Bool
  | [] => (m, true)
  | u :: us =>
    let (m, r) := m.readUnit b u
    let (m, ok) := Mod.canRead m b us
    (m, r.isSome && ok)

/-- A WRITE is performed and answered: ACK where it asks for one, REFUSED where it is refused, and then nothing is written (R303). A
write that an uncorrectable unit stops is refused with reason 6 (R268, R270). -/
def Mod.doWrite (m : Mod) (p : Pkt) (a : Agent) (ans : Answer) : Mod :=
  let i := infoOf p
  let done (m : Mod) : Mod := if ioLast i then ackBy ans p m else m
  match m.fabricAddr (destOf p) (ioSpace i) (ioOffset i) (ioBytes p) with
  | .inr r => refuseBy ans p r m
  | .inl x =>
    if ioSpace i = 2 then done (m.regWrites a (regWords (x - regBase) (writeBytes p))).1
    else
      let b := By.hub (some (tagOf p))
      match m.canRead b (m.writeStops x (ioBytes p)) with
      | (m, false) => refuseBy ans p 6 m
      | (m, true) =>
        match m.store b x (writeBytes p) with
        | (m, true) => done m
        | (m, false) => refuseBy ans p 6 m

/-- A READ is performed and answered with READ_DATA packets of 256 bytes, the last padded to whole units (R302, R303). -/
def Mod.doRead (m : Mod) (p : Pkt) (ans : Answer) : Mod :=
  let i := infoOf p
  let n := payNat p 0 4
  let t := payNat p 4 4
  let send (m : Mod) (bs : List Byte) : Mod :=
    (((pieces 256 ((n + 255) / 256) bs).zipIdx).foldl (fun m x => ans m 1 (t + 2 ^ 32 * x.2) (padUnits (x.1.take 256))) m)
  if n = 0 ∨ 65536 < n then refuseBy ans p 1 m
  else match m.fabricAddr (destOf p) (ioSpace i) (ioOffset i) n with
  | .inr r => refuseBy ans p r m
  | .inl x =>
    if ioSpace i = 2 then send m (m.regBytes (x - regBase) n)
    else match m.load (By.hub (some (tagOf p))) x n with
      | (m, some bs) => send m bs
      | (m, none) => refuseBy ans p 6 m

/-! ## The host adapter on P7 (R335, R460) -/

/-- Whether a port faces a host adapter. -/
def Mod.hostPort (m : Mod) (port : Nat) : Bool := port == 7 && m.peerPort 7 == 8

/-- An answer to the host adapter goes out of P7. -/
def toHost (p : Pkt) : Answer := fun m typ info pay => m.sendOut 7 (srcOf p) (tagOf p) clsRSP typ info pay

/-- A register access of the host adapter goes on under this module's id, and is noted for its response. -/
def Mod.relayOn (m : Mod) (p : Pkt) : Mod :=
  let (m, q) := m.numbered m.id (destOf p) (m.tagFor m.steps.oldest) clsREQ p.typ.toNat (infoOf p) p.payload
  (m.onPort 7 fun x => { x with relay := x.relay ++ [(q, p)] }).route q none

/-- The relayed access that a response answers. -/
def Mod.relayFor (m : Mod) (p : Pkt) : Option (Pkt × Pkt) :=
  let i := infoOf p
  (m.port 7).relay.find? fun e => destOf e.1 == srcOf p && tagOf e.1 == tagOf p &&
    (if p.typ.toNat = 1 then e.1.typ.toNat == 1 && payNat e.1 4 4 == i % 2 ^ 32 else e.1.seq.toNat == i % 2 ^ 24)

/-- Whether a relayed access needs no further response after this one. -/
def relayEnds (e : Pkt × Pkt) (p : Pkt) : Bool :=
  p.typ.toNat != 1 || decide (payNat e.1 0 4 ≤ 256 * (infoOf p / 2 ^ 32 + 1))

/-- The response of a relayed access goes back to the host under the host packet's own number. -/
def Mod.relayBack (m : Mod) (e : Pkt × Pkt) (p : Pkt) : Mod :=
  let info := if p.typ.toNat = 1 then infoOf p else infoOf p / 2 ^ 24 * 2 ^ 24 + e.2.seq.toNat
  let m := if relayEnds e p then m.onPort 7 fun x => { x with relay := x.relay.filter (· != e) } else m
  m.sendOut 7 (srcOf e.2) (tagOf e.2) clsRSP p.typ.toNat info p.payload

/-- A register access of the host adapter for a module outside the slice is refused at the bridge, its sender into the slice (R320; reason
0x01, log entry 104). -/
def Mod.relayIn (m : Mod) (p : Pkt) : Mod := if m.inSlice (destOf p) then m.relayOn p else refuseBy (toHost p) p 1 m

/-- Whether a packet on P7 is of the host adapter's traffic that R320 lists; only the active bridge takes it. -/
def Mod.fromHost (m : Mod) (p : Pkt) : Bool :=
  m.bridging && ((p.cls.toNat == clsREQ && decide (p.typ.toNat ≤ 1)) || (p.cls.toNat == clsCKPT && p.typ.toNat == 6))

/-- A packet of the host adapter is handed only to the rule that names it (R320). -/
def Mod.takeHost (m : Mod) (p : Pkt) : Mod :=
  let i := infoOf p
  match p.cls.toNat, p.typ.toNat with
  | 1, 0 =>
    if ioSpace i = 2 then m.relayIn p
    else
      let n := ioBytes p
      if ioSpace i = 0 ∧ destOf p = m.id ∧ p.len.toNat ≤ 15 ∧ m.inWindow (ioOffset i) n ∧ m.inWork (ioOffset i) n
      then m.hostWrite p (ioOffset i) (writeBytes p)
      else refuseBy (toHost p) p 1 m
  | 1, 1 => if ioSpace i = 2 then m.relayIn p else m.doRead p (toHost p)
  | 7, 6 => m.takeImport 7 p
  | _, _ => m

/-! ## FETCH and HALT (R506) -/

/-- Whether every word of a WRITE targets the staging registers. -/
def stageTarget (p : Pkt) : Bool :=
  let i := infoOf p
  ioSpace i == 2 && (regWords (ioOffset i) (writeBytes p)).all fun x =>
    x.1 == SEC.STAGE_CTL.o || (decide (SEC.STAGE_D.o 0 ≤ x.1) && decide (x.1 < SEC.STAGE_D.o 256))

/-- In FETCH or HALT a port takes only WRITEs of the staging registers, whatever their destination, and answers on the port they came in
on: ACK, or REFUSED where a word was rejected. A word that ends in a cold reset leaves nobody to answer. -/
def Mod.takeStage (m : Mod) (port : Nat) (p : Pkt) : Mod :=
  let i := infoOf p
  if p.cls.toNat ≠ 1 ∨ p.typ.toNat ≠ 0 ∨ !stageTarget p ∨ !wholeWords (ioOffset i) (ioBytes p) then m
  else
    let ans : Answer := fun m typ info pay => m.sendOut port (srcOf p) (tagOf p) clsRSP typ info pay
    let (m, bad) := m.regWrites (.fabric p.src (Fin.ofNat 9 port)) (regWords (ioOffset i) (writeBytes p))
    if !m.fetching_ then m else if bad then refuseBy ans p 1 m else if ioLast i then ackBy ans p m else m

/-! ## Dispatch of a packet that this module takes -/

/-- A response: to a relayed access (R460), or to a request of a core. One to a serve has gone to it at the port (R509). -/
def Mod.takeResponse (m : Mod) (p : Pkt) : Mod :=
  match m.relayFor p with
  | some e => m.relayBack e p
  | none => match p.typ.toNat with
    | 0 => m.takeAck p
    | 1 => m.takeReadData p
    | _ => m.takeRefused p

/-- An answer sent as the identity that the packet names, over the router. -/
def overRouter (p : Pkt) : Answer := fun m typ info pay => m.respond p typ info pay

/-- The unit that a packet of classes 1 to 7 is for takes it (R302). A frame shows no time of its own: Vine packets in it carry this
module's time. -/
def Mod.handPacket (m : Mod) (port : Nat) (p : Pkt) : Mod :=
  match p.cls.toNat, p.typ.toNat with
  | 1, 0 => m.doWrite p (.fabric p.src (Fin.ofNat 9 port)) (overRouter p)
  | 1, 1 => m.doRead p (overRouter p)
  | 2, _ => m.takeResponse p
  | 3, 0 => m.takeColl port p
  | 3, 1 => m.takeColl port p
  | 3, 2 => m.takeSmall p
  | 3, 3 => if (infoOf p).testBit 0 then m.syncResp p m.vine.time else m.syncReq port p m.vine.time m.vine.time
  | 3, 4 => m.takeUp port p
  | 3, 5 => m.takeAnn port p
  | 4, _ => m.takeRow port p
  | 5, _ => m.takeAdd port p
  | 6, 0 => m.takePair port p
  | 6, 1 => m.takeShard p
  | 6, 2 => m.takeDigest p
  | 6, 3 => m.takeTw p
  | 6, 4 => m.takeDupAck p
  | 6, 5 => m.takePodCopy p
  | 6, 6 => m.takeRmData p
  | 6, 7 => m.takeRmReq p
  | 6, 8 => m.takeProbe p
  | 6, 9 => m.takeProbeReply p
  | 7, 0 => m.takePull p
  | 7, 1 => m.takePart p
  | 7, 2 => m.takeZero p
  | 7, 3 => m.takeNotReady p
  | 7, 4 => m.takeSha p
  | 7, 5 => m.takeExport p
  | 7, 6 => m.takeImport port p
  | _, _ => m

/-- A marked packet is applied once and in order (R364); a discarded WRITE that asks for an ACK is acknowledged. -/
def Mod.takeMarked (m : Mod) (port : Nat) (p : Pkt) : Mod :=
  match m.track p with
  | (m, true) => m.handPacket port p
  | (m, false) => if p.cls.toNat = 1 ∧ p.typ.toNat = 0 ∧ ioLast (infoOf p) then m.sendAck p else m

/-! ## Control packets (R306–R309, R538) -/

/-- A FAULT that names the current attempt of a step held here is acted on and forwarded as an ALIAS is. -/
def Mod.faultIn (m : Mod) (port : Nat) (p : Pkt) : Mod :=
  let j := payNat p 0 6
  if j < m.steps.oldest ∨ m.tagFor j ≠ payNat p 6 2 ∨ m.steps.failed.any (·.1 == j) then m
  else (m.broadcast p (some port)).takeFault p

/-- A FENCE that names this module comes from the port's peer in its own stalled recovery or from a stand-in: Parsnip fences every
port, and the module recovers (R308, R420). -/
def Mod.fenceIn (m : Mod) (port : Nat) (p : Pkt) : Mod :=
  if payNat p 0 2 % 8192 = m.id then (m.takeFence port p).warmCause 5 255 else m.takeFence port p

/-- The axis that a packet from a port has arrived on. -/
def cameOn (port : Nat) : Option Nat := if port < 6 then some (port / 2) else none

/-- Packets of class CTRL. FENCE and FENCE_ACK are routed to their destination (R309); the others end at the port. -/
def Mod.takeControl (m : Mod) (port : Nat) (p : Pkt) : Mod :=
  match p.typ.toNat with
  | 1 => m.takeHeartbeat port p
  | 2 => m.takeAlias port p
  | 3 => if m.mine (destOf p) then m.fenceIn port p else m.forward p (cameOn port)
  | 5 => if m.mine (destOf p) then m.takeFenceAck p else m.forward p (cameOn port)
  | 6 => m.faultIn port p
  | _ => m

/-! ## A packet arrives -/

/-- Whether a packet of classes 1 to 7 came from outside the slice (R320): its sender or destination is not of the slice, or it came
over a link that is not one of the slice. -/
def Mod.foreign (m : Mod) (port : Nat) (p : Pkt) : Bool :=
  !m.inSlice (srcOf p) || !m.inSlice (destOf p) || !m.inSlice (m.peer port) ||
    (decide (port < 6) && (m.linkedTo m.id port).isNone)

/-- Whether warm recovery's closed tags drop a packet (R424). -/
def Mod.lateWarm (m : Mod) (p : Pkt) : Bool := m.steps.dropAll || m.steps.closed.contains (tagOf p)

/-- Whether a packet for the identity that a swap or a reversal gave this module names a step before the ALIAS's: it then goes to the
partner unchanged (R382). -/
def Mod.passesOn (m : Mod) (p : Pkt) : Bool :=
  m.dup.passBefore.any fun e => e.1 == destOf p && decide (m.tagStep (tagOf p) < e.2)

/-- Packets whose tag is not that of a step's work, so that R353 does not drop them: state bytes and the request for a block of them,
whose tag names the step whose update they reflect (R380, R384; log entry 103). -/
def Mod.tagFree (_ : Mod) (p : Pkt) : Bool := p.cls.toNat == clsDUP && (p.typ.toNat == 6 || p.typ.toNat == 7)

/-- A packet by its tag: dropped and counted (R353), an ADD of no live attempt answered as late (R256), or taken. -/
def Mod.takeTagged (m : Mod) (port : Nat) (p : Pkt) : Mod :=
  let m' := if m.tagLive (tagOf p) || m.tagFree p then m else m.count DUP.SN_GEN_DROP_LO.o 1
  if p.cls.toNat = clsSQ ∧ !m.tagCurrent (tagOf p) then m'.dropAdd p
  else if m.tagLive (tagOf p) || m.tagFree p then m.takeMarked port p
  else m'

/-- Whether this module takes a packet as its own: for its id, for an identity it stands in for, and what its partner passes on to it
(R322, R382). -/
def Mod.takes (m : Mod) (port : Nat) (p : Pkt) : Bool :=
  m.mine (destOf p) || (port == m.pport && m.dup.lostId == some (destOf p))

/-- A packet of classes 1 to 7 that has passed the port: dropped when late, forwarded, or taken. -/
def Mod.takeSlice (m : Mod) (port : Nat) (p : Pkt) : Mod :=
  if m.lateWarm p then m.count RST.SN_LATE_LO.o 1
  else if !m.takes port p then m.forward p (cameOn port)
  else if m.passesOn p then m.toPort m.pport p none
  else m.takeTagged port p

/-- A malformed packet is discarded: PKT_BAD with the sender (R305). -/
def Mod.countBad (m : Mod) (port : Nat) (p : Pkt) : Mod := (m.count (LNK.SN_PKT_BAD_LO.o port) 1).raiseLNK 8 port (srcOf p)

/-- A malformed packet of the running module is also a fault of the step its tag names (R538; log entry 52), and one of class COLL stops
the collectives program (R333). -/
def Mod.badPacket (m : Mod) (port : Nat) (p : Pkt) : Mod :=
  let m := (m.countBad port p).fault (some (tagOf p)) 2
  if p.cls.toNat = clsCOLL ∧ m.is TOR.COLL_CTL.ENABLE ∧ !m.is TOR.COLL_STAT.STOPPED then m.collFail 3 (srcOf p) port else m

/-- A packet that does not belong to the slice's traffic (R320). -/
def Mod.dropForeign (m : Mod) (port : Nat) (p : Pkt) : Mod := (m.count TOR.SN_FOREIGN_LO.o 1).raiseTOR 4 (srcOf p) port 0

/-- A packet that a port has received. In field-test mode the ports carry only register accesses (R440). -/
def Mod.portPacket (m : Mod) (port : Nat) (p : Pkt) : Mod :=
  if m.fetching_ then (if pktOk p then m.takeStage port p else m.countBad port p)
  else if !pktOk p then m.badPacket port p
  else if p.cls.toNat ≠ 0 ∧ m.lateWarm p then m.count RST.SN_LATE_LO.o 1
  else if m.is TST.CFG.MODE ∧ !testCarries p then m
  else if m.memside.paths.contains (136 + port) then (m.crossing (By.hub (some (tagOf p))) (· == 136 + port)).1
  else if p.cls.toNat = 0 then m.takeControl port p
  else if m.hostPort port then (if m.fromHost p then m.takeHost p else m.dropForeign port p)
  else if m.boot.serving = some port ∧ p.cls.toNat = 2 ∧ p.typ.toNat ≠ 1 ∧ infoOf p % 2 ^ 24 = m.boot.serveSeq then
    m.serveReply (p.typ.toNat == 0)
  else if m.foreign port p then m.dropForeign port p
  else m.takeSlice port p

/-- A packet delivered by a port that is UP. -/
def Mod.receivePkt (m : Mod) (port : Nat) (p : Pkt) : Mod := if m.pstate port ≠ pUP then m else m.portPacket port p

/-- A packet whose target is the module itself, which its router hands to its own receiving logic. -/
def Mod.receiveOwn (m : Mod) (p : Pkt) : Mod := m.takeSlice 8 p

/-- The packets of a frame in order, all of which its acknowledgement covers (R313); one beyond the credit given is discarded (R299), and
a port that one of them fences takes no more (R310). -/
def Mod.receiveAll (m : Mod) (port : Nat) : List Pkt → Mod
  | [] => m
  | p :: rest =>
    if m.pstate port = pFENCED ∨ m.pstate port = pDISABLED then m
    else if m.creditOk port p then ((m.takeCredit port p).portPacket port p).receiveAll port rest
    else (m.creditViol port).receiveAll port rest

/-- A frame (R293–R295). -/
def Mod.takeFrame (m : Mod) (port fseq : Nat) (units : List Unit16) (fcrc : Word) (ce ue : Nat) : Mod :=
  let (m, ps) := m.frameIn port fseq units fcrc ce ue
  m.receiveAll port ps

/-- A packet's own row: the packet with the class and type that the row names. -/
def Mod.rowPacket (m : Mod) (port : Fin 8) (p : Pkt) (cls typ : Nat) : Mod :=
  m.receivePkt port { p with cls := BitVec.ofNat 3 cls, typ := BitVec.ofNat 4 typ }

end Sys2Proof.Machine
end

