-- ==== Sys2Proof/Machine/Vector.lean ====
section
/-! DEFINITION. The vector engine: ELT (R185), ROWRED (R186), AMAX (R187), RANKSUM (R188) and QUANT (R189). A descriptor's
work is one step. -/

namespace Sys2Proof.Machine

/-! ## Element functions (R185) -/

/-- The larger (`big`) or smaller of two values: NaN if either is, and of zeros of both signs +0 or −0. -/
def numMax (big : Bool) (a b : Num) : Num :=
  if a.isNan || b.isNan then .nan
  else if a.lt b then (if big then b else a)
  else if b.lt a then (if big then a else b)
  else match a, b with
    | .fin x m e, .fin y _ _ => if m = 0 then .fin (if big then x && y else x || y) 0 0 else .fin x m e
    | x, _ => x

/-- 1 / a of a value that is not zero. -/
def Num.recip (a : Num) : Num := Num.div (.fin false 1 0) a

/-- The function values that R185 does not state: the logarithm and reciprocal root of a zero or a negative value, and the
reciprocal of zero (log entry 30). -/
def eltOpen (fn : Nat) (a : Num) : Bool :=
  let neg := a.lt (.fin false 0 0)
  match fn with
  | 0x0A => a.isZero || neg
  | 0x0B => a.isZero
  | 0x0C => a.isZero || neg
  | _ => false

/-- The exact result of a function (R185). -/
def eltExact (fn : Nat) (a b c imm : Num) : Num :=
  match fn with
  | 0x01 => a.add b
  | 0x02 => a.add b.neg
  | 0x03 => a.mul b
  | 0x04 => (a.mul b).add c
  | 0x05 => numMax true a b
  | 0x06 => numMax false a b
  | 0x07 => a
  | 0x08 => a.mul imm
  | 0x09 => a.exp
  | 0x0A => match a with
    | .fin _ m e => lnFin m e
    | x => x
  | 0x0B => a.recip
  | 0x0C => match a with
    | .fin _ m e => rsqrtFin m e
    | .inf _ => .fin false 0 0
    | .nan => .nan
  | 0x0D => a.tanh
  | 0x0E => a.sigmoid
  | 0x0F => a.abs
  | _ => a.neg

/-- A code as a unit writes it: a NaN is the canonical one (R89). -/
def Fmt.canonical (f : Fmt) (c : Nat) : Nat := if (f.decode c).isNan then f.nanCode else c

/-- The code of a function's result, rounded once to the output format (R90, R91). An open one is a function of the operand alone (R56), and
no NaN but the canonical one (R89). -/
def eltCode (f : Fmt) (fn : Nat) (a b c imm : Num) : Nat :=
  if eltOpen fn a then f.canonical (Config.eltValue fn f.bits (fmtFP32.encode a) % 2 ^ f.bits)
  else f.encode (eltExact fn a b c imm)

/-! ## Operands in the local store (R184) -/

/-- Byte ranges of the rows of an operand, as local-store offset and length. -/
def opRows (off pitch rows bytes : Nat) : List (Nat × Nat) :=
  (List.range rows).map fun r => (off * 64 + r * pitch * 64, bytes)

/-- Whether the rows lie in the local store. -/
def opFits (off pitch rows bytes : Nat) : Bool := decide (off * 64 + (rows - 1) * pitch * 64 + bytes ≤ lsSize)

/-- The rows of an operand as codes; none when a byte is uncorrectable. -/
def Mod.opCodes (m : Mod) (n tag off pitch rows count w : Nat) : Mod × Option (List (List Nat)) :=
  let rs := (opRows off pitch rows (count * w)).map fun r => (lsAddr n r.1, r.2)
  match m.loads (By.core n tag) rs with
  | (m, none) => (m, none)
  | (m, some bs) => (m, some (bs.map fun b => (pieces w count b).map leNat))

/-- The rows of operand A. -/
def Mod.opA (m : Mod) (n tag : Nat) (d : VecD) : Mod × Option (List (List Num)) :=
  match m.opCodes n tag d.srcA d.pitchA d.rows d.n (vecWidth d.fmtIn) with
  | (m, none) => (m, none)
  | (m, some c) => (m, some (c.map fun r => r.map (vecFmt d.fmtIn).decode))

/-- A row of codes written. -/
def Mod.putRow (m : Mod) (n tag off w : Nat) (codes : List Nat) : Mod :=
  (m.store (By.core n tag) (lsAddr n off) (codes.flatMap (leBytes w))).1

/-! ## ELT (R185) -/

def VecD.eltBad (d : VecD) : Nat :=
  let k := eltArgs d.fn
  let wi := vecWidth d.fmtIn
  if d.rsv ≠ 0 ∨ d.fmtIn = 3 ∨ d.fmtOut = 3 ∨ k = 0 ∨ !d.eltUnused then 0x50
  else if d.n = 0 ∨ d.rows = 0 ∨ !opFits d.srcA d.pitchA d.rows (d.n * wi) ∨
      !opFits d.dst d.pitchD d.rows (d.n * vecWidth d.fmtOut) ∨
      (2 ≤ k ∧ !opFits d.srcB d.pitchB (if d.bcastB = 1 then 1 else d.rows) (d.n * wi)) ∨
      (k = 3 ∧ !opFits d.srcC d.pitchC (if d.bcastC = 1 then 1 else d.rows) (d.n * wi)) then 0x51
  else 0

/-- Operands B and C of the functions that take them. -/
def Mod.opBC (m : Mod) (n tag : Nat) (d : VecD) (off pitch bcast : Nat) (used : Bool) : Mod × Option (List (List Num)) :=
  if !used then (m, some [])
  else match m.opCodes n tag off pitch (if bcast = 1 then 1 else d.rows) d.n (vecWidth d.fmtIn) with
    | (m, none) => (m, none)
    | (m, some c) => (m, some (c.map fun r => r.map (vecFmt d.fmtIn).decode))

def zeroNum : Num := .fin false 0 0

/-- The rows of results of an ELT on operands that have been read (R185). -/
def Mod.eltWrite (m : Mod) (n q : Nat) (e : Desc) (d : VecD) (a b c : List (List Num)) : Mod :=
  let imm := num32 (BitVec.ofNat 32 d.imm)
  let m := (List.range d.rows).foldl (fun m r =>
    let ra := a.getD r []
    let rb := b.getD (if d.bcastB = 1 then 0 else r) []
    let rc := c.getD (if d.bcastC = 1 then 0 else r) []
    let codes := (List.range d.n).map fun i =>
      eltCode (vecFmt d.fmtOut) d.fn (ra.getD i zeroNum) (rb.getD i zeroNum) (rc.getD i zeroNum) imm
    m.putRow n e.tag (d.dst * 64 + r * d.pitchD * 64) (vecWidth d.fmtOut) codes) m
  m.endDesc n q e 0

/-- ELT reads its operands and then writes its results: where an operand overlaps the destination, its old bytes count, as for every vector
descriptor (DESIGN CHOICE, log entry 115: the spec says nothing of such an overlap). -/
def Mod.eltGo (m : Mod) (n q : Nat) (e : Desc) (d : VecD) : Mod :=
  let k := eltArgs d.fn
  match m.opA n e.tag d with
  | (m, none) => m.endDesc n q e 0x52
  | (m, some a) =>
    match m.opBC n e.tag d d.srcB d.pitchB d.bcastB (decide (2 ≤ k)) with
    | (m, none) => m.endDesc n q e 0x52
    | (m, some b) =>
      match m.opBC n e.tag d d.srcC d.pitchC d.bcastC (k == 3) with
      | (m, none) => m.endDesc n q e 0x52
      | (m, some c) =>
        m.eltWrite n q e d a b c

def Mod.runElt (m : Mod) (n q : Nat) : Mod :=
  match m.running n q 0x30 with
  | none => m
  | some e =>
    let d := vecDesc e.bytes
    match d.eltBad with
    | 0 => m.eltGo n q e d
    | st => m.endDesc n q e st

/-! ## ROWRED (R186) -/

/-- The fold of R117 on nodes: an exact sum rounded once. -/
def foldNode (a s : Num) : Num := num32 (toFP32 (a.add s))

/-- Two nodes of the tree combined, absent ones passed over. -/
def redNode (mx : Bool) (a b : Option Num) : Option Num :=
  match a, b with
  | none, y => y
  | x, none => x
  | some x, some y => some (if mx then numMax true x y else foldNode x y)

/-- One element added to its lane: the exact square for SUMSQ, which only a fold rounds. -/
def redLane (fn : Nat) (a : Option Num) (x : Num) : Option Num := redNode (fn == 2) a (some (if fn = 3 then x.mul x else x))

/-- Lane l of a row: its elements l, l + 256, … in order. -/
def redLaneAll (fn : Nat) (xs : List Num) (l : Nat) : Option Num :=
  (List.range ((xs.length + 255 - l) / 256)).foldl (fun a j => redLane fn a (xs.getD (l + 256 * j) zeroNum)) none

/-- One level of the tree. -/
def redLevel (mx : Bool) (l : List (Option Num)) : List (Option Num) :=
  (List.range (l.length / 2)).map fun i => redNode mx (l.getD (2 * i) none) (l.getD (2 * i + 1) none)

/-- The reduction of a row over the fixed tree of 256 lanes. -/
def rowReduce (fn : Nat) (xs : List Num) : Word :=
  let lanes := (List.range 256).map (redLaneAll fn xs)
  let top := (List.range 8).foldl (fun l _ => redLevel (fn == 2) l) lanes
  toFP32 ((top.head?.getD none).getD zeroNum)

def VecD.redBad (d : VecD) : Nat :=
  if d.rsv ≠ 0 ∨ d.fmtIn = 3 ∨ d.fmtOut ≠ 0 ∨ d.fn = 0 ∨ 3 < d.fn ∨ !d.noBC ∨ !d.noQuant ∨ d.pitchD ≠ 0 then 0x50
  else if d.n = 0 ∨ d.rows = 0 ∨ !opFits d.srcA d.pitchA d.rows (d.n * vecWidth d.fmtIn) ∨
      !opFits d.dst 0 1 (4 * d.rows) then 0x51
  else 0

def Mod.runRowred (m : Mod) (n q : Nat) : Mod :=
  match m.running n q 0x34 with
  | none => m
  | some e =>
    let d := vecDesc e.bytes
    match d.redBad with
    | 0 =>
      match m.opA n e.tag d with
      | (m, none) => m.endDesc n q e 0x52
      | (m, some a) =>
        (m.putRow n e.tag (d.dst * 64) 4 (a.map fun r => (rowReduce d.fn r).toNat)).endDesc n q e 0
    | st => m.endDesc n q e st

/-! ## AMAX (R187) -/

/-- The largest magnitude of a list; a NaN gives NaN, and otherwise an infinity +Inf. -/
def amaxOf (xs : List Num) : Num :=
  if xs.any Num.isNan then .nan
  else if xs.any (fun x => !x.isFinite) then .inf false
  else maxMag xs

def VecD.amaxBad (d : VecD) : Nat :=
  if d.rsv ≠ 0 ∨ d.fmtIn = 3 ∨ d.fmtOut ≠ 0 ∨ d.fn ≠ 0 ∨ !d.noBC ∨ !d.noQuant ∨ d.pitchD ≠ 0 then 0x50
  else if d.n = 0 ∨ d.rows = 0 ∨ !opFits d.srcA d.pitchA d.rows (d.n * vecWidth d.fmtIn) ∨ !opFits d.dst 0 1 4 then 0x51
  else 0

def Mod.runAmax (m : Mod) (n q : Nat) : Mod :=
  match m.running n q 0x32 with
  | none => m
  | some e =>
    let d := vecDesc e.bytes
    match d.amaxBad with
    | 0 =>
      match m.opA n e.tag d with
      | (m, none) => m.endDesc n q e 0x52
      | (m, some a) => (m.putRow n e.tag (d.dst * 64) 4 [(toFP32 (amaxOf a.flatten)).toNat]).endDesc n q e 0
    | st => m.endDesc n q e st

/-! ## RANKSUM (R188) -/

def VecD.rankBad (d : VecD) : Nat :=
  if d.rsv ≠ 0 ∨ d.fmtIn ≠ 0 ∨ d.fmtOut ≠ 0 ∨ d.fn ≠ 0 ∨ !d.noBC ∨ !d.noQuant ∨ d.pitchD ≠ 0 then 0x50
  else if d.n = 0 ∨ d.rows = 0 ∨ 1024 < d.rows ∨ !opFits d.srcA d.pitchA d.rows (4 * d.n) ∨ !opFits d.dst 0 1 (4 * d.n) then 0x51
  else 0

def Mod.runRanksum (m : Mod) (n q : Nat) : Mod :=
  match m.running n q 0x33 with
  | none => m
  | some e =>
    let d := vecDesc e.bytes
    match d.rankBad with
    | 0 =>
      match m.opCodes n e.tag d.srcA d.pitchA d.rows d.n 4 with
      | (m, none) => m.endDesc n q e 0x52
      | (m, some a) =>
        (m.putRow n e.tag (d.dst * 64) 4
          ((List.range d.n).map fun i => (rankSum (a.map fun r => BitVec.ofNat 32 (r.getD i 0))).toNat)).endDesc n q e 0
    | st => m.endDesc n q e st

/-! ## QUANT (R189) -/

/-- Element format of a kind (R97): 1 E4M3, 2 E5M2, 3 BF16. -/
def kindFmt (kind : Nat) : Fmt := if kind = 1 then fmtE4M3 else if kind = 2 then fmtE5M2 else fmtBF16

/-- What a QUANT writes and counts: element codes by row, scales as offset and code, and its zeros, saturations and non-finite
elements. -/
structure QuantOut where
  codes : List (List Nat)
  scales : List (Nat × Nat)
  zeros : Nat
  sats : Nat
  nonfin : Nat
deriving DecidableEq, Repr

/-- A wide element (kind 3): its code, and whether it is a zero, or an infinity formed from a finite value. -/
def quantWide (x : Num) : Nat × Bool × Bool :=
  let c := toBF16 x
  (c, x.isFinite && c % 0x8000 == 0, x.isFinite && c % 0x8000 == 0x7F80)

/-- Values multiplied by 2^T, rounded to FP32 (R102). -/
def quantScale (t : Int) (x : Num) : Num := num32 (toFP32 (x.scale t))

/-- Kind 3: no scales. -/
def quantKind3 (rows : List (List Num)) : QuantOut :=
  let r := rows.map fun row => row.map quantWide
  let all := r.flatten
  ⟨r.map fun row => row.map (·.1), [], countB (all.map (·.2.1)), 0,
    countB (rows.flatten.map fun x => !x.isFinite) + countB (all.map (·.2.2))⟩

/-- The block of 32 values of a quantization: along a row for axis 0, along a column for axis 1. -/
def quantBlocks (f : Fmt) (axis rows n : Nat) (v : Nat → Nat → Num) : List (List MxBlock) :=
  if axis = 0 then (List.range rows).map fun r => (List.range (n / 32)).map fun b =>
    mxBlock f ((List.range 32).map fun k => v r (32 * b + k))
  else (List.range (rows / 32)).map fun b => (List.range n).map fun i =>
    mxBlock f ((List.range 32).map fun k => v (32 * b + k) i)

/-- Kinds 1 and 2: MX blocks along an axis (R93, R94). The scales form one row of the plane per row of blocks. -/
def quantMx (kind axis rows n dstS pitchS : Nat) (vals : List (List Num)) : QuantOut :=
  let f := kindFmt kind
  let bl := quantBlocks f axis rows n (fun r i => (vals.getD r []).getD i zeroNum)
  let code (r i : Nat) : Nat :=
    if axis = 0 then (((bl.getD r []).getD (i / 32) ⟨0, [], 0⟩).codes.getD (i % 32) 0)
    else (((bl.getD (r / 32) []).getD i ⟨0, [], 0⟩).codes.getD (r % 32) 0)
  let good := bl.flatten.filter (·.scale != 255)
  ⟨(List.range rows).map fun r => (List.range n).map (code r),
   (bl.zipIdx).flatMap fun row => (row.1.zipIdx).map fun b => (dstS * 64 + row.2 * pitchS * 64 + b.2, b.1.scale),
   countB (good.flatMap fun b => b.codes.map fun c => c % 0x80 == 0),
   (bl.flatten.map (·.sat)).sum, countB (vals.flatten.map fun x => !x.isFinite)⟩

def VecD.quantField (d : VecD) : Bool :=
  d.rsv != 0 || d.fmtIn == 3 || d.fmtOut != 0 || d.fn != 0 || !d.noBC || d.kind == 0 ||
    (if d.kind = 3 then d.dstS + d.baxis + d.pitchS != 0 else (if d.baxis = 0 then d.n else d.rows) % 32 != 0)

def VecD.quantRange (d : VecD) (amax : Bool) : Bool :=
  d.n == 0 || d.rows == 0 || !opFits d.srcA d.pitchA d.rows (d.n * vecWidth d.fmtIn) ||
    !opFits d.dst d.pitchD d.rows (d.n * (if d.kind = 3 then 2 else 1)) ||
    (d.kind != 3 && (if d.baxis = 0 then !opFits d.dstS d.pitchS d.rows (d.n / 32)
      else !opFits d.dstS d.pitchS (d.rows / 32) d.n)) || (amax && !opFits d.amaxAt 0 1 4)

/-- The amax word of a record in AMAX mode. -/
def Mod.quantAmax (m : Mod) (n tag : Nat) (d : VecD) (r : ScaleRec) : Mod × Option Num :=
  if r.mode = 2 then
    match m.loadNat (By.core n tag) (lsAddr n (d.amaxAt * 64)) 4 with
    | (m, none) => (m, none)
    | (m, some w) => (m, some (num32 (BitVec.ofNat 32 w)))
  else (m, some zeroNum)

/-- The result written, counted and charged (R103, R219). -/
def Mod.quantPut (m : Mod) (n q : Nat) (e : Desc) (d : VecD) (r : ScaleRec) (ovf : Bool) (o : QuantOut) : Mod :=
  let m := (o.codes.zipIdx).foldl (fun m row =>
    m.putRow n e.tag (d.dst * 64 + row.2 * d.pitchD * 64) (if d.kind = 3 then 2 else 1) row.1) m
  let m := o.scales.foldl (fun m s => m.putRow n e.tag s.1 1 [s.2]) m
  let late := m.steps.submitted.contains (m.tagStep e.tag)
  let m := m.countTag e.tag fun b =>
    let b := b.addCounts d.rcd (d.n * d.rows) o.zeros o.sats o.nonfin
    if r.mode ≠ 0 ∧ (ovf ∨ o.nonfin ≠ 0) then b.chargeRec d.rcd late else b
  m.endDesc n q e 0

def Mod.quantGo (m : Mod) (n q : Nat) (e : Desc) (d : VecD) (r : ScaleRec) : Mod :=
  match m.quantAmax n e.tag d r with
  | (m, none) => m.endDesc n q e 0x52
  | (m, some a) =>
    match m.opA n e.tag d with
    | (m, none) => m.endDesc n q e 0x52
    | (m, some rows) =>
      let (t, ovf) := r.t a
      let vals := rows.map fun row => row.map (quantScale t)
      m.quantPut n q e d r ovf
        (if d.kind = 3 then quantKind3 vals else quantMx d.kind d.baxis d.rows d.n d.dstS d.pitchS vals)

def Mod.runQuant (m : Mod) (n q : Nat) : Mod :=
  match m.running n q 0x31 with
  | none => m
  | some e =>
    let d := vecDesc e.bytes
    if d.quantField then m.endDesc n q e 0x50
    else
      match m.loadNat (By.core n e.tag) (m.recAddr d.rcd) 8 with
      | (m, none) => m.endDesc n q e 0x52
      | (m, some w) =>
        if !recOk w then m.endDesc n q e 0x50
        else if d.quantRange ((scaleRec w).mode == 2) then m.endDesc n q e 0x51
        else m.quantGo n q e d (scaleRec w)

end Sys2Proof.Machine
end

