-- ==== Sys2Proof/Machine/Settle.lean ====
section
/-! DEFINITION. What follows a command at once, and the shape of every meaning. When a command has had its own effect, the module acts on
what the command left for it: regions of uncorrectable units (R271), fetches and block replies (R384), packets for the module itself,
packets that waited for the router, losses of the partner (R369), pairing (R347), the Vine's minima (R339), the digest and the check of
a step (R349, R350), the manifest of a checkpoint (R396), internal collectives (R328–R330), and the charging of faults (R538). -/

namespace Sys2Proof.Machine

/-- Whether every domain runs: no warm recovery is under way and none has failed (R422). -/
def Mod.inRun (m : Mod) : Bool := m.rstState == stRUN

/-- Whether the partner port asks for no PAIR packet and holds no stale one (R347). -/
def Mod.pairCalm (m : Mod) : Bool :=
  if !m.is DUP.CFG.ENABLE || m.pstate m.pport != pUP then !m.dup.pairSent else m.dup.pairSent

/-- Whether a slice of one module has internal collectives whose results can be taken: there each completes as soon as the module has
contributed (R330). -/
def Mod.oneDue (m : Mod) : Bool :=
  m.smallsRun && decide (m.sliceSize ≤ 1) && m.coll.own.any fun c =>
    !c.done && (if c.kind = kCand ∨ c.kind = kRound then m.ckptPhase == 5 && m.ckpt.cand.isNone && c.inst == m.round else true)

/-- Those results are taken. -/
def Mod.oneResults (m : Mod) : Mod :=
  if !m.oneDue then m
  else
    let m := [3, 2, 1, 0].foldl (fun m i => m.scanResult i) m
    m.vote1Result.vote2Result.lossIn.startResult.commitResult.restoreRound

/-- Whether the command has left nothing to be done. -/
def Mod.calm (m : Mod) : Bool :=
  m.steps.todo.isEmpty && m.memside.ues.isEmpty && m.memside.fetches.all (·.sent) && !(m.dup.replies.any m.replyDue) &&
    (m.steps.rerun.isNone || m.rewindWaits) && m.router.loop.isEmpty && (m.router.held.isEmpty || !m.is TOR.CFG.ENABLE) &&
    (!m.inRun ||
      (m.dup.signal.isNone && !(m.dup.takeover.isSome && m.dup.awaiting.isEmpty) && m.pairCalm && !m.vineOn &&
        !(m.upd.running && m.upd.ownDone && m.upd.mirDone) && !m.healthDone m.steps.oldest && m.ckpt.order != 4 &&
        m.smallsLeft.isEmpty && !m.roundDue && !m.oneDue))

/-- Packets whose target is the module itself reach its receiving logic, in the order sent. -/
def Mod.deliverOwn (m : Mod) : Mod :=
  let l := m.router.loop
  l.foldl (fun m p => m.receiveOwn p) { m with router := { m.router with loop := [] } }

/-- Packets that waited for `TOR.CFG.ENABLE` are routed. -/
def Mod.routeNow (m : Mod) : Mod := if m.is TOR.CFG.ENABLE && !m.router.held.isEmpty then m.routeHeld else m

/-- What the units of the hub do while every domain runs. -/
def Mod.hubFlows (m : Mod) : Mod :=
  if m.inRun then m.signalFlow.takeoverFlow.pairFlow.vineFlow.digestFlow.tryCheck.ckptFlow.roundFlow.smallsFlow.oneResults else m

/-- One round of consequences. -/
def Mod.settleOnce (m : Mod) : Mod :=
  m.ueActions.chargeFaults.sendFetches.replyBlocks.rewindDue.deliverOwn.routeNow.hubFlows

/-- Rounds until nothing is left, or the given number of them. -/
def Mod.settleN : Nat → Mod → Mod
  | 0, m => m
  | k + 1, m => if m.calm then m else Mod.settleN k m.settleOnce

/-- The consequences of a command. A chain of consequences within one module has few links: a packet to itself, its answer, a fault that
it brings up, and the loss or check that follows. -/
def Mod.settle (m : Mod) : Mod := (Mod.settleN 6 m).chargeFaults

/-- What a command that has made `t` of `m` leaves: a health window read that was asked for before it is done by its end (R238; log entry
107), and no work waits for a PHY. -/
def Mod.leaves (m t : Mod) : Mod :=
  let t := if m.health.winDue then t.windowDone else t
  if t.power.phyWait then { t with power := { t.power with phyWait := false } } else t

/-- The module `t` that a command leaves of `m`. A command whose work has met a PHY that stopped with the resonator waits: nothing of it
happens (R17; log entry 113). -/
def Mod.waitsPhy (m t : Mod) : Mod := if t.power.phyWait then m else m.leaves t

/-- A meaning: the command's effect on the module, then what follows at once. The queue of waiting commands is not touched. -/
def run (f : Mod → Mod) (s : State) : Host.Outcome State Fault Refusal :=
  .next { s with toMod := s.toMod.waitsPhy (f s.toMod).settle }

/-- The meaning of a command of Parsnip's, of the reset logic or of an agent at the registers: it waits for no PHY. -/
def runNow (f : Mod → Mod) (s : State) : Host.Outcome State Fault Refusal :=
  .next { s with toMod := s.toMod.leaves (f s.toMod).settle }

/-- Whether Parsnip serves a write over the management bus: it runs, and in FAILED it takes no action but the cold reset that ends FAILED
(R19, R426, R429, R533). -/
def Mod.mgmtServes (m : Mod) (off : Nat) (v : Word) : Bool :=
  m.parsnipUp && (m.rstState != stFAILED || (off == RST.CTL.o && v.getLsbD 1))

/-- A register write by an agent (R457, R468). A write over the management bus that Parsnip does not serve comes to nothing. -/
def Mod.writeFrom (m : Mod) (a : Agent) (off : Nat) (v : Word) : Mod :=
  match a with
  | .mgmt => if m.mgmtServes off v then m.regWrite a off v else m
  | .fabric _ _ => m.regWrite a off v

/-- Whether a packet at a port passes every check that stands before its unit takes it. -/
def Mod.admits (m : Mod) (port : Nat) (p : Pkt) : Bool :=
  m.pstate port == pUP && !m.fetching_ && pktOk p && !m.hostPort port && !m.foreign port p && !m.lateWarm p && !m.is TST.CFG.MODE &&
    !m.memside.paths.contains (136 + port) && m.takes port p && !m.passesOn p && m.tagLive (tagOf p)

/-- A Vine packet whose times of arrival and answer the row gives: taken by `hand`, or dropped as the port drops it. -/
def Mod.vineRow (m : Mod) (port : Nat) (p : Pkt) (hand : Mod → Mod) : Mod :=
  if m.admits port p then hand m else m.receivePkt port p

/-- Packet `p` with a class and type. -/
def asRow (p : Pkt) (cls typ : Nat) : Pkt := { p with cls := BitVec.ofNat 3 cls, typ := BitVec.ofNat 4 typ }

/-- SMBus Block Write, command 0x10 (R458): address byte, command, count, A and data under the PEC. A transaction whose PEC fails is
ignored. -/
def Mod.smbusWrite (m : Mod) (addr : BitVec 24) (data : Word) (pec : Byte) : Mod :=
  if !m.mgmtServes addr.toNat data then m.silent
  else if pec8 ([smbRegs, 0x10, 7] ++ leBytes 3 addr.toNat ++ leBytes 4 data.toNat) ≠ pec then m.silent
  else (m.driveOut []).regWrite .mgmt addr.toNat data

/-- SMBus Process Call, command 0x11 (R458): count 5, status and data, least significant byte first, and the PEC over the whole
transaction. The data are zero unless the status is zero. -/
def Mod.smbusRead (m : Mod) (addr : BitVec 24) : Mod :=
  if !m.parsnipUp then m.silent
  else
    let st := m.readStatus addr.toNat
    let a := leBytes 3 addr.toNat
    let d := leBytes 4 (if st = 0 then (m.regRead addr.toNat).toNat else 0)
    let out := [5, BitVec.ofNat 8 st] ++ d
    m.driveOut (out ++ [pec8 ([smbRegs, 0x11, 3] ++ a ++ [smbRegs + 1] ++ out)])

end Sys2Proof.Machine
end

