-- ==== Sys2Proof/Machine/CmdCore.lean ====
section
/-! DEFINITION. Queues, descriptors and the engines of a core (chapters 3, 7 and 9). An engine's command acts on the oldest started descriptor of its
opcode in the queue named. -/

namespace Sys2Proof.Machine

/-- An array pass is taken by the array (R84). -/
def execArrayPass (core : Fin 128) (q : Fin 4) (s : State) : Host.Outcome State Fault Refusal := run (fun m => m.arrayPass core.val q.val) s

/-- A weight load completes (R69). -/
def execWeightLoadDone (core : Fin 128) (s : State) : Host.Outcome State Fault Refusal := run (fun m => m.weightLoadDone core.val) s

/-- A pass completes (R86). -/
def execArrayPassComplete (core : Fin 128) (s : State) : Host.Outcome State Fault Refusal := run (fun m => m.arrayPassComplete core.val) s

/-- A drain ends (R70). -/
def execArrayDrainDone (core : Fin 128) (s : State) : Host.Outcome State Fault Refusal := run (fun m => m.arrayDrainDone core.val) s

/-- A byte that a pass reads is uncorrectable (R85). -/
def execArrData (core : Fin 128) (off : BitVec 22) (s : State) : Host.Outcome State Fault Refusal :=
  run (fun m => m.arrData core.val off.toNat) s

/-- The ramp-down ends (R78). -/
def execRampDownDone (core : Fin 128) (s : State) : Host.Outcome State Fault Refusal := run (fun m => m.rampDownDone core.val) s

/-- The next descriptor starts (R166). -/
def execDescriptorStart (core : Fin 128) (q : Fin 4) (s : State) : Host.Outcome State Fault Refusal :=
  run (fun m => m.startDesc core.val q.val) s

/-- The oldest descriptor completes (R167). -/
def execDescriptorComplete (core : Fin 128) (q : Fin 4) (s : State) : Host.Outcome State Fault Refusal :=
  run (fun m => m.completeDesc core.val q.val) s

/-- NOP (R171). -/
def execNop (core : Fin 128) (q : Fin 4) (s : State) : Host.Outcome State Fault Refusal := run (fun m => m.runNop core.val q.val) s

/-- SYNC (R172). -/
def execSync (core : Fin 128) (q : Fin 4) (s : State) : Host.Outcome State Fault Refusal := run (fun m => m.runSync core.val q.val) s

/-- A waiting SYNC reads its word again (R172). -/
def execSyncPoll (core : Fin 128) (q : Fin 4) (s : State) : Host.Outcome State Fault Refusal :=
  run (fun m => m.runSyncPoll core.val q.val) s

/-- ENQUEUE (R173). -/
def execEnqueue (core : Fin 128) (q : Fin 4) (s : State) : Host.Outcome State Fault Refusal := run (fun m => m.runEnqueue core.val q.val) s

/-- Room appears for a waiting ENQUEUE (R173). -/
def execEnqueueSpace (core : Fin 128) (q : Fin 4) (s : State) : Host.Outcome State Fault Refusal :=
  run (fun m => m.runEnqueueSpace core.val q.val) s

/-- STEP_MARK (R174); the one that opens a swap's step reloads the queue (R379). -/
def Mod.stepMark (m : Mod) (n q : Nat) : Mod :=
  let t := m.runStepMark n q
  if t.f (CORE.Q_STAT.GEN n q) = m.f (CORE.Q_STAT.GEN n q) then t else t.swapMark n q

/-- STEP_MARK (R174). -/
def execStepMark (core : Fin 128) (q : Fin 4) (s : State) : Host.Outcome State Fault Refusal := run (fun m => m.stepMark core.val q.val) s

/-- COPY (R179). -/
def execCopy (core : Fin 128) (q : Fin 4) (noise : Noise) (s : State) : Host.Outcome State Fault Refusal :=
  run (fun m => m.onDma core.val q.val fun m => m.runCopy core.val q.val noise) s

/-- SKEW (R181). -/
def execSkew (core : Fin 128) (q : Fin 4) (s : State) : Host.Outcome State Fault Refusal := run (fun m => m.onDma core.val q.val fun m => m.runSkew core.val q.val) s

/-- WEIGHT (R182). -/
def execWeight (core : Fin 128) (q : Fin 4) (s : State) : Host.Outcome State Fault Refusal := run (fun m => m.onDma core.val q.val fun m => m.runWeight core.val q.val) s

/-- Scatter-add (R252). -/
def execScatterAdd (core : Fin 128) (q : Fin 4) (s : State) : Host.Outcome State Fault Refusal :=
  run (fun m => m.onDma core.val q.val fun m => m.runScatter core.val q.val) s

/-- ELT (R185). -/
def execElt (core : Fin 128) (q : Fin 4) (s : State) : Host.Outcome State Fault Refusal := run (fun m => m.onVec core.val q.val fun m => m.runElt core.val q.val) s

/-- QUANT (R189). -/
def execQuant (core : Fin 128) (q : Fin 4) (s : State) : Host.Outcome State Fault Refusal := run (fun m => m.onVec core.val q.val fun m => m.runQuant core.val q.val) s

/-- AMAX (R187). -/
def execAmax (core : Fin 128) (q : Fin 4) (s : State) : Host.Outcome State Fault Refusal := run (fun m => m.onVec core.val q.val fun m => m.runAmax core.val q.val) s

/-- RANKSUM (R188). -/
def execRanksum (core : Fin 128) (q : Fin 4) (s : State) : Host.Outcome State Fault Refusal := run (fun m => m.onVec core.val q.val fun m => m.runRanksum core.val q.val) s

/-- ROWRED (R186). -/
def execRowred (core : Fin 128) (q : Fin 4) (s : State) : Host.Outcome State Fault Refusal := run (fun m => m.onVec core.val q.val fun m => m.runRowred core.val q.val) s

/-- A draining context closes (R177). -/
def execCtxDone (core : Fin 128) (ctx : Fin 16) (s : State) : Host.Outcome State Fault Refusal :=
  run (fun m => m.closeContext core.val ctx.val) s

/-- A reply to a request within the module (R176). -/
def execRequestReply (core : Fin 128) (ctx : Fin 16) (inst : Byte) (gen : BitVec 16) (count : Nat) (s : State) : Host.Outcome State Fault Refusal :=
  run (fun m => m.requestReply core.val ctx.val inst.toNat gen.toNat count) s

/-- A waiting Stalk write goes on (R197). -/
def execStalkWriteRelease (core : Fin 128) (q : Fin 4) (s : State) : Host.Outcome State Fault Refusal :=
  run (fun m => m.stalkRelease core.val q.val) s

/-- A tile check ends (R234). -/
def execTileCheckDone (core : Fin 128) (s : State) : Host.Outcome State Fault Refusal := run (fun m => m.tileCheck core.val) s

end Sys2Proof.Machine
end

