-- ==== Sys2Proof/Machine/CmdLink.lean ====
section
/-! DEFINITION. Ports, packets, the torus and its collectives, and the Vine (chapters 12 and 13). A packet's row has the class and type that the row
names, and passes every check of the port and the module (R302, R320, R353, R424). -/

namespace Sys2Proof.Machine

/-- Base training ends (R288). -/
def execBaseTrainingEnd (port : Fin 8) (s : State) : Host.Outcome State Fault Refusal := run (fun m => m.baseEnd port.val) s

/-- A candidate's window ends; a port that comes UP is checked for its wiring (R318). -/
def Mod.candidateEnd (m : Mod) (p fibres : Nat) : Mod :=
  let t := m.qualifyEnd p fibres
  if m.pstate p != pUP && t.pstate p == pUP then t.wiringCheck p else t

/-- A candidate's window ends (R289). -/
def execCandidateQualifyEnd (port : Fin 8) (fibres : BitVec 4) (s : State) : Host.Outcome State Fault Refusal :=
  run (fun m => m.candidateEnd port.val fibres.toNat) s

/-- One second after a failure (R288). -/
def execNegotiationRestart (port : Fin 8) (s : State) : Host.Outcome State Fault Refusal := run (fun m => m.negRestart port.val) s

/-- A CAPS packet (R290). -/
def execCaps (port : Fin 8) (fibre : Fin 4) (payload : List Byte) (s : State) : Host.Outcome State Fault Refusal :=
  run (fun m => m.takeCaps port.val fibre.val payload) s

/-- A frame (R293). -/
def execFrameReceive (port : Fin 8) (fseq : BitVec 16) (units : List Unit16) (fcrc : Word) (fecCe fecUe : Nat) (s : State) : Host.Outcome State Fault Refusal :=
  run (fun m => m.takeFrame port.val fseq.toNat units fcrc fecCe fecUe) s

/-- A frame boundary (R291). -/
def execFrameSend (port : Fin 8) (s : State) : Host.Outcome State Fault Refusal := run (fun m => m.frameSend port.val) s

/-- A link control unit (R292). -/
def execLcu (port : Fin 8) (u : Unit16) (s : State) : Host.Outcome State Fault Refusal := run (fun m => m.takeLcu port.val u) s

/-- A packet of a class is sent (R298). -/
def execPacketSend (port : Fin 8) (cls : Fin 8) (s : State) : Host.Outcome State Fault Refusal :=
  run (fun m => m.packetSend port.val cls.val) s

/-- No valid LCU for 1 µs (R312). -/
def execLcuTimeout (port : Fin 8) (s : State) : Host.Outcome State Fault Refusal := run (fun m => m.linkDown port.val) s

/-- Not UP again in 10 ms (R313). -/
def execLinkLost (port : Fin 8) (s : State) : Host.Outcome State Fault Refusal := run (fun m => m.linkLost port.val) s

/-- Class 1, type 0 (R303). -/
def execWrite (port : Fin 8) (p : Pkt) (s : State) : Host.Outcome State Fault Refusal := run (fun m => m.rowPacket port p 1 0) s

/-- Class 1, type 1 (R303). -/
def execRead (port : Fin 8) (p : Pkt) (s : State) : Host.Outcome State Fault Refusal := run (fun m => m.rowPacket port p 1 1) s

/-- Class 2, type 0 (R303). -/
def execAck (port : Fin 8) (p : Pkt) (s : State) : Host.Outcome State Fault Refusal := run (fun m => m.rowPacket port p 2 0) s

/-- Class 2, type 1 (R302). -/
def execReadData (port : Fin 8) (p : Pkt) (s : State) : Host.Outcome State Fault Refusal := run (fun m => m.rowPacket port p 2 1) s

/-- Class 2, type 2 (R302). -/
def execRefused (port : Fin 8) (p : Pkt) (s : State) : Host.Outcome State Fault Refusal := run (fun m => m.rowPacket port p 2 2) s

/-- Every 8 µs (R306). -/
def execHeartbeatSend (s : State) : Host.Outcome State Fault Refusal := run (fun m => m.heartbeatSend) s

/-- Class 0, type 1 (R306). -/
def execHeartbeat (port : Fin 8) (p : Pkt) (s : State) : Host.Outcome State Fault Refusal := run (fun m => m.rowPacket port p 0 1) s

/-- `HB_MISS` periods without a heartbeat (R306). -/
def execHbMiss (port : Fin 8) (s : State) : Host.Outcome State Fault Refusal := run (fun m => m.hbMiss port.val) s

/-- Class 0, type 2 (R321). -/
def execAliasPkt (port : Fin 8) (p : Pkt) (s : State) : Host.Outcome State Fault Refusal := run (fun m => m.rowPacket port p 0 2) s

/-- Class 0, type 3 (R308). -/
def execFence (port : Fin 8) (p : Pkt) (s : State) : Host.Outcome State Fault Refusal := run (fun m => m.rowPacket port p 0 3) s

/-- Class 0, type 5 (R309). -/
def execFenceAck (port : Fin 8) (p : Pkt) (s : State) : Host.Outcome State Fault Refusal := run (fun m => m.rowPacket port p 0 5) s

/-- Class 0, type 6 (R538). -/
def execFault (port : Fin 8) (p : Pkt) (s : State) : Host.Outcome State Fault Refusal := run (fun m => m.rowPacket port p 0 6) s

/-- The engine reads the count word of its next entry (R332). -/
def execCollWaitPoll (s : State) : Host.Outcome State Fault Refusal := run (fun m => m.collPoll) s

/-- An entry's results are visible (R332). -/
def execCollEntryDone (s : State) : Host.Outcome State Fault Refusal := run (fun m => m.entryDone) s

/-- Class 3, type 0 (R329). -/
def execRs (port : Fin 8) (p : Pkt) (s : State) : Host.Outcome State Fault Refusal := run (fun m => m.rowPacket port p 3 0) s

/-- Class 3, type 1 (R330). -/
def execAg (port : Fin 8) (p : Pkt) (s : State) : Host.Outcome State Fault Refusal := run (fun m => m.rowPacket port p 3 1) s

/-- Class 3, type 2 (R334). -/
def execSmall (port : Fin 8) (p : Pkt) (s : State) : Host.Outcome State Fault Refusal := run (fun m => m.rowPacket port p 3 2) s

/-- Every 100 µs (R337). -/
def execVineSyncTimer (t1 : DWord) (s : State) : Host.Outcome State Fault Refusal := run (fun m => m.syncTimer t1) s

/-- A Vine packet with its INFO bit 0: 0 REQ, 1 RESP (R337). -/
def syncRow (p : Pkt) (resp : Nat) : Pkt := { asRow p 3 3 with info := BitVec.ofNat 48 (p.info.toNat / 2 * 2 + resp) }

/-- A REQ that arrived at t2 is answered at t3 (R337). -/
def execVineSyncReq (port : Fin 8) (p : Pkt) (t2 t3 : DWord) (s : State) : Host.Outcome State Fault Refusal :=
  run (fun m => m.vineRow port.val (syncRow p 0) fun m => m.syncReq port.val (syncRow p 0) t2 t3) s

/-- A RESP that arrived at t4 (R337). -/
def execVineSyncResp (port : Fin 8) (p : Pkt) (t4 : DWord) (s : State) : Host.Outcome State Fault Refusal :=
  run (fun m => m.vineRow port.val (syncRow p 1) fun m => m.syncResp (syncRow p 1) t4) s

/-- 2 ms without a valid sync (R338). -/
def execHoldover (s : State) : Host.Outcome State Fault Refusal := run (fun m => m.holdover) s

/-- At least every 100 µs (R339). -/
def execVineUpTimer (s : State) : Host.Outcome State Fault Refusal := run (fun m => m.upTimer) s

/-- Class 3, type 4 (R339). -/
def execVineUp (port : Fin 8) (p : Pkt) (s : State) : Host.Outcome State Fault Refusal := run (fun m => m.rowPacket port p 3 4) s

/-- Class 3, type 5 (R339). -/
def execVineAnn (port : Fin 8) (p : Pkt) (s : State) : Host.Outcome State Fault Refusal := run (fun m => m.rowPacket port p 3 5) s

/-- The effective time of an announcement (R339). -/
def execStepBoundary (s : State) : Host.Outcome State Fault Refusal := run (fun m => m.announced) s

/-- Class 4, type 0 (R152). -/
def execRow (port : Fin 8) (p : Pkt) (s : State) : Host.Outcome State Fault Refusal := run (fun m => m.rowPacket port p 4 0) s

/-- Class 5, type 0 (R253). -/
def execAdd (port : Fin 8) (p : Pkt) (s : State) : Host.Outcome State Fault Refusal := run (fun m => m.rowPacket port p 5 0) s

end Sys2Proof.Machine
end

