-- ==== Sys2Proof/Machine/CmdMgmt.lean ====
section
/-! DEFINITION. The management connector: SMBus, PMBus and boundary scan (R458, R513, R514). -/

namespace Sys2Proof.Machine

/-- One register word written over SMBus (R458). -/
def execSmbBlockWrite (addr : BitVec 24) (data : Word) (pec : Byte) (s : State) : Host.Outcome State Fault Refusal :=
  runNow (fun m => m.smbusWrite addr data pec) s

/-- One register word read over SMBus (R458). -/
def execSmbBlockRead (addr : BitVec 24) (s : State) : Host.Outcome State Fault Refusal := runNow (fun m => m.smbusRead addr) s

/-- The Alert Response Address is read (R458). -/
def execSmbAlertResponse (s : State) : Host.Outcome State Fault Refusal := runNow (fun m => m.alertResponse) s

/-- PMBus `PAGE` (R514). -/
def execPage (p : Byte) (pec : Byte) (s : State) : Host.Outcome State Fault Refusal := runNow (fun m => m.pmPage p pec) s

/-- PMBus `CLEAR_FAULTS` (R514). -/
def execClearFaults (pec : Byte) (s : State) : Host.Outcome State Fault Refusal := runNow (fun m => m.pmClear pec) s

/-- PMBus command 0x79 (R514). -/
def execStatusWord (s : State) : Host.Outcome State Fault Refusal := runNow (fun m => m.pmRead 0x79) s

/-- PMBus command 0x88 (R514). -/
def execReadVin (s : State) : Host.Outcome State Fault Refusal := runNow (fun m => m.pmRead 0x88) s

/-- PMBus command 0x89 (R514). -/
def execReadIin (s : State) : Host.Outcome State Fault Refusal := runNow (fun m => m.pmRead 0x89) s

/-- PMBus command 0x8B (R514). -/
def execReadVout (s : State) : Host.Outcome State Fault Refusal := runNow (fun m => m.pmRead 0x8B) s

/-- PMBus command 0x8C (R514). -/
def execReadIout (s : State) : Host.Outcome State Fault Refusal := runNow (fun m => m.pmRead 0x8C) s

/-- PMBus command 0x8D (R514). -/
def execReadTemperature1 (s : State) : Host.Outcome State Fault Refusal := runNow (fun m => m.pmRead 0x8D) s

/-- PMBus command 0x97 (R514). -/
def execReadPin (s : State) : Host.Outcome State Fault Refusal := runNow (fun m => m.pmRead 0x97) s

/-- Any other PMBus command (R514). -/
def execPmbusNack (cmd : Byte) (s : State) : Host.Outcome State Fault Refusal := runNow (fun m => m.pmOther cmd) s

/-- IDCODE (R513). -/
def execIdcode (s : State) : Host.Outcome State Fault Refusal := runNow (fun m => m.scanIdcode) s

/-- BYPASS (R513). -/
def execBypass (s : State) : Host.Outcome State Fault Refusal := runNow (fun m => m.scanBypass) s

/-- Any other boundary-scan instruction (R513). -/
def execScanInstruction (ir : Nat) (s : State) : Host.Outcome State Fault Refusal := runNow (fun m => m.scanOther ir) s

end Sys2Proof.Machine
end

