-- ==== Sys2Proof/Machine/CmdPair.lean ====
section
/-! DEFINITION. Duplex pairs and checkpoints (chapters 14 and 15). -/

namespace Sys2Proof.Machine

/-- Class 6, type 0 (R347). -/
def execPair (port : Fin 8) (p : Pkt) (s : State) : Host.Outcome State Fault Refusal := run (fun m => m.rowPacket port p 6 0) s

/-- Class 6, type 2 (R349). -/
def execDigest (port : Fin 8) (p : Pkt) (s : State) : Host.Outcome State Fault Refusal := run (fun m => m.rowPacket port p 6 2) s

/-- The re-check's reads end (R350). -/
def execRecheckDone (s : State) : Host.Outcome State Fault Refusal := run (fun m => m.recheckDone) s

/-- Class 6, type 1 (R348). -/
def execShard (port : Fin 8) (p : Pkt) (s : State) : Host.Outcome State Fault Refusal := run (fun m => m.rowPacket port p 6 1) s

/-- Class 6, type 3 (R216). -/
def execTw (port : Fin 8) (p : Pkt) (s : State) : Host.Outcome State Fault Refusal := run (fun m => m.rowPacket port p 6 3) s

/-- Class 6, type 4 (R360). -/
def execDupAck (port : Fin 8) (p : Pkt) (s : State) : Host.Outcome State Fault Refusal := run (fun m => m.rowPacket port p 6 4) s

/-- Class 6, type 5 (R360). -/
def execPodCopy (port : Fin 8) (p : Pkt) (s : State) : Host.Outcome State Fault Refusal := run (fun m => m.rowPacket port p 6 5) s

/-- Class 6, type 6 (R380). -/
def execRmData (port : Fin 8) (p : Pkt) (s : State) : Host.Outcome State Fault Refusal := run (fun m => m.rowPacket port p 6 6) s

/-- The next packet of a fill (R380). -/
def execRmSend (s : State) : Host.Outcome State Fault Refusal := run (fun m => m.rmSend) s

/-- Class 6, type 7 (R384). -/
def execRmReq (port : Fin 8) (p : Pkt) (s : State) : Host.Outcome State Fault Refusal := run (fun m => m.rowPacket port p 6 7) s

/-- Class 6, type 8 (R370). -/
def execProbe (port : Fin 8) (p : Pkt) (s : State) : Host.Outcome State Fault Refusal := run (fun m => m.rowPacket port p 6 8) s

/-- Class 6, type 9 (R370). -/
def execProbeReply (port : Fin 8) (p : Pkt) (s : State) : Host.Outcome State Fault Refusal := run (fun m => m.rowPacket port p 6 9) s

/-- `PROBE_WAIT` ends unanswered: the loss is certain (R370). -/
def Mod.probeExpiry (m : Mod) : Mod :=
  match m.dup.probing with
  | none => m
  | some cause => m.lossCertain cause

/-- `PROBE_WAIT` ends (R370). -/
def execProbeWaitExpiry (s : State) : Host.Outcome State Fault Refusal := run (fun m => m.probeExpiry) s

/-- The wait for FENCE_ACKs ends (R371). -/
def execFenceAckWaitExpiry (s : State) : Host.Outcome State Fault Refusal := run (fun m => m.takeOver) s

/-- The result of the start words (R395). -/
def execCkptStartResult (c : Word) (want hold drain0 drain1 : Bool) (s : State) : Host.Outcome State Fault Refusal :=
  run (onResult s.startHeld (c, want, hold, drain0, drain1) Mod.startResult) s

/-- The copy starts (R397). -/
def execCkptCopyStart (s : State) : Host.Outcome State Fault Refusal := run (fun m => m.copyStart) s

/-- The copy ends (R398). -/
def execCkptCopyDone (s : State) : Host.Outcome State Fault Refusal := run (fun m => m.copyEnd) s

/-- Class 7, type 4 (R396). -/
def execSha (port : Fin 8) (p : Pkt) (s : State) : Host.Outcome State Fault Refusal := run (fun m => m.rowPacket port p 7 4) s

/-- A parity slice starts (R399). -/
def execParitySlice (n : Nat) (s : State) : Host.Outcome State Fault Refusal := run (fun m => m.openSlice n) s

/-- Class 7, type 0 (R399). -/
def execPull (port : Fin 8) (p : Pkt) (s : State) : Host.Outcome State Fault Refusal := run (fun m => m.rowPacket port p 7 0) s

/-- Class 7, type 1 (R399). -/
def execPart (port : Fin 8) (p : Pkt) (s : State) : Host.Outcome State Fault Refusal := run (fun m => m.rowPacket port p 7 1) s

/-- Class 7, type 2 (R399). -/
def execZero (port : Fin 8) (p : Pkt) (s : State) : Host.Outcome State Fault Refusal := run (fun m => m.rowPacket port p 7 2) s

/-- Class 7, type 3 (R399). -/
def execNotReady (port : Fin 8) (p : Pkt) (s : State) : Host.Outcome State Fault Refusal := run (fun m => m.rowPacket port p 7 3) s

/-- The commit vote returns (R396). -/
def execCommitResult (complete : Bool) (s : State) : Host.Outcome State Fault Refusal :=
  run (onResult s.commitHeld complete Mod.commitResult) s

/-- A round of a restore returns (R404). -/
def execRestoreRoundResult (c : Word) (seen stepsEqual : Bool) (groupTotals : List Nat) (lacking : Option (Fin 8)) (s : State) :
    Host.Outcome State Fault Refusal :=
  run (onResult s.roundHeld (c, seen, stepsEqual, groupTotals, lacking) Mod.restoreRound) s

/-- The chosen generation has been copied (R406). -/
def execRestoreCopyDone (manifest : List Byte) (s : State) : Host.Outcome State Fault Refusal := run (fun m => m.restoreCopied manifest) s

/-- The next packet of a drain (R407). -/
def execDrainSend (s : State) : Host.Outcome State Fault Refusal := run (fun m => m.drainSend) s

/-- Class 7, type 5 (R409). -/
def execExportPkt (port : Fin 8) (p : Pkt) (s : State) : Host.Outcome State Fault Refusal := run (fun m => m.rowPacket port p 7 5) s

/-- Class 7, type 6 (R408). -/
def execImportPkt (port : Fin 8) (p : Pkt) (s : State) : Host.Outcome State Fault Refusal := run (fun m => m.rowPacket port p 7 6) s

end Sys2Proof.Machine
end

