-- ==== Sys2Proof/Machine/CmdPower.lean ====
section
/-! DEFINITION. Start-up, supplies, thermal trips and rails (chapters 2, 18 and 19). -/

namespace Sys2Proof.Machine

/-- The auxiliary input enters its range with `RESET_N` high: the ROM starts (R498). -/
def execPowerOnStart (s : State) : Host.Outcome State Fault Refusal := runNow (fun m => m.powerOn) s

/-- PUF reconstruction ends (R511). -/
def execIdReconstructDone (ok : Bool) (s : State) : Host.Outcome State Fault Refusal := runNow (fun m => m.identityDone ok) s

/-- Both images have been judged (R504, R505). -/
def execImageVerifyDone (s : State) : Host.Outcome State Fault Refusal := runNow (fun m => m.imagesJudged) s

/-- `IN_OK` and `PWR_EN` both hold (R497). -/
def execPowerInputsReady (cv : BitVec 16) (s : State) : Host.Outcome State Fault Refusal := runNow (fun m => m.inputsReady cv.toNat) s

/-- Rails, resonator and PHYs are up (R498). -/
def execRailRampDone (s : State) : Host.Outcome State Fault Refusal := runNow (fun m => m.railsUp) s

/-- The die-to-die links have trained, at start-up or in a warm recovery (R498, R422). -/
def execDieLinkTrainDone (s : State) : Host.Outcome State Fault Refusal := runNow (fun m => m.dieLinksUp) s

/-- The HBM has trained (R498). -/
def execHbmTrainDone (repaired : List Nat) (s : State) : Host.Outcome State Fault Refusal := runNow (fun m => m.hbmUp repaired) s

/-- A seed-set slot is verified (R444). -/
def execSeedSetVerify (slot : Fin 4) (s : State) : Host.Outcome State Fault Refusal := runNow (fun m => m.seedDone slot.val) s

/-- A supply fault of the 48 V input (R500). -/
def execInLow (cv : BitVec 16) (s : State) : Host.Outcome State Fault Refusal := runNow (fun m => m.inputLow cv.toNat) s

/-- `PWR_EN` goes low (R500). -/
def execPwrEnFall (s : State) : Host.Outcome State Fault Refusal := runNow (fun m => m.enableFell) s

/-- The auxiliary input is lost (R500). -/
def execAuxLost (s : State) : Host.Outcome State Fault Refusal := runNow (fun m => m.auxiliaryLost) s

/-- The input switch closes (R526). -/
def execInrushDone (cv : BitVec 16) (s : State) : Host.Outcome State Fault Refusal := runNow (fun m => m.inrushOver cv.toNat) s

/-- The input rises above 65 V (R527). -/
def execInputOvervoltage (cv : BitVec 16) (s : State) : Host.Outcome State Fault Refusal := runNow (fun m => m.inputHigh cv.toNat) s

/-- The input falls below 36 V on unmating (R526). -/
def execUnmateSwitchOpen (cv : BitVec 16) (s : State) : Host.Outcome State Fault Refusal := runNow (fun m => m.unmated cv.toNat) s

/-- `RESET_N` is held low (R432). -/
def execResetNLow (s : State) : Host.Outcome State Fault Refusal := runNow (fun m => m.resetLow) s

/-- A die reaches 110 °C (R533). -/
def execThermtrip (die : Fin 3) (s : State) : Host.Outcome State Fault Refusal := runNow (fun m => m.thermalTrip die.val) s

/-- The dies have cooled below 100 °C (R533). -/
def execDieCooled (s : State) : Host.Outcome State Fault Refusal := runNow (fun m => m.diesCooled) s

/-- The reference resonator stops (R17). -/
def execResonatorFail (s : State) : Host.Outcome State Fault Refusal := runNow (fun m => m.resonatorStops) s

/-- A core rail falls below 0.57 V (R42). -/
def execRailLow (rail : Fin 3) (mv : BitVec 10) (s : State) : Host.Outcome State Fault Refusal :=
  runNow (fun m => m.railFalls rail.val mv.toNat) s

/-- A die-to-die link fails (R420). -/
def execDieLinkFail (link : Fin 3) (s : State) : Host.Outcome State Fault Refusal := runNow (fun m => m.dieLinkFails link.val) s

/-- A trim step down (R47). -/
def execPowerTrimStep (watts : BitVec 16) (s : State) : Host.Outcome State Fault Refusal := runNow (fun m => m.trimDown watts.toNat) s

/-- A trim step up (R47). -/
def execPowerTrimRestore (watts : BitVec 16) (s : State) : Host.Outcome State Fault Refusal := runNow (fun m => m.trimUp watts.toNat) s

/-- A rail moves toward its set point (R517). -/
def execRailSetStep (rail : Fin 3) (s : State) : Host.Outcome State Fault Refusal := runNow (fun m => m.railStep rail.val) s

end Sys2Proof.Machine
end

