-- ==== Sys2Proof/Machine/CmdRegs.lean ====
section
/-! DEFINITION. Register writes (R457–R477). Every one is judged and applied by `Mod.regWrite`, each row at the address of the register it names; the
word written decides which of the register's commands it gives. -/

namespace Sys2Proof.Machine

/-- A rail set point (R517). -/
def execRailSet (a : Agent) (rail : Fin 3) (v : Word) (s : State) : Host.Outcome State Fault Refusal :=
  runNow (fun m => m.writeFrom a (PWR.RAIL_SET.o rail.val) v) s

/-- A register without a row of its own (R468). -/
def execRegisterWrite (a : Agent) (off : BitVec 24) (v : Word) (s : State) : Host.Outcome State Fault Refusal :=
  runNow (fun m => m.writeFrom a off.toNat v) s

/-- The EVT register of a block: block 0 holds WERR, blocks from 256 on are the cores. A block without one is named by an offset that no
table defines. -/
def evtTarget (block : Nat) : Nat := (evtOff block).getD (0xFFF000 + block)

/-- A write of a block's EVT, or of WERR (R471). -/
def execEvtClear (a : Agent) (block : BitVec 12) (v : Word) (s : State) : Host.Outcome State Fault Refusal :=
  runNow (fun m => m.writeFrom a (evtTarget block.toNat) v) s

/-- `GEN.LOCK` (R473). -/
def execLockSet (a : Agent) (v : Word) (s : State) : Host.Outcome State Fault Refusal := runNow (fun m => m.writeFrom a GEN.LOCK.o v) s

/-- `SNAP.CTL.TAKE` (R474). -/
def execTake (a : Agent) (v : Word) (s : State) : Host.Outcome State Fault Refusal := runNow (fun m => m.writeFrom a SNAP.CTL.o v) s

/-- The last sample is taken (R474–R477). -/
def execSnapshotDone (spread : BitVec 16) (coinc : List Nat) (s : State) : Host.Outcome State Fault Refusal :=
  runNow (fun m => m.snapshotDone spread.toNat coinc) s

/-- `RST.CTL.WARM` (R436). -/
def execRstWarm (a : Agent) (v : Word) (s : State) : Host.Outcome State Fault Refusal := runNow (fun m => m.writeFrom a RST.CTL.o v) s

/-- `RST.CTL.COLD` (R432). -/
def execRstCold (a : Agent) (v : Word) (s : State) : Host.Outcome State Fault Refusal := runNow (fun m => m.writeFrom a RST.CTL.o v) s

/-- `RST.SP_SEL` (R435). -/
def execSpSel (a : Agent) (v : Word) (s : State) : Host.Outcome State Fault Refusal := runNow (fun m => m.writeFrom a RST.SP_SEL.o v) s

/-- `DBG.ACC_SEL` (R127). -/
def execAccSelGo (a : Agent) (v : Word) (s : State) : Host.Outcome State Fault Refusal := runNow (fun m => m.writeFrom a DBG.ACC_SEL.o v) s

/-- `Q_TAIL` (R163). -/
def execQTailWrite (a : Agent) (core : Fin 128) (q : Fin 4) (v : Word) (s : State) : Host.Outcome State Fault Refusal :=
  runNow (fun m => m.writeFrom a (CORE.Q_TAIL.o core.val q.val) v) s

/-- `Q_CTL.ENABLE` (R193). -/
def execQEnable (a : Agent) (core : Fin 128) (q : Fin 4) (v : Word) (s : State) : Host.Outcome State Fault Refusal :=
  runNow (fun m => m.writeFrom a (CORE.Q_CTL.o core.val q.val) v) s

/-- `Q_CTL.RESUME` (R170). -/
def execResume (a : Agent) (core : Fin 128) (q : Fin 4) (v : Word) (s : State) : Host.Outcome State Fault Refusal :=
  runNow (fun m => m.writeFrom a (CORE.Q_CTL.o core.val q.val) v) s

/-- `CTX_CTL.OPEN` (R175). -/
def execCtxOpen (a : Agent) (core : Fin 128) (ctx : Fin 16) (v : Word) (s : State) : Host.Outcome State Fault Refusal :=
  runNow (fun m => m.writeFrom a (CORE.CTX_CTL.o core.val ctx.val) v) s

/-- `CTX_CTL.TEARDOWN` (R177). -/
def execCtxTeardown (a : Agent) (core : Fin 128) (ctx : Fin 16) (v : Word) (s : State) : Host.Outcome State Fault Refusal :=
  runNow (fun m => m.writeFrom a (CORE.CTX_CTL.o core.val ctx.val) v) s

/-- `FEN.CFG.ENABLE` (R158). -/
def execFenEnable (a : Agent) (v : Word) (s : State) : Host.Outcome State Fault Refusal := runNow (fun m => m.writeFrom a FEN.CFG.o v) s

/-- `UPD.STK_CTL.CLEAR` (R199). -/
def execStkClear (a : Agent) (v : Word) (s : State) : Host.Outcome State Fault Refusal := runNow (fun m => m.writeFrom a UPD.STK_CTL.o v) s

/-- `UPD.CFG.ENABLE` (R218). -/
def execUpdEnable (a : Agent) (v : Word) (s : State) : Host.Outcome State Fault Refusal := runNow (fun m => m.writeFrom a UPD.CFG.o v) s

/-- `UPD.TW_GO` (R216). -/
def execTwGo (a : Agent) (v : Word) (s : State) : Host.Outcome State Fault Refusal := runNow (fun m => m.writeFrom a UPD.TW_GO.o v) s

/-- `HLT.WIN_SEL` (R237). -/
def execWinSelGo (a : Agent) (v : Word) (s : State) : Host.Outcome State Fault Refusal := runNow (fun m => m.writeFrom a HLT.WIN_SEL.o v) s

/-- `MEM.CFG.SQ_EN` (R257). -/
def execSqEnClear (a : Agent) (v : Word) (s : State) : Host.Outcome State Fault Refusal := runNow (fun m => m.writeFrom a MEM.CFG.o v) s

/-- `WIN_CTL.CLEAR` (R259). -/
def execWinClear (a : Agent) (win : Fin 16) (v : Word) (s : State) : Host.Outcome State Fault Refusal :=
  runNow (fun m => m.writeFrom a (MEM.WIN_CTL.o win.val) v) s

/-- `REMAP_REQ_HI.GO` (R274). -/
def execRemapReqGo (a : Agent) (v : Word) (s : State) : Host.Outcome State Fault Refusal :=
  runNow (fun m => m.writeFrom a MPR.REMAP_REQ_HI.o v) s

/-- `SCRUB_CTL.GO` (R278). -/
def execScrubGo (a : Agent) (v : Word) (s : State) : Host.Outcome State Fault Refusal := runNow (fun m => m.writeFrom a MPR.SCRUB_CTL.o v) s

/-- `SCRUB_CTL.ABORT` (R280). -/
def execScrubAbort (a : Agent) (v : Word) (s : State) : Host.Outcome State Fault Refusal := runNow (fun m => m.writeFrom a MPR.SCRUB_CTL.o v) s

/-- `PORT_CTL.ENABLE` (R288). -/
def execPortEnable (a : Agent) (port : Fin 8) (v : Word) (s : State) : Host.Outcome State Fault Refusal :=
  runNow (fun m => m.writeFrom a (LNK.PORT_CTL.o port.val) v) s

/-- `PORT_CTL.RETRAIN` (R312). -/
def execRetrain (a : Agent) (port : Fin 8) (v : Word) (s : State) : Host.Outcome State Fault Refusal :=
  runNow (fun m => m.writeFrom a (LNK.PORT_CTL.o port.val) v) s

/-- `PORT_CTL.FENCE` (R310). -/
def execPortFence (a : Agent) (port : Fin 8) (v : Word) (s : State) : Host.Outcome State Fault Refusal :=
  runNow (fun m => m.writeFrom a (LNK.PORT_CTL.o port.val) v) s

/-- `PORT_CTL.UNFENCE` (R310). -/
def execUnfence (a : Agent) (port : Fin 8) (v : Word) (s : State) : Host.Outcome State Fault Refusal :=
  runNow (fun m => m.writeFrom a (LNK.PORT_CTL.o port.val) v) s

/-- `COLL_CTL.ENABLE` (R332). -/
def execCollEnable (a : Agent) (v : Word) (s : State) : Host.Outcome State Fault Refusal := runNow (fun m => m.writeFrom a TOR.COLL_CTL.o v) s

/-- `COLL_CTL.RESUME` (R333). -/
def execCollResume (a : Agent) (v : Word) (s : State) : Host.Outcome State Fault Refusal := runNow (fun m => m.writeFrom a TOR.COLL_CTL.o v) s

/-- `TKO_CTL.ARM` (R368). -/
def execArm (a : Agent) (v : Word) (s : State) : Host.Outcome State Fault Refusal := runNow (fun m => m.writeFrom a DUP.TKO_CTL.o v) s

/-- `TKO_CTL.DISARM` (R368). -/
def execDisarm (a : Agent) (v : Word) (s : State) : Host.Outcome State Fault Refusal := runNow (fun m => m.writeFrom a DUP.TKO_CTL.o v) s

/-- `TKO_CTL.CONFIRM` (R375). -/
def execConfirm (a : Agent) (v : Word) (s : State) : Host.Outcome State Fault Refusal := runNow (fun m => m.writeFrom a DUP.TKO_CTL.o v) s

/-- `TKO_CTL.REVERSE` (R375). -/
def execReverse (a : Agent) (v : Word) (s : State) : Host.Outcome State Fault Refusal := runNow (fun m => m.writeFrom a DUP.TKO_CTL.o v) s

/-- `TKO_CTL.SWAP_GO` (R379). -/
def execSwapGo (a : Agent) (v : Word) (s : State) : Host.Outcome State Fault Refusal := runNow (fun m => m.writeFrom a DUP.TKO_CTL.o v) s

/-- `TKO_CTL.MFILL_GO` (R381). -/
def execMfillGo (a : Agent) (v : Word) (s : State) : Host.Outcome State Fault Refusal := runNow (fun m => m.writeFrom a DUP.TKO_CTL.o v) s

/-- `DUP.CFG.ROLE_REQ` (R345). -/
def execRoleReq (a : Agent) (v : Word) (s : State) : Host.Outcome State Fault Refusal := runNow (fun m => m.writeFrom a DUP.CFG.o v) s

/-- `BLB.CTL.NOW` (R394). -/
def execCkptNow (a : Agent) (v : Word) (s : State) : Host.Outcome State Fault Refusal := runNow (fun m => m.writeFrom a BLB.CTL.o v) s

/-- `RS_CTL.GO` (R403). -/
def execRestoreGo (a : Agent) (v : Word) (s : State) : Host.Outcome State Fault Refusal := runNow (fun m => m.writeFrom a BLB.RS_CTL.o v) s

/-- `DR_CTL.GO` (R407). -/
def execDrGo (a : Agent) (v : Word) (s : State) : Host.Outcome State Fault Refusal := runNow (fun m => m.writeFrom a BLB.DR_CTL.o v) s

/-- `DR_CTL.ABORT` (R407). -/
def execDrAbort (a : Agent) (v : Word) (s : State) : Host.Outcome State Fault Refusal := runNow (fun m => m.writeFrom a BLB.DR_CTL.o v) s

/-- `IM_CTL.BEGIN` (R408). -/
def execImBegin (a : Agent) (v : Word) (s : State) : Host.Outcome State Fault Refusal := runNow (fun m => m.writeFrom a BLB.IM_CTL.o v) s

/-- `IM_CTL.DONE` (R408). -/
def execImDone (a : Agent) (v : Word) (s : State) : Host.Outcome State Fault Refusal := runNow (fun m => m.writeFrom a BLB.IM_CTL.o v) s

/-- `IM_CTL.ABORT` (R408). -/
def execImAbort (a : Agent) (v : Word) (s : State) : Host.Outcome State Fault Refusal := runNow (fun m => m.writeFrom a BLB.IM_CTL.o v) s

/-- `TST.CFG.MODE` (R440). -/
def execTstMode (a : Agent) (v : Word) (s : State) : Host.Outcome State Fault Refusal := runNow (fun m => m.writeFrom a TST.CFG.o v) s

/-- `RUN_CTL.GO` (R446). -/
def execRunGo (a : Agent) (v : Word) (s : State) : Host.Outcome State Fault Refusal := runNow (fun m => m.writeFrom a TST.RUN_CTL.o v) s

/-- `RUN_CTL.ABORT` (R448). -/
def execRunAbort (a : Agent) (v : Word) (s : State) : Host.Outcome State Fault Refusal := runNow (fun m => m.writeFrom a TST.RUN_CTL.o v) s

/-- `CLS_SEL.GO` (R455). -/
def execClsSelGo (a : Agent) (v : Word) (s : State) : Host.Outcome State Fault Refusal := runNow (fun m => m.writeFrom a TST.CLS_SEL.o v) s

/-- `CLS_CTL.CLEAR` (R452). -/
def execClsClear (a : Agent) (v : Word) (s : State) : Host.Outcome State Fault Refusal := runNow (fun m => m.writeFrom a TST.CLS_CTL.o v) s

/-- `HIST_SEL.GO` (R455). -/
def execHistSelGo (a : Agent) (v : Word) (s : State) : Host.Outcome State Fault Refusal := runNow (fun m => m.writeFrom a TST.HIST_SEL.o v) s

/-- `DBG.CTL.ENTER` (R493). -/
def execDebugEnter (a : Agent) (v : Word) (s : State) : Host.Outcome State Fault Refusal := runNow (fun m => m.writeFrom a DBG.CTL.o v) s

/-- `DBG.CTL.LEAVE` (R493). -/
def execDebugLeave (a : Agent) (v : Word) (s : State) : Host.Outcome State Fault Refusal := runNow (fun m => m.writeFrom a DBG.CTL.o v) s

/-- `TR_CTL.EN` (R491). -/
def execTraceEnable (a : Agent) (v : Word) (s : State) : Host.Outcome State Fault Refusal := runNow (fun m => m.writeFrom a DBG.TR_CTL.o v) s

/-- `TR_TAIL` (R492). -/
def execTrTailWrite (a : Agent) (v : Word) (s : State) : Host.Outcome State Fault Refusal := runNow (fun m => m.writeFrom a DBG.TR_TAIL.o v) s

/-- `STAGE_D` (R506). -/
def execStageD (a : Agent) (i : Fin 256) (v : Word) (s : State) : Host.Outcome State Fault Refusal :=
  runNow (fun m => m.writeFrom a (SEC.STAGE_D.o i.val) v) s

/-- `STAGE_CTL.DONE` (R507). -/
def execStageDone (a : Agent) (v : Word) (s : State) : Host.Outcome State Fault Refusal := runNow (fun m => m.writeFrom a SEC.STAGE_CTL.o v) s

/-- `STAGE_CTL.ABORT` (R510). -/
def execStageAbort (a : Agent) (v : Word) (s : State) : Host.Outcome State Fault Refusal := runNow (fun m => m.writeFrom a SEC.STAGE_CTL.o v) s

/-- `FETCH_CTL.SERVE` (R509). -/
def execServe (a : Agent) (v : Word) (s : State) : Host.Outcome State Fault Refusal := runNow (fun m => m.writeFrom a SEC.FETCH_CTL.o v) s

/-- `ATT_CTL.GO` (R512). -/
def execAttGo (a : Agent) (v : Word) (s : State) : Host.Outcome State Fault Refusal := runNow (fun m => m.writeFrom a SEC.ATT_CTL.o v) s

end Sys2Proof.Machine
end

