-- ==== Sys2Proof/Machine/CmdReset.lean ====
section
/-! DEFINITION. Recovery, keep-alive, debug, trace, field test and attestation events (chapters 16 to 18). -/

namespace Sys2Proof.Machine

/-- A watched domain's window expires (R416). -/
def execSprout (domain : Nat) (s : State) : Host.Outcome State Fault Refusal := runNow (fun m => m.sproutExpiry domain) s

/-- A domain acknowledges the quiesce request (R423). -/
def execQuiesceAck (domain : Nat) (s : State) : Host.Outcome State Fault Refusal := runNow (fun m => m.quiesceAck domain) s

/-- `QUIESCE_WAIT` ends (R422). -/
def execQuiesceWaitExpiry (s : State) : Host.Outcome State Fault Refusal := runNow (fun m => m.quiesceExpiry) s

/-- The stacks are in self refresh (R422). -/
def execSelfRefreshEntered (s : State) : Host.Outcome State Fault Refusal := runNow (fun m => m.selfRefreshIn) s

/-- The reset hold ends (R422). -/
def execResetHoldEnd (s : State) : Host.Outcome State Fault Refusal := runNow (fun m => m.resetHoldEnd) s

/-- The HBM has retrained (R422). -/
def execWarmDone (s : State) : Host.Outcome State Fault Refusal := runNow (fun m => m.warmDone) s

/-- `RECOV_WAIT` expires (R426). -/
def execRecovStall (s : State) : Host.Outcome State Fault Refusal := runNow (fun m => m.recovStall) s

/-- 10 ms without a keep-alive (R429). -/
def execParsnipKeepaliveTimeout (s : State) : Host.Outcome State Fault Refusal := runNow (fun m => m.keepAliveLost) s

/-- Parsnip's keep-alive (R429). -/
def execKeepAlive (s : State) : Host.Outcome State Fault Refusal := runNow (fun m => m.keepAlive) s

/-- An accumulator read is taken (R128). -/
def execAccReadTaken (seen : ReadMoment) (s : State) : Host.Outcome State Fault Refusal :=
  runNow (fun m => m.accReadTaken seen.coincide seen.lag) s

/-- A flush item (R491). -/
def execFlushItem (dropped : Bool) (s : State) : Host.Outcome State Fault Refusal := run (fun m => m.flushItem dropped) s

/-- The die reaches `T_TARGET` (R443). -/
def execHeatTargetReached (s : State) : Host.Outcome State Fault Refusal := runNow (fun m => m.heatReached) s

/-- The target is not reached in 120 s (R443). -/
def execNoHeat (s : State) : Host.Outcome State Fault Refusal := runNow (fun m => m.noHeat) s

/-- The junction reaches 103 °C, or cools to 100 °C (R443). -/
def execHeaterTrip (tj : Byte) (s : State) : Host.Outcome State Fault Refusal := runNow (fun m => m.heaterTrip tj.toNat) s

/-- A stress point ends (R446). -/
def execPointEnd (fails : List (Nat × Nat)) (s : State) : Host.Outcome State Fault Refusal := runNow (fun m => m.pointEnd fails) s

/-- `WINDOW` days without a fault record (R452). -/
def execClassWindowExpiry (unit : Nat) (s : State) : Host.Outcome State Fault Refusal := runNow (fun m => m.classExpires unit) s

/-- The retry of each second (R451). -/
def execHistoryRetry (ok : Bool) (s : State) : Host.Outcome State Fault Refusal := runNow (fun m => m.histRetry ok) s

/-- The report is formed (R512). -/
def execAttestationDone (s : State) : Host.Outcome State Fault Refusal := runNow (fun m => m.attestDone) s

end Sys2Proof.Machine
end

