-- ==== Sys2Proof/Machine/CmdStep.lean ====
section
/-! DEFINITION. Fennel, the update engines, squash adders and memory (chapters 5, 6, 8, 10 and 11). -/

namespace Sys2Proof.Machine

/-- DISPATCH (R146). -/
def execDispatch (core : Fin 128) (q : Fin 4) (s : State) : Host.Outcome State Fault Refusal :=
  run (fun m => m.runFennel core.val q.val 0x40) s

/-- The scan of an open DISPATCH returns (R147). -/
def execFennelScanResult (op : Fin 4) (r : ScanResult) (s : State) : Host.Outcome State Fault Refusal :=
  run (onResult (s.scanHeld op.val) r fun m => m.scanResult op.val) s

/-- COMBINE (R155). -/
def execCombine (core : Fin 128) (q : Fin 4) (s : State) : Host.Outcome State Fault Refusal :=
  run (fun m => m.runFennel core.val q.val 0x41) s

/-- DISPATCH_BWD (R156). -/
def execDispatchBwd (core : Fin 128) (q : Fin 4) (s : State) : Host.Outcome State Fault Refusal :=
  run (fun m => m.runFennel core.val q.val 0x42) s

/-- COMBINE_BWD (R156). -/
def execCombineBwd (core : Fin 128) (q : Fin 4) (s : State) : Host.Outcome State Fault Refusal :=
  run (fun m => m.runFennel core.val q.val 0x43) s

/-- A waiting Fennel descriptor opens (R153). -/
def execFenOpOpen (core : Fin 128) (q : Fin 4) (s : State) : Host.Outcome State Fault Refusal :=
  run (fun m => m.openFennel core.val q.val) s

/-- Stage 6 begins (R207). -/
def execUpdateStageStart (s : State) : Host.Outcome State Fault Refusal := run (fun m => m.startSix) s

/-- The pre-check ends (R224). -/
def execPrecheckEnd (s : State) : Host.Outcome State Fault Refusal := run (fun m => m.precheckEnd) s

/-- The result of vote 1 (R226). -/
def execVote1Result (word : BitVec 8) (mask : BitVec 4096) (s : State) : Host.Outcome State Fault Refusal :=
  run (fun m => if m.outside then m.vote1With word.toNat mask.toNat else onResult m.vote1Held (word, mask) Mod.vote1Result m) s

/-- The own pass ends (R227). -/
def execOwnPassEnd (s : State) : Host.Outcome State Fault Refusal := run (fun m => m.ownPassEnd) s

/-- The result of vote 2 (R227). -/
def execVote2Result (word : BitVec 8) (s : State) : Host.Outcome State Fault Refusal :=
  run (fun m => if m.outside then m.vote2With word.toNat else onResult m.vote2Held word Mod.vote2Result m) s

/-- The mirror pass ends (R213). -/
def execMirrorPassEnd (s : State) : Host.Outcome State Fault Refusal := run (fun m => m.mirrorPassEnd) s

/-- The slice's loss (R215). -/
def execLossResult (sum : Word) (tokens : DWord) (s : State) : Host.Outcome State Fault Refusal :=
  run (fun m => if m.outside then m.lossGiven sum tokens else onResult m.lossHeld (sum, tokens) Mod.lossIn m) s

/-- A step-tagged window is free again (R256). -/
def execWaitingAddRelease (win : Fin 16) (s : State) : Host.Outcome State Fault Refusal := run (fun m => m.releaseAdds win.val) s

/-- A bank is refreshed (R239). -/
def execHbmRefresh (stack : Fin 8) (bank : Nat) (s : State) : Host.Outcome State Fault Refusal :=
  run (fun m => m.refreshBank stack.val bank) s

/-- A stack's temperature is read (R239). -/
def execHbmTempRead (stack : Fin 8) (temp : Byte) (s : State) : Host.Outcome State Fault Refusal :=
  run (fun m => m.readTemp stack.val temp.toNat) s

/-- The copy into a spare slot ends (R275). -/
def execRemapCopyDone (stack : Fin 8) (s : State) : Host.Outcome State Fault Refusal := run (fun m => m.copyDone stack.val) s

/-- A scrub slice runs (R279). -/
def execScrubSlice (noise : Noise) (dropped : Bool) (s : State) : Host.Outcome State Fault Refusal :=
  run (fun m => m.runSlice noise dropped) s

/-- A fetched block arrives (R271). -/
def execBlockFetchDone (data : List Byte) (s : State) : Host.Outcome State Fault Refusal := run (fun m => m.fetchDone data) s

/-- The run-time's replay order for a step held FAILED at vote 1: the attempt rises and the module rewinds to the step; an order that
would start attempt 16 is refused (R352, R355). -/
def Mod.replayOrder (m : Mod) : Mod :=
  match m.steps.failed with
  | some (k, 0) =>
    if m.attempt k = 15 then m
    else (((m.discard k).nextAttempt k).stepsOf fun s => { s with failed := none }).rewind k
  | _ => m

/-- A replay order (R355). -/
def execReplayOrder (s : State) : Host.Outcome State Fault Refusal := run (fun m => m.replayOrder) s

end Sys2Proof.Machine
end

