-- ==== Sys2Proof/Machine/Dispatch.lean ====
section
/-! DEFINITION. The dispatch of commands to their meanings, one arm per constructor. -/

namespace Sys2Proof.Machine

/-- The effect of a command on everything but the queue of waiting commands. -/
def exec (i : Instr) (s : State) : Host.Outcome State Fault Refusal :=
  match i with
  -- start-up and supplies
  | .powerOnStart => Sys2Proof.Machine.execPowerOnStart s
  | .idReconstructDone ok => Sys2Proof.Machine.execIdReconstructDone ok s
  | .imageVerifyDone => Sys2Proof.Machine.execImageVerifyDone s
  | .powerInputsReady cv => Sys2Proof.Machine.execPowerInputsReady cv s
  | .railRampDone => Sys2Proof.Machine.execRailRampDone s
  | .dieLinkTrainDone => Sys2Proof.Machine.execDieLinkTrainDone s
  | .hbmTrainDone repaired => Sys2Proof.Machine.execHbmTrainDone repaired s
  | .seedSetVerify slot => Sys2Proof.Machine.execSeedSetVerify slot s
  | .inLow cv => Sys2Proof.Machine.execInLow cv s
  | .pwrEnFall => Sys2Proof.Machine.execPwrEnFall s
  | .auxLost => Sys2Proof.Machine.execAuxLost s
  | .inrushDone cv => Sys2Proof.Machine.execInrushDone cv s
  | .inputOvervoltage cv => Sys2Proof.Machine.execInputOvervoltage cv s
  | .unmateSwitchOpen cv => Sys2Proof.Machine.execUnmateSwitchOpen cv s
  | .resetNLow => Sys2Proof.Machine.execResetNLow s
  | .thermtrip die => Sys2Proof.Machine.execThermtrip die s
  | .dieCooled => Sys2Proof.Machine.execDieCooled s
  | .resonatorFail => Sys2Proof.Machine.execResonatorFail s
  | .railLow rail mv => Sys2Proof.Machine.execRailLow rail mv s
  | .dieLinkFail link => Sys2Proof.Machine.execDieLinkFail link s
  | .powerTrimStep watts => Sys2Proof.Machine.execPowerTrimStep watts s
  | .powerTrimRestore watts => Sys2Proof.Machine.execPowerTrimRestore watts s
  | .railSet a rail v => Sys2Proof.Machine.execRailSet a rail v s
  | .railSetStep rail => Sys2Proof.Machine.execRailSetStep rail s
  -- management connector
  | .smbBlockWrite addr data pec => Sys2Proof.Machine.execSmbBlockWrite addr data pec s
  | .smbBlockRead addr => Sys2Proof.Machine.execSmbBlockRead addr s
  | .smbAlertResponse => Sys2Proof.Machine.execSmbAlertResponse s
  | .page p pec => Sys2Proof.Machine.execPage p pec s
  | .clearFaults pec => Sys2Proof.Machine.execClearFaults pec s
  | .statusWord => Sys2Proof.Machine.execStatusWord s
  | .readVin => Sys2Proof.Machine.execReadVin s
  | .readIin => Sys2Proof.Machine.execReadIin s
  | .readVout => Sys2Proof.Machine.execReadVout s
  | .readIout => Sys2Proof.Machine.execReadIout s
  | .readTemperature1 => Sys2Proof.Machine.execReadTemperature1 s
  | .readPin => Sys2Proof.Machine.execReadPin s
  | .pmbusNack cmd => Sys2Proof.Machine.execPmbusNack cmd s
  | .idcode => Sys2Proof.Machine.execIdcode s
  | .bypass => Sys2Proof.Machine.execBypass s
  | .scanInstruction ir => Sys2Proof.Machine.execScanInstruction ir s
  -- registers
  | .registerWrite a off v => Sys2Proof.Machine.execRegisterWrite a off v s
  | .evtClear a block v => Sys2Proof.Machine.execEvtClear a block v s
  | .lockSet a v => Sys2Proof.Machine.execLockSet a v s
  | .take a v => Sys2Proof.Machine.execTake a v s
  | .snapshotDone spread coinc => Sys2Proof.Machine.execSnapshotDone spread coinc s
  | .rstWarm a v => Sys2Proof.Machine.execRstWarm a v s
  | .rstCold a v => Sys2Proof.Machine.execRstCold a v s
  | .spSel a v => Sys2Proof.Machine.execSpSel a v s
  -- recovery
  | .sprout domain => Sys2Proof.Machine.execSprout domain s
  | .quiesceAck domain => Sys2Proof.Machine.execQuiesceAck domain s
  | .quiesceWaitExpiry => Sys2Proof.Machine.execQuiesceWaitExpiry s
  | .selfRefreshEntered => Sys2Proof.Machine.execSelfRefreshEntered s
  | .resetHoldEnd => Sys2Proof.Machine.execResetHoldEnd s
  | .warmDone => Sys2Proof.Machine.execWarmDone s
  | .recovStall => Sys2Proof.Machine.execRecovStall s
  | .parsnipKeepaliveTimeout => Sys2Proof.Machine.execParsnipKeepaliveTimeout s
  -- array
  | .arrayPass core q => Sys2Proof.Machine.execArrayPass core q s
  | .weightLoadDone core => Sys2Proof.Machine.execWeightLoadDone core s
  | .arrayPassComplete core => Sys2Proof.Machine.execArrayPassComplete core s
  | .arrayDrainDone core => Sys2Proof.Machine.execArrayDrainDone core s
  | .arrData core off => Sys2Proof.Machine.execArrData core off s
  | .rampDownDone core => Sys2Proof.Machine.execRampDownDone core s
  | .accSelGo a v => Sys2Proof.Machine.execAccSelGo a v s
  | .accReadTaken seen => Sys2Proof.Machine.execAccReadTaken seen s
  -- queues and control descriptors
  | .qTailWrite a core q v => Sys2Proof.Machine.execQTailWrite a core q v s
  | .qEnable a core q v => Sys2Proof.Machine.execQEnable a core q v s
  | .resume a core q v => Sys2Proof.Machine.execResume a core q v s
  | .descriptorStart core q => Sys2Proof.Machine.execDescriptorStart core q s
  | .descriptorComplete core q => Sys2Proof.Machine.execDescriptorComplete core q s
  | .nop core q => Sys2Proof.Machine.execNop core q s
  | .sync core q => Sys2Proof.Machine.execSync core q s
  | .syncPoll core q => Sys2Proof.Machine.execSyncPoll core q s
  | .enqueue core q => Sys2Proof.Machine.execEnqueue core q s
  | .enqueueSpace core q => Sys2Proof.Machine.execEnqueueSpace core q s
  | .stepMark core q => Sys2Proof.Machine.execStepMark core q s
  -- DMA and vector engines
  | .copy core q noise => Sys2Proof.Machine.execCopy core q noise s
  | .skew core q => Sys2Proof.Machine.execSkew core q s
  | .weight core q => Sys2Proof.Machine.execWeight core q s
  | .scatterAdd core q => Sys2Proof.Machine.execScatterAdd core q s
  | .elt core q => Sys2Proof.Machine.execElt core q s
  | .quant core q => Sys2Proof.Machine.execQuant core q s
  | .amax core q => Sys2Proof.Machine.execAmax core q s
  | .ranksum core q => Sys2Proof.Machine.execRanksum core q s
  | .rowred core q => Sys2Proof.Machine.execRowred core q s
  -- contexts
  | .ctxOpen a core ctx v => Sys2Proof.Machine.execCtxOpen a core ctx v s
  | .ctxTeardown a core ctx v => Sys2Proof.Machine.execCtxTeardown a core ctx v s
  | .ctxDone core ctx => Sys2Proof.Machine.execCtxDone core ctx s
  | .requestReply core ctx inst gen count => Sys2Proof.Machine.execRequestReply core ctx inst gen count s
  -- Fennel
  | .dispatch core q => Sys2Proof.Machine.execDispatch core q s
  | .fennelScanResult op r => Sys2Proof.Machine.execFennelScanResult op r s
  | .combine core q => Sys2Proof.Machine.execCombine core q s
  | .dispatchBwd core q => Sys2Proof.Machine.execDispatchBwd core q s
  | .combineBwd core q => Sys2Proof.Machine.execCombineBwd core q s
  | .fenOpOpen core q => Sys2Proof.Machine.execFenOpOpen core q s
  | .row port p => Sys2Proof.Machine.execRow port p s
  | .fenEnable a v => Sys2Proof.Machine.execFenEnable a v s
  -- Stalk and update engines
  | .stalkWriteRelease core q => Sys2Proof.Machine.execStalkWriteRelease core q s
  | .stkClear a v => Sys2Proof.Machine.execStkClear a v s
  | .updEnable a v => Sys2Proof.Machine.execUpdEnable a v s
  | .twGo a v => Sys2Proof.Machine.execTwGo a v s
  | .updateStageStart => Sys2Proof.Machine.execUpdateStageStart s
  | .precheckEnd => Sys2Proof.Machine.execPrecheckEnd s
  | .vote1Result word mask => Sys2Proof.Machine.execVote1Result word mask s
  | .ownPassEnd => Sys2Proof.Machine.execOwnPassEnd s
  | .vote2Result word => Sys2Proof.Machine.execVote2Result word s
  | .mirrorPassEnd => Sys2Proof.Machine.execMirrorPassEnd s
  | .lossResult sum tokens => Sys2Proof.Machine.execLossResult sum tokens s
  | .tileCheckDone core => Sys2Proof.Machine.execTileCheckDone core s
  | .winSelGo a v => Sys2Proof.Machine.execWinSelGo a v s
  -- squash adders and memory
  | .add port p => Sys2Proof.Machine.execAdd port p s
  | .waitingAddRelease win => Sys2Proof.Machine.execWaitingAddRelease win s
  | .sqEnClear a v => Sys2Proof.Machine.execSqEnClear a v s
  | .winClear a win v => Sys2Proof.Machine.execWinClear a win v s
  | .hbmRefresh stack bank => Sys2Proof.Machine.execHbmRefresh stack bank s
  | .hbmTempRead stack temp => Sys2Proof.Machine.execHbmTempRead stack temp s
  | .remapCopyDone stack => Sys2Proof.Machine.execRemapCopyDone stack s
  | .remapReqGo a v => Sys2Proof.Machine.execRemapReqGo a v s
  | .scrubGo a v => Sys2Proof.Machine.execScrubGo a v s
  | .scrubSlice noise dropped => Sys2Proof.Machine.execScrubSlice noise dropped s
  | .scrubAbort a v => Sys2Proof.Machine.execScrubAbort a v s
  | .blockFetchDone data => Sys2Proof.Machine.execBlockFetchDone data s
  -- ports
  | .portEnable a port v => Sys2Proof.Machine.execPortEnable a port v s
  | .baseTrainingEnd port => Sys2Proof.Machine.execBaseTrainingEnd port s
  | .candidateQualifyEnd port fibres => Sys2Proof.Machine.execCandidateQualifyEnd port fibres s
  | .negotiationRestart port => Sys2Proof.Machine.execNegotiationRestart port s
  | .caps port fibre payload => Sys2Proof.Machine.execCaps port fibre payload s
  | .frameReceive port fseq units fcrc fecCe fecUe => Sys2Proof.Machine.execFrameReceive port fseq units fcrc fecCe fecUe s
  | .lcu port u => Sys2Proof.Machine.execLcu port u s
  | .packetSend port cls => Sys2Proof.Machine.execPacketSend port cls s
  | .lcuTimeout port => Sys2Proof.Machine.execLcuTimeout port s
  | .linkLost port => Sys2Proof.Machine.execLinkLost port s
  | .retrain a port v => Sys2Proof.Machine.execRetrain a port v s
  | .portFence a port v => Sys2Proof.Machine.execPortFence a port v s
  | .unfence a port v => Sys2Proof.Machine.execUnfence a port v s
  -- fabric requests and responses
  | .write port p => Sys2Proof.Machine.execWrite port p s
  | .read port p => Sys2Proof.Machine.execRead port p s
  | .ack port p => Sys2Proof.Machine.execAck port p s
  | .readData port p => Sys2Proof.Machine.execReadData port p s
  | .refused port p => Sys2Proof.Machine.execRefused port p s
  -- control packets
  | .heartbeatSend => Sys2Proof.Machine.execHeartbeatSend s
  | .heartbeat port p => Sys2Proof.Machine.execHeartbeat port p s
  | .hbMiss port => Sys2Proof.Machine.execHbMiss port s
  | .aliasPkt port p => Sys2Proof.Machine.execAliasPkt port p s
  | .fence port p => Sys2Proof.Machine.execFence port p s
  | .fenceAck port p => Sys2Proof.Machine.execFenceAck port p s
  | .fault port p => Sys2Proof.Machine.execFault port p s
  -- collectives
  | .collEnable a v => Sys2Proof.Machine.execCollEnable a v s
  | .collResume a v => Sys2Proof.Machine.execCollResume a v s
  | .collWaitPoll => Sys2Proof.Machine.execCollWaitPoll s
  | .collEntryDone => Sys2Proof.Machine.execCollEntryDone s
  | .rs port p => Sys2Proof.Machine.execRs port p s
  | .ag port p => Sys2Proof.Machine.execAg port p s
  | .small port p => Sys2Proof.Machine.execSmall port p s
  -- Vine
  | .vineSyncTimer t1 => Sys2Proof.Machine.execVineSyncTimer t1 s
  | .vineSyncReq port p t2 t3 => Sys2Proof.Machine.execVineSyncReq port p t2 t3 s
  | .vineSyncResp port p t4 => Sys2Proof.Machine.execVineSyncResp port p t4 s
  | .holdover => Sys2Proof.Machine.execHoldover s
  | .vineUpTimer => Sys2Proof.Machine.execVineUpTimer s
  | .vineUp port p => Sys2Proof.Machine.execVineUp port p s
  | .vineAnn port p => Sys2Proof.Machine.execVineAnn port p s
  | .stepBoundary => Sys2Proof.Machine.execStepBoundary s
  -- duplex pairs
  | .pair port p => Sys2Proof.Machine.execPair port p s
  | .digest port p => Sys2Proof.Machine.execDigest port p s
  | .recheckDone => Sys2Proof.Machine.execRecheckDone s
  | .shard port p => Sys2Proof.Machine.execShard port p s
  | .tw port p => Sys2Proof.Machine.execTw port p s
  | .dupAck port p => Sys2Proof.Machine.execDupAck port p s
  | .podCopy port p => Sys2Proof.Machine.execPodCopy port p s
  | .rmData port p => Sys2Proof.Machine.execRmData port p s
  | .rmSend => Sys2Proof.Machine.execRmSend s
  | .rmReq port p => Sys2Proof.Machine.execRmReq port p s
  | .probe port p => Sys2Proof.Machine.execProbe port p s
  | .probeReply port p => Sys2Proof.Machine.execProbeReply port p s
  | .probeWaitExpiry => Sys2Proof.Machine.execProbeWaitExpiry s
  | .fenceAckWaitExpiry => Sys2Proof.Machine.execFenceAckWaitExpiry s
  | .arm a v => Sys2Proof.Machine.execArm a v s
  | .disarm a v => Sys2Proof.Machine.execDisarm a v s
  | .confirm a v => Sys2Proof.Machine.execConfirm a v s
  | .reverse a v => Sys2Proof.Machine.execReverse a v s
  | .swapGo a v => Sys2Proof.Machine.execSwapGo a v s
  | .mfillGo a v => Sys2Proof.Machine.execMfillGo a v s
  | .roleReq a v => Sys2Proof.Machine.execRoleReq a v s
  -- checkpoints
  | .ckptNow a v => Sys2Proof.Machine.execCkptNow a v s
  | .ckptStartResult c want hold drain0 drain1 => Sys2Proof.Machine.execCkptStartResult c want hold drain0 drain1 s
  | .ckptCopyStart => Sys2Proof.Machine.execCkptCopyStart s
  | .ckptCopyDone => Sys2Proof.Machine.execCkptCopyDone s
  | .sha port p => Sys2Proof.Machine.execSha port p s
  | .paritySlice n => Sys2Proof.Machine.execParitySlice n s
  | .pull port p => Sys2Proof.Machine.execPull port p s
  | .part port p => Sys2Proof.Machine.execPart port p s
  | .zero port p => Sys2Proof.Machine.execZero port p s
  | .notReady port p => Sys2Proof.Machine.execNotReady port p s
  | .commitResult complete => Sys2Proof.Machine.execCommitResult complete s
  | .restoreGo a v => Sys2Proof.Machine.execRestoreGo a v s
  | .restoreRoundResult c seen stepsEqual groupTotals lacking => Sys2Proof.Machine.execRestoreRoundResult c seen stepsEqual groupTotals lacking s
  | .restoreCopyDone manifest => Sys2Proof.Machine.execRestoreCopyDone manifest s
  | .drGo a v => Sys2Proof.Machine.execDrGo a v s
  | .drainSend => Sys2Proof.Machine.execDrainSend s
  | .drAbort a v => Sys2Proof.Machine.execDrAbort a v s
  | .exportPkt port p => Sys2Proof.Machine.execExportPkt port p s
  | .imBegin a v => Sys2Proof.Machine.execImBegin a v s
  | .importPkt port p => Sys2Proof.Machine.execImportPkt port p s
  | .imDone a v => Sys2Proof.Machine.execImDone a v s
  | .imAbort a v => Sys2Proof.Machine.execImAbort a v s
  -- field test
  | .tstMode a v => Sys2Proof.Machine.execTstMode a v s
  | .runGo a v => Sys2Proof.Machine.execRunGo a v s
  | .runAbort a v => Sys2Proof.Machine.execRunAbort a v s
  | .heatTargetReached => Sys2Proof.Machine.execHeatTargetReached s
  | .noHeat => Sys2Proof.Machine.execNoHeat s
  | .heaterTrip tj => Sys2Proof.Machine.execHeaterTrip tj s
  | .pointEnd fails => Sys2Proof.Machine.execPointEnd fails s
  | .classWindowExpiry unit => Sys2Proof.Machine.execClassWindowExpiry unit s
  | .clsSelGo a v => Sys2Proof.Machine.execClsSelGo a v s
  | .clsClear a v => Sys2Proof.Machine.execClsClear a v s
  | .histSelGo a v => Sys2Proof.Machine.execHistSelGo a v s
  | .historyRetry ok => Sys2Proof.Machine.execHistoryRetry ok s
  -- debug and trace
  | .debugEnter a v => Sys2Proof.Machine.execDebugEnter a v s
  | .debugLeave a v => Sys2Proof.Machine.execDebugLeave a v s
  | .traceEnable a v => Sys2Proof.Machine.execTraceEnable a v s
  | .flushItem dropped => Sys2Proof.Machine.execFlushItem dropped s
  | .trTailWrite a v => Sys2Proof.Machine.execTrTailWrite a v s
  -- images and security
  | .stageD a n v => Sys2Proof.Machine.execStageD a n v s
  | .stageDone a v => Sys2Proof.Machine.execStageDone a v s
  | .stageAbort a v => Sys2Proof.Machine.execStageAbort a v s
  | .serve a v => Sys2Proof.Machine.execServe a v s
  | .attGo a v => Sys2Proof.Machine.execAttGo a v s
  | .attestationDone => Sys2Proof.Machine.execAttestationDone s
  -- continuous activity
  | .frameSend port => Sys2Proof.Machine.execFrameSend port s
  | .keepAlive => Sys2Proof.Machine.execKeepAlive s
  | .replayOrder => Sys2Proof.Machine.execReplayOrder s

end Sys2Proof.Machine
end

