-- ==== Sys2Proof/Safety.lean ====
section
/-! DEFINITION. The terms in which claims about the block are stated: what follows a command's own effect, when a register write is
accepted, and what every state keeps from one step to the next. -/

namespace Sys2Proof.Machine

/-- The state once a command has made `m` of the module, and what follows at once has followed; the state as it was while the command waits
for a PHY that stopped with the resonator (R17). -/
def State.after (s : State) (m : Mod) : State := { s with toMod := s.toMod.waitsPhy m.settle }

/-- The state once a command that waits for no PHY has made `m` of the module, and what follows at once has followed: a command of Parsnip's,
of the reset logic, or of an agent at the registers. -/
def State.now (s : State) (m : Mod) : State := { s with toMod := s.toMod.leaves m.settle }

/-- The state with the module `m` and the same queue. -/
def State.become (s : State) (m : Mod) : State := { s with toMod := m }

/-- A register write reaches the registers and is not rejected (R457, R468; over the management bus Parsnip must serve it, R426, R429). -/
def Mod.accepts (m : Mod) (a : Agent) (off : Nat) (v : Word) : Bool :=
  (match a with | .mgmt => m.mgmtServes off v | .fabric _ _ => true) && (m.regJudge a off v).isNone

/-- The module with the word of an accepted write stored (R462), before the effect that the write has beyond it. -/
def Mod.withWord (m : Mod) (a : Agent) (off : Nat) (v : Word) : Mod := m.wr off (m.regW a off v).stored

/-- A packet of classes 1 to 7 on a port reaches the unit that it is for, which finds the module as `m'`: the port is UP and start-up lets
it take packets; the packet passes the header checks (R305), meets no parity error on the port's datapath (R437), and comes from the slice
(R320) and not from a host adapter; it is neither late (R424) nor shut out by field test (R440), nor forwarded or passed on (R322, R382),
nor stale (R353; a scatter-add of no live attempt, R256), nor the answer that a serve awaits (R509); and the tracker of marked packets lets
it through (R364). -/
def Mod.handsOn (m : Mod) (port : Nat) (q : Pkt) (m' : Mod) : Prop :=
  m.pstate port = pUP ∧ m.fetching_ = false ∧ pktOk q = true ∧ q.cls ≠ 0 ∧ m.hostPort port = false ∧ m.foreign port q = false ∧
    m.lateWarm q = false ∧ (m.is TST.CFG.MODE = false ∨ testCarries q = true) ∧ m.memside.paths.contains (136 + port) = false ∧
    m.takes port q = true ∧ m.passesOn q = false ∧ (q.cls.toNat = clsSQ → m.tagCurrent (tagOf q) = true) ∧
    (m.tagLive (tagOf q) || m.tagFree q) = true ∧
    ¬(m.boot.serving = some port ∧ q.cls.toNat = 2 ∧ q.typ.toNat ≠ 1 ∧ infoOf q % 2 ^ 24 = m.boot.serveSeq) ∧ m.track q = (m', true)

/-- HBM without symbol errors, data-bus errors to come, or copies into spare slots, and datapaths on which no parity error is to come. -/
def Mod.memClean (m : Mod) : Prop :=
  m.memside.hbmErr = [] ∧ m.memside.bus = [] ∧ m.memside.remaps = [] ∧ m.memside.paths = []

/-- No fault that a command met is left uncharged when the command has ended (R538). -/
def Mod.noFaultLeft (m : Mod) : Prop := m.steps.todo = []

/-- Nothing is left to be done in the module: no consequence of a command (`calm`), no window read that was asked for, and no work that has
met a stopped PHY. -/
def Mod.still (m : Mod) : Bool := m.calm && !m.health.winDue && !m.power.phyWait

/-- The commands taken one after another, each from the state that the one before it left. -/
def runInOrder : List Instr → State → Option State
  | [], s => some s
  | c :: rest, s =>
    match exec c s with
    | .next t => runInOrder rest t
    | .fault _ => none
    | .refused _ => none

/-- The byte at a module-local address. -/
def Mod.byteAt (m : Mod) (a : Nat) : Byte := tget byte0 m.mem a

end Sys2Proof.Machine
end

