-- ==== Sys2Proof/Certificates/Slice0/Obligations.lean ====
section
/-! DEFINITION. The statements for the provers. A completion statement says, for each command it names, under which conditions on the state
and the operands the command has its own effect, and what that effect is; `State.after` adds what follows at once. -/

open Sys2Proof Sys2Proof.Machine

/-! ## Steps -/

/-- A step takes the command at the front of the queue and is that command's effect on the state with the queue's rest. -/
def Obligations.StepRunsFrontCommand : Prop :=
  ∀ (s : State) (c : Instr) (rest : List Instr), s.pending = c :: rest → step s = exec c { s with pending := rest }

/-- With no command waiting a step is one nanosecond of Vine time: no command's effect, the queue still empty (the model's choice, log
entry 1). -/
def Obligations.IdleStepIsOneNanosecond : Prop :=
  ∀ s : State, s.pending = [] →
    ∃ t, step s = .next t ∧ t.pending = [] ∧ t.vine.time = s.vine.time + 1 ∧ t.mem = s.mem ∧ t.queues = s.queues ∧ t.ports = s.ports

/-- Whatever the command, a step answers a next state whose queue is the rest of the queue: no command stops the block, and none adds to
or takes from the commands that wait (log entries 2 and 17). -/
def Obligations.StepTakesExactlyTheFront : Prop :=
  ∀ (s : State) (c : Instr) (rest : List Instr), s.pending = c :: rest → ∃ t, step s = .next t ∧ t.pending = rest

/-- As many steps as commands wait take them in the order they came, each exactly once and each from the state that the one before left,
and leave the queue empty. -/
def Obligations.QueueIsServedInOrder : Prop :=
  ∀ (l : List Instr) (s : State), s.pending = l →
    ∃ t, Sys2Proof.core.run l.length s = .next t ∧ t.pending = [] ∧ runInOrder l { s with pending := [] } = some t

/-- No step leaves a fault that its command met uncharged: the first failure of an attempt is charged before the next command is taken
(R538). -/
def Obligations.NoStepLeavesAFault : Prop :=
  ∀ s t : State, s.noFaultLeft → step s = .next t → t.noFaultLeft

/-- The state after reset holds no uncharged fault and no command. -/
def Obligations.ResetHoldsNoFault : Prop := State.reset.noFaultLeft ∧ State.reset.pending = []

/-- After reset: no event and no rejection stands, the recovery state is RUN, start-up is in ROM, the role is SPARE, every port is
DISABLED, no queue is enabled, and memory lists nothing. -/
def Obligations.ResetValues : Prop :=
  (∀ b, State.reset.hasEvent b = false) ∧ State.reset.rstState = stRUN ∧ State.reset.bootState = bROM ∧ State.reset.role = 0 ∧
    (∀ p : Fin 8, State.reset.pstate p.val = pDISABLED) ∧ (∀ (n : Fin 128) (q : Fin 4), State.reset.enabled n.val q.val = false) ∧
    (∀ a, State.reset.byteAt a = 0)

/-! ## Start-up and supplies -/

/-- Start-up (chapter 18): each event of the start sequence, when it is due, moves start-up on as R498, R505 and R511 say. -/
def Obligations.StartUpCommandsComplete : Prop :=
  ∀ s : State,
    (s.is PWR.STAT.AUX_OK = false → s.power.hotDies = [] →
      exec .powerOnStart s = .next (s.now
        (let m := s.toMod.coldReset.set PWR.STAT.AUX_OK 1
         ({ m with power := { m.power with resetNLow := false, coldHold := false } } : Mod).startRom))) ∧
    (s.boot.started = false → s.is PWR.STAT.AUX_OK = true → s.power.hotDies = [] →
      exec .powerOnStart s = .next (s.now ({ s.toMod with power := { s.power with resetNLow := false, coldHold := false } } : Mod).startRom)) ∧
    (∀ ok, s.parsnipUp = true → s.boot.started = true → s.bootState = bROM →
      exec (.idReconstructDone ok) s = .next (s.now
        ((if ok then s.set SEC.STAT.ID_OK 1 else (s.set SEC.STAT.ID_OK 0).raiseSEC 6 []).setBoot bVERIFY))) ∧
    (s.parsnipUp = true → s.boot.started = true → s.bootState = bVERIFY →
      exec .imageVerifyDone s = .next (s.now
        (let fw := imgArea 1 0
         let cf := imgArea 2 0
         if s.imgWhy 1 fw.1 fw.2 = 0 then
           let m := s.takeFirmware
           if m.cfgWhy cf.1 cf.2 = 0 then m.takeConfig
           else if m.cfgWhy stageBase cf.2 = 0 then (m.install 2 0).coldReset
           else (m.setBoot bHALT).raiseSEC 2 [(SEC.EVT_INFO.WHY, m.cfgWhy cf.1 cf.2)]
         else if s.imgWhy 1 stageBase fw.2 = 0 then (s.install 1 0).coldReset
         else (s.setBoot bFETCH).raiseSEC 1 [(SEC.EVT_INFO.WHY, s.imgWhy 1 fw.1 fw.2)]))) ∧
    (∀ cv : BitVec 16, s.parsnipUp = true → 4000 ≤ cv.toNat → cv.toNat ≤ 6000 → s.bootState = bWAIT →
      exec (.powerInputsReady cv) s = .next (s.now
        ((({ s.toMod with power := { s.power with inCv := cv.toNat } } : Mod).sets
          [(PWR.STAT.IN_OK, 1), (PWR.STAT.PWR_EN, 1), (PWR.IN_MEAS.CV, cv.toNat)]).setBoot bPOWERUP))) ∧
    (s.parsnipUp = true → s.is PWR.STAT.IN_OK = true → s.is PWR.STAT.PWR_EN = true → s.power.tripLatch = false →
      s.rstState ≠ stFAILED → s.bootState = bPOWERUP → s.power.resonator = true →
      exec .railRampDone s = .next (s.now
        (let m := [0, 1, 2].foldl (fun m r => m.setRail r (m.railSet r)) s.toMod
         ({ m with power := { m.power with railsOn := [0, 1, 2] } } : Mod).setBoot bTRAIN))) ∧
    (s.parsnipUp = true → s.is PWR.STAT.IN_OK = true → s.is PWR.STAT.PWR_EN = true → s.power.tripLatch = false →
      s.rstState ≠ stFAILED → s.bootState ≠ bPOWERUP → s.fetching_ = true → s.power.railsOn = [] →
      ∃ mv, 580 ≤ mv ∧ mv ≤ 900 ∧
        exec .railRampDone s = .next (s.now
          (let m := ({ s.toMod with
             free := s.free + 1, power := { s.power with railsOn := [0] }, doms := { s.doms with except := [142, 143] } } : Mod).setRail 0 mv
           [6, 7].foldl (fun m p => (m.set (LNK.PORT_CTL.ENABLE p) 1).enablePort p) m))) ∧
    (s.parsnipUp = true → s.power.resonator = true → s.bootState = bTRAIN → s.rstState = stRUN →
      exec .dieLinkTrainDone s = .next (s.now (s.recovOf fun r => { r with linksTrained := true }))) ∧
    (∀ repaired, s.parsnipUp = true → s.bootState = bTRAIN → s.rstState = stRUN → s.recov.linksTrained = true →
      exec (.hbmTrainDone repaired) s = .next (s.now (s.becomeReady repaired))) ∧
    (∀ slot : Fin 4, s.acts = true → s.ready = true → s.boot.seedPending.contains slot.val = true →
      exec (.seedSetVerify slot) s = .next (s.now
        ((s.bootOf fun b => { b with seedPending := b.seedPending.filter (· != slot.val) }).verifySeed slot.val))) ∧
    (s.boot.attBusy = true → exec .attestationDone s = .next (s.now s.attestDone) ∧ s.attestDone.boot.attBusy = false ∧
      s.attestDone.f SEC.ATT_STAT.DONE = 1)

/-- Supply faults, trips and losses of supply: each event, when it is one, has the effect of R500, R526, R527, R432 or R533. -/
def Obligations.SupplyEventsComplete : Prop :=
  ∀ s : State,
    (∀ cv : BitVec 16, ¬(4000 ≤ cv.toNat ∧ cv.toNat ≤ 6000) → s.parsnipUp = true → s.ready = true →
      exec (.inLow cv) s = .next (s.now
        (let m := (s.noteInput cv.toNat).set PWR.STAT.IN_OK 0
         (({ m with mgmt := { m.mgmt with regFault := 1 } } : Mod).fenceAll.failNow).raisePWR 3))) ∧
    (s.parsnipUp = true → s.ready = true →
      exec .pwrEnFall s = .next (s.now (((s.set PWR.STAT.PWR_EN 0).fenceAll.failNow).raisePWR 3))) ∧
    (s.parsnipUp = true → s.ready = false →
      exec .pwrEnFall s = .next (s.now (s.set PWR.STAT.PWR_EN 0).startUnpowered)) ∧
    exec .auxLost s = .next (s.now (s.set PWR.STAT.AUX_OK 0)) ∧
    (∀ cv : BitVec 16, exec (.inrushDone cv) s = .next (s.now
      (let m := (s.noteInput cv.toNat).pwr fun p => { p with switchClosed := true }
       if 4000 ≤ cv.toNat ∧ cv.toNat ≤ 6000 then m.set PWR.STAT.IN_OK 1 else m))) ∧
    (∀ cv : BitVec 16, 6500 < cv.toNat →
      exec (.inputOvervoltage cv) s = .next (s.now ((s.pwr fun p => { p with switchClosed := false }).inputLow cv.toNat))) ∧
    (∀ cv : BitVec 16, cv.toNat < 3600 →
      exec (.unmateSwitchOpen cv) s = .next (s.now ((s.pwr fun p => { p with switchClosed := false }).inputLow cv.toNat))) ∧
    exec .resetNLow s = .next (s.now (s.coldReset.pwr fun p =>
      { p with resetNLow := true, tripLatch := s.power.tripLatch && !s.power.hotDies.isEmpty })) ∧
    (∀ die : Fin 3, exec (.thermtrip die) s = .next (s.now (s.thermalTrip die.val)) ∧
      (s.thermalTrip die.val).power.tripLatch = true ∧ (s.thermalTrip die.val).power.railsOn = [] ∧
      (s.boot.started = true → (s.thermalTrip die.val).rstState = stFAILED)) ∧
    (s.boot.started = true → s.power.startPending = false →
      exec .dieCooled s = .next (s.now (s.pwr fun p => { p with hotDies := [] })))

/-- The causes that the hardware itself brings up (R17, R42, R420) and the moves of the core rails (R47, R517). -/
def Obligations.HardwareCausesAndRailsComplete : Prop :=
  ∀ s : State,
    (s.acts = true →
      exec .resonatorFail s = .next (s.now
        ((((s.pwr fun p => { p with resonator := false }).portsDown).charge 0x09 254 2 0 0 0).warmCause 3 255))) ∧
    (s.acts = false →
      exec .resonatorFail s = .next (s.now (s.pwr fun p => { p with resonator := false }).portsDown)) ∧
    (∀ (rail : Fin 3) (mv : BitVec 10), mv.toNat < 570 → s.parsnipUp = true → s.power.railsOn.contains rail.val = true →
      s.rstState ≠ stFAILED → exec (.railLow rail mv) s = .next (s.now
        (((s.setRail rail.val mv.toNat).charge 0x09 254 1 0 0 rail.val).warmCause 2 255))) ∧
    (∀ link : Fin 3, s.parsnipUp = true → (s.ready = true ∨ s.recov.linksTrained = true) → s.rstState ≠ stFAILED →
      exec (.dieLinkFail link) s = .next (s.now
        ((s.charge 0x08 (153 + link.val) 0 0 0 0).warmCause 4 (153 + link.val)))) ∧
    (∀ watts : BitVec 16, s.acts = true → 2800 < watts.toNat → s.power.railsOn.contains 1 = true → s.railTested 1 = false → s.railTested 2 = false →
      (610 ≤ s.railMv 1 ∨ 610 ≤ s.railMv 2) →
      exec (.powerTrimStep watts) s = .next (s.now
        (let low := fun v => if 610 ≤ v then v - 10 else v
         let m := ((s.set PWR.IN_MEAS.W watts.toNat).setRail 1 (low (s.railMv 1))).setRail 2 (low (s.railMv 2))
         let m := (m.pwr fun p => { p with trim := p.trim + 1 }).tst fun t =>
           { t with trimmed := t.trimmed || s.f TST.STAT.STATE == 2 }
         ((m.set PWR.STAT.TRIMMED 1).count PWR.SN_TRIM_LO.o 1).raisePWR 1))) ∧
    (∀ watts : BitVec 16, s.acts = true → watts.toNat < 2700 → s.power.trim ≠ 0 → s.railTested 1 = false → s.railTested 2 = false →
      (s.railMv 1 + 10 = s.railSet 1 → s.railMv 2 + 10 = s.railSet 2 →
        exec (.powerTrimRestore watts) s = .next (s.now
          (let m := (((s.set PWR.IN_MEAS.W watts.toNat).setRail 1 (s.railSet 1)).setRail 2 (s.railSet 2)).pwr fun p => { p with trim := 0 }
           (m.set PWR.STAT.TRIMMED 0).raisePWR 2))) ∧
      (s.railMv 1 + 10 < s.railSet 1 → s.railMv 2 + 10 < s.railSet 2 →
        exec (.powerTrimRestore watts) s = .next (s.now
          (let m := ((s.set PWR.IN_MEAS.W watts.toNat).setRail 1 (s.railMv 1 + 10)).setRail 2 (s.railMv 2 + 10)
           let m := m.pwr fun p => { p with trim := max 1 (p.trim - 1) }
           (m.set PWR.STAT.TRIMMED 1).raisePWR 2)))) ∧
    (∀ rail : Fin 3, s.acts = true → s.power.railsOn.contains rail.val = true → s.railTested rail.val = false → (rail.val = 0 ∨ s.power.trim = 0) →
      (s.railMv rail.val < s.railSet rail.val →
        exec (.railSetStep rail) s = .next (s.now ((s.sensed rail.val).setRail rail.val (min (s.railSet rail.val) (s.railMv rail.val + 10))))) ∧
      (s.railSet rail.val < s.railMv rail.val →
        exec (.railSetStep rail) s = .next (s.now ((s.sensed rail.val).setRail rail.val (max (s.railSet rail.val) (s.railMv rail.val - 10))))))

/-! ## The management connector -/

/-- SMBus, PMBus and boundary scan: what the module drives and what it changes (R458, R513, R514). A read changes nothing but what is
driven, and the model's own counter of free values. -/
def Obligations.ManagementCommandsComplete : Prop :=
  ∀ s : State,
    (∀ (addr : BitVec 24) (data : Word) (pec : Byte), s.mgmtServes addr.toNat data = true →
      pec8 ([smbRegs, 0x10, 7] ++ leBytes 3 addr.toNat ++ leBytes 4 data.toNat) = pec →
      (s.driveOut []).regJudge .mgmt addr.toNat data = none →
      exec (.smbBlockWrite addr data pec) s = .next (s.now ((s.driveOut []).regApply .mgmt addr.toNat data))) ∧
    (∀ addr : BitVec 24, s.parsnipUp = true →
      exec (.smbBlockRead addr) s = .next (s.now
        (let st := s.readStatus addr.toNat
         let out := [5, BitVec.ofNat 8 st] ++ leBytes 4 (if st = 0 then (s.regRead addr.toNat).toNat else 0)
         s.driveOut (out ++ [pec8 ([smbRegs, 0x11, 3] ++ leBytes 3 addr.toNat ++ [smbRegs + 1] ++ out)])))) ∧
    (s.parsnipUp = true → s.alertLow = true →
      exec .smbAlertResponse s = .next (s.now (s.driveOut [smbRegs, pec8 [0x19, smbRegs]]))) ∧
    (∀ p pec : Byte, s.parsnipUp = true → pec = pec8 [smbPmbus, 0x00, p] → p.toNat ≤ 2 →
      exec (.page p pec) s = .next (s.now { s.toMod with mgmt := { s.mgmt with page := p.toNat, out := [], nack := false } })) ∧
    (∀ pec : Byte, s.parsnipUp = true → pec = pec8 [smbPmbus, 0x03] →
      exec (.clearFaults pec) s = .next (s.now { s.toMod with mgmt := { s.mgmt with regFault := 0, out := [], nack := false } })) ∧
    (∀ cmd ∈ [(Instr.statusWord, (0x79 : Byte)), (.readVin, 0x88), (.readIin, 0x89), (.readVout, 0x8B), (.readIout, 0x8C),
        (.readTemperature1, 0x8D), (.readPin, 0x97)],
      s.parsnipUp = true → exec cmd.1 s = .next (s.now
        (let bs := Config.pmbus cmd.2.toNat s.mgmt.page (s.free :: s.pmReadings)
         s.fresh.1.driveOut (bs ++ [pec8 ([smbPmbus, cmd.2, smbPmbus + 1] ++ bs)])))) ∧
    (∀ cmd : Byte, pmCommands.contains cmd.toNat = false → exec (.pmbusNack cmd) s = .next (s.now s.toMod.silent)) ∧
    (s.scanOk true = true →
      exec .idcode s = .next (s.now { s.toMod with mgmt := { s.mgmt with ir := irIDCODE, tdo := bitList 32 0x08812A8B } })) ∧
    (s.scanOk true = true → exec .bypass s = .next (s.now { s.toMod with mgmt := { s.mgmt with ir := irBYPASS, tdo := [false] } })) ∧
    (∀ ir, s.scanOk false = true →
      exec (.scanInstruction ir) s = .next (s.now { s.toMod with mgmt := { s.mgmt with ir := ir + 3, tdo := [] } }))

/-! ## Register writes -/

/-- Accepted writes that do no more than store their word (R462), clear an event (R471), set lock bits (R473) or move a rail's set point (R517); any other accepted write of a register also has its register's effect. -/
def Obligations.PlainRegisterWritesComplete : Prop :=
  ∀ s : State,
    (∀ (a : Agent) (off : BitVec 24) (v : Word), s.accepts a off.toNat v = true → isEvt off.toNat = false →
      exec (.registerWrite a off v) s = .next (s.now
        ((s.withWord a off.toNat v).regAct (s.regW a off.toNat v) a (s.roleAsked (s.regW a off.toNat v))))) ∧
    (∀ (a : Agent) (block : BitVec 12) (v : Word) (o : Nat), evtOff block.toNat = some o → s.accepts a o v = true →
      v.toNat % 0x10000 = (s.rd o).toNat % 0x10000 → (s.rd o).toNat / 0x10000 % 256 ≠ 0 →
      exec (.evtClear a block v) s = .next (s.now (s.wr o (s.rd o &&& 0xFF00FFFF)))) ∧
    (∀ (a : Agent) (v : Word), s.accepts a GEN.LOCK.o v = true →
      exec (.lockSet a v) s = .next (s.now (s.withWord a GEN.LOCK.o v))) ∧
    (∀ (a : Agent) (rail : Fin 3) (v : Word), s.accepts a (PWR.RAIL_SET.o rail.val) v = true →
      exec (.railSet a rail v) s = .next (s.now (s.withWord a (PWR.RAIL_SET.o rail.val) v))) ∧
    (∀ (a : Agent) (v : Word), s.accepts a FEN.CFG.o v = true →
      exec (.fenEnable a v) s = .next (s.now (s.withWord a FEN.CFG.o v))) ∧
    (∀ (a : Agent) (v : Word), s.accepts a UPD.CFG.o v = true →
      exec (.updEnable a v) s = .next (s.now (s.withWord a UPD.CFG.o v))) ∧
    (∀ (a : Agent) (v : Word), s.accepts a DBG.TR_TAIL.o v = true →
      exec (.trTailWrite a v) s = .next (s.now (s.withWord a DBG.TR_TAIL.o v))) ∧
    (∀ (a : Agent) (v : Word), s.accepts a TST.CFG.o v = true → s.is TST.CFG.MODE = false → TST.CFG.MODE.get v ≠ 0 →
      exec (.tstMode a v) s = .next (s.now (s.withWord a TST.CFG.o v))) ∧
    (∀ (a : Agent) (v : Word), s.accepts a TST.CFG.o v = true → s.is TST.CFG.MODE = true → TST.CFG.MODE.get v = 0 →
      exec (.tstMode a v) s = .next (s.now (s.withWord a TST.CFG.o v).leaveTest)) ∧
    (∀ (a : Agent) (v : Word), s.accepts a MEM.CFG.o v = true → s.is MEM.CFG.SQ_EN = true → MEM.CFG.SQ_EN.get v = 0 →
      exec (.sqEnClear a v) s = .next (s.now (s.withWord a MEM.CFG.o v).refuseWaiting))

/-- Writes of `Q_TAIL`, `Q_CTL` and `CTX_CTL` (R163, R170, R175, R177, R193), each command bit alone. -/
def Obligations.QueueRegisterCommandsComplete : Prop :=
  ∀ s : State,
    (∀ (a : Agent) (n : Fin 128) (q : Fin 4) (v : Word), s.accepts a (CORE.Q_TAIL.o n.val q.val) v = true →
      exec (.qTailWrite a n q v) s = .next (s.now ((s.withWord a (CORE.Q_TAIL.o n.val q.val) v).take n.val q.val))) ∧
    (∀ (a : Agent) (n : Fin 128) (q : Fin 4) (v : Word), s.accepts a (CORE.Q_CTL.o n.val q.val) v = true → s.is (CORE.Q_CTL.ENABLE n.val q.val) = false → (CORE.Q_CTL.ENABLE n.val q.val).get v ≠ 0 → (CORE.Q_CTL.RESUME n.val q.val).get v = 0 →
      exec (.qEnable a n q v) s = .next (s.now ((s.withWord a (CORE.Q_CTL.o n.val q.val) v).enableQueue n.val q.val))) ∧
    (∀ (a : Agent) (n : Fin 128) (q : Fin 4) (v : Word), s.accepts a (CORE.Q_CTL.o n.val q.val) v = true → s.is (CORE.Q_CTL.ENABLE n.val q.val) = true → (CORE.Q_CTL.ENABLE n.val q.val).get v = 0 → (CORE.Q_CTL.RESUME n.val q.val).get v = 0 →
      exec (.qEnable a n q v) s = .next (s.now ((s.withWord a (CORE.Q_CTL.o n.val q.val) v).disableQueue n.val q.val))) ∧
    (∀ (a : Agent) (n : Fin 128) (q : Fin 4) (v : Word), s.accepts a (CORE.Q_CTL.o n.val q.val) v = true → (CORE.Q_CTL.ENABLE n.val q.val).get v = s.f (CORE.Q_CTL.ENABLE n.val q.val) → (CORE.Q_CTL.RESUME n.val q.val).get v ≠ 0 →
      exec (.resume a n q v) s = .next (s.now ((s.withWord a (CORE.Q_CTL.o n.val q.val) v).resumeQueue n.val q.val))) ∧
    (∀ (a : Agent) (n : Fin 128) (c : Fin 16) (v : Word), s.accepts a (CORE.CTX_CTL.o n.val c.val) v = true → (CORE.CTX_CTL.OPEN n.val c.val).get v ≠ 0 →
      exec (.ctxOpen a n c v) s = .next (s.now ((s.withWord a (CORE.CTX_CTL.o n.val c.val) v).set (CORE.CTX_STAT.STATE n.val c.val) 1))) ∧
    (∀ (a : Agent) (n : Fin 128) (c : Fin 16) (v : Word), s.accepts a (CORE.CTX_CTL.o n.val c.val) v = true → (CORE.CTX_CTL.OPEN n.val c.val).get v = 0 → (CORE.CTX_CTL.TEARDOWN n.val c.val).get v ≠ 0 →
      exec (.ctxTeardown a n c v) s = .next (s.now ((s.withWord a (CORE.CTX_CTL.o n.val c.val) v).teardownCtx n.val c.val)))

/-- Command bits of the update engines, numeric health, the memory system, debug, the collectives engine and the snapshot (R127, R199, R216, R237, R259, R274, R278, R280, R332, R333, R474, R491, R493). -/
def Obligations.EngineRegisterCommandsComplete : Prop :=
  ∀ s : State,
    (∀ (a : Agent) (v : Word), s.accepts a SNAP.CTL.o v = true → SNAP.CTL.TAKE.get v ≠ 0 →
      exec (.take a v) s = .next (s.now (s.withWord a SNAP.CTL.o v).snapTake)) ∧
    (∀ (a : Agent) (v : Word), s.accepts a UPD.STK_CTL.o v = true → UPD.STK_CTL.CLEAR.get v ≠ 0 →
      exec (.stkClear a v) s = .next (s.now ({ (s.withWord a UPD.STK_CTL.o v) with stalk := [] } : Mod))) ∧
    (∀ (a : Agent) (v : Word), s.accepts a UPD.TW_GO.o v = true → UPD.TW_GO.GO.get v ≠ 0 →
      exec (.twGo a v) s = .next (s.now (s.withWord a UPD.TW_GO.o v).submitWrite)) ∧
    (∀ (a : Agent) (v : Word), s.accepts a HLT.WIN_SEL.o v = true → HLT.WIN_SEL.GO.get v ≠ 0 →
      exec (.winSelGo a v) s = .next (s.now (s.withWord a HLT.WIN_SEL.o v).windowGo)) ∧
    (∀ (a : Agent) (w : Fin 16) (v : Word), s.accepts a (MEM.WIN_CTL.o w.val) v = true → (MEM.WIN_CTL.CLEAR w.val).get v ≠ 0 →
      exec (.winClear a w v) s = .next (s.now ((s.withWord a (MEM.WIN_CTL.o w.val) v).clearWindow w.val))) ∧
    (∀ (a : Agent) (v : Word), s.accepts a MPR.REMAP_REQ_HI.o v = true → MPR.REMAP_REQ_HI.GO.get v ≠ 0 →
      exec (.remapReqGo a v) s = .next (s.now (s.withWord a MPR.REMAP_REQ_HI.o v).remapReq)) ∧
    (∀ (a : Agent) (v : Word), s.accepts a MPR.SCRUB_CTL.o v = true → MPR.SCRUB_CTL.GO.get v ≠ 0 →
      exec (.scrubGo a v) s = .next (s.now (s.withWord a MPR.SCRUB_CTL.o v).startScrub)) ∧
    (∀ (a : Agent) (v : Word), s.accepts a MPR.SCRUB_CTL.o v = true → MPR.SCRUB_CTL.GO.get v = 0 → MPR.SCRUB_CTL.ABORT.get v ≠ 0 →
      exec (.scrubAbort a v) s = .next (s.now ((s.withWord a MPR.SCRUB_CTL.o v).endScrub true))) ∧
    (∀ (a : Agent) (v : Word), s.accepts a TOR.COLL_CTL.o v = true → s.is TOR.COLL_CTL.ENABLE = false → TOR.COLL_CTL.ENABLE.get v ≠ 0 → TOR.COLL_CTL.RESUME.get v = 0 →
      exec (.collEnable a v) s = .next (s.now (s.withWord a TOR.COLL_CTL.o v).collEnable)) ∧
    (∀ (a : Agent) (v : Word), s.accepts a TOR.COLL_CTL.o v = true → s.is TOR.COLL_CTL.ENABLE = true → TOR.COLL_CTL.ENABLE.get v = 0 → TOR.COLL_CTL.RESUME.get v = 0 →
      exec (.collEnable a v) s = .next (s.now (s.withWord a TOR.COLL_CTL.o v).collDisable)) ∧
    (∀ (a : Agent) (v : Word), s.accepts a TOR.COLL_CTL.o v = true → TOR.COLL_CTL.ENABLE.get v = s.f TOR.COLL_CTL.ENABLE → TOR.COLL_CTL.RESUME.get v ≠ 0 →
      exec (.collResume a v) s = .next (s.now (s.withWord a TOR.COLL_CTL.o v).collResumeGo)) ∧
    (∀ (a : Agent) (v : Word), s.accepts a DBG.ACC_SEL.o v = true → DBG.ACC_SEL.GO.get v ≠ 0 →
      exec (.accSelGo a v) s = .next (s.now
        ({ (s.withWord a DBG.ACC_SEL.o v).set DBG.ACC_STAT.DONE 0 with accReq := some v } : Mod))) ∧
    (∀ (a : Agent) (v : Word), s.accepts a DBG.CTL.o v = true → DBG.CTL.ENTER.get v ≠ 0 → DBG.CTL.LEAVE.get v = 0 →
      exec (.debugEnter a v) s = .next (s.now (s.withWord a DBG.CTL.o v).debugEnter)) ∧
    (∀ (a : Agent) (v : Word), s.accepts a DBG.CTL.o v = true → DBG.CTL.ENTER.get v = 0 → DBG.CTL.LEAVE.get v ≠ 0 →
      exec (.debugLeave a v) s = .next (s.now (s.withWord a DBG.CTL.o v).debugLeave)) ∧
    (∀ (a : Agent) (v : Word), s.accepts a DBG.TR_CTL.o v = true → s.is DBG.TR_CTL.EN = false → DBG.TR_CTL.EN.get v ≠ 0 →
      exec (.traceEnable a v) s = .next (s.now (s.withWord a DBG.TR_CTL.o v).traceStart))

/-- Command bits of a port (R288, R310, R312), each alone. -/
def Obligations.LinkRegisterCommandsComplete : Prop :=
  ∀ s : State,
    (∀ (a : Agent) (p : Fin 8) (v : Word), s.accepts a (LNK.PORT_CTL.o p.val) v = true → s.is (LNK.PORT_CTL.ENABLE p.val) = false → (LNK.PORT_CTL.ENABLE p.val).get v ≠ 0 → (LNK.PORT_CTL.RETRAIN p.val).get v = 0 → (LNK.PORT_CTL.FENCE p.val).get v = 0 → (LNK.PORT_CTL.UNFENCE p.val).get v = 0 →
      exec (.portEnable a p v) s = .next (s.now ((s.withWord a (LNK.PORT_CTL.o p.val) v).enablePort p.val))) ∧
    (∀ (a : Agent) (p : Fin 8) (v : Word), s.accepts a (LNK.PORT_CTL.o p.val) v = true → s.is (LNK.PORT_CTL.ENABLE p.val) = true → (LNK.PORT_CTL.ENABLE p.val).get v = 0 → (LNK.PORT_CTL.RETRAIN p.val).get v = 0 → (LNK.PORT_CTL.FENCE p.val).get v = 0 → (LNK.PORT_CTL.UNFENCE p.val).get v = 0 →
      exec (.portEnable a p v) s = .next (s.now ((s.withWord a (LNK.PORT_CTL.o p.val) v).disablePort p.val))) ∧
    (∀ (a : Agent) (p : Fin 8) (v : Word), s.accepts a (LNK.PORT_CTL.o p.val) v = true → (LNK.PORT_CTL.ENABLE p.val).get v = s.f (LNK.PORT_CTL.ENABLE p.val) → (LNK.PORT_CTL.RETRAIN p.val).get v ≠ 0 → (LNK.PORT_CTL.FENCE p.val).get v = 0 → (LNK.PORT_CTL.UNFENCE p.val).get v = 0 →
      exec (.retrain a p v) s = .next (s.now ((s.withWord a (LNK.PORT_CTL.o p.val) v).retrainPort p.val))) ∧
    (∀ (a : Agent) (p : Fin 8) (v : Word), s.accepts a (LNK.PORT_CTL.o p.val) v = true → (LNK.PORT_CTL.ENABLE p.val).get v = s.f (LNK.PORT_CTL.ENABLE p.val) → (LNK.PORT_CTL.FENCE p.val).get v ≠ 0 → (LNK.PORT_CTL.RETRAIN p.val).get v = 0 → (LNK.PORT_CTL.UNFENCE p.val).get v = 0 →
      exec (.portFence a p v) s = .next (s.now ((s.withWord a (LNK.PORT_CTL.o p.val) v).fencePort p.val))) ∧
    (∀ (a : Agent) (p : Fin 8) (v : Word), s.accepts a (LNK.PORT_CTL.o p.val) v = true → (LNK.PORT_CTL.ENABLE p.val).get v = s.f (LNK.PORT_CTL.ENABLE p.val) → (LNK.PORT_CTL.UNFENCE p.val).get v ≠ 0 → (LNK.PORT_CTL.RETRAIN p.val).get v = 0 → (LNK.PORT_CTL.FENCE p.val).get v = 0 →
      exec (.unfence a p v) s = .next (s.now ((s.withWord a (LNK.PORT_CTL.o p.val) v).unfencePort p.val)))

/-- Command bits of `TKO_CTL` and role requests (R345, R368, R375, R379, R381), each alone. -/
def Obligations.DuplexRegisterCommandsComplete : Prop :=
  ∀ s : State,
    (∀ (a : Agent) (v : Word), s.accepts a DUP.TKO_CTL.o v = true → DUP.TKO_CTL.ARM.get v ≠ 0 → DUP.TKO_CTL.DISARM.get v = 0 → DUP.TKO_CTL.CONFIRM.get v = 0 → DUP.TKO_CTL.REVERSE.get v = 0 → DUP.TKO_CTL.SWAP_GO.get v = 0 → DUP.TKO_CTL.MFILL_GO.get v = 0 →
      exec (.arm a v) s = .next (s.now ((s.withWord a DUP.TKO_CTL.o v).set DUP.ROLE.ARMED 1))) ∧
    (∀ (a : Agent) (v : Word), s.accepts a DUP.TKO_CTL.o v = true → DUP.TKO_CTL.DISARM.get v ≠ 0 → DUP.TKO_CTL.ARM.get v = 0 → DUP.TKO_CTL.CONFIRM.get v = 0 → DUP.TKO_CTL.REVERSE.get v = 0 → DUP.TKO_CTL.SWAP_GO.get v = 0 → DUP.TKO_CTL.MFILL_GO.get v = 0 →
      exec (.disarm a v) s = .next (s.now ((s.withWord a DUP.TKO_CTL.o v).set DUP.ROLE.ARMED 0))) ∧
    (∀ (a : Agent) (v : Word), s.accepts a DUP.TKO_CTL.o v = true → DUP.TKO_CTL.CONFIRM.get v ≠ 0 → DUP.TKO_CTL.ARM.get v = 0 → DUP.TKO_CTL.DISARM.get v = 0 → DUP.TKO_CTL.REVERSE.get v = 0 → DUP.TKO_CTL.SWAP_GO.get v = 0 → DUP.TKO_CTL.MFILL_GO.get v = 0 →
      exec (.confirm a v) s = .next (s.now ((s.withWord a DUP.TKO_CTL.o v).set DUP.ROLE.TKO_PENDING 0))) ∧
    (∀ (a : Agent) (v : Word), s.accepts a DUP.TKO_CTL.o v = true → DUP.TKO_CTL.REVERSE.get v ≠ 0 → DUP.TKO_CTL.ARM.get v = 0 → DUP.TKO_CTL.DISARM.get v = 0 → DUP.TKO_CTL.CONFIRM.get v = 0 → DUP.TKO_CTL.SWAP_GO.get v = 0 → DUP.TKO_CTL.MFILL_GO.get v = 0 →
      exec (.reverse a v) s = .next (s.now (((s.withWord a DUP.TKO_CTL.o v).set DUP.ROLE.TKO_PENDING 0).startSwap true))) ∧
    (∀ (a : Agent) (v : Word), s.accepts a DUP.TKO_CTL.o v = true → DUP.TKO_CTL.SWAP_GO.get v ≠ 0 → DUP.TKO_CTL.ARM.get v = 0 → DUP.TKO_CTL.DISARM.get v = 0 → DUP.TKO_CTL.CONFIRM.get v = 0 → DUP.TKO_CTL.REVERSE.get v = 0 → DUP.TKO_CTL.MFILL_GO.get v = 0 →
      exec (.swapGo a v) s = .next (s.now ((s.withWord a DUP.TKO_CTL.o v).startSwap false))) ∧
    (∀ (a : Agent) (v : Word), s.accepts a DUP.TKO_CTL.o v = true → DUP.TKO_CTL.MFILL_GO.get v ≠ 0 → DUP.TKO_CTL.ARM.get v = 0 → DUP.TKO_CTL.DISARM.get v = 0 → DUP.TKO_CTL.CONFIRM.get v = 0 → DUP.TKO_CTL.REVERSE.get v = 0 → DUP.TKO_CTL.SWAP_GO.get v = 0 →
      exec (.mfillGo a v) s = .next (s.now ((s.withWord a DUP.TKO_CTL.o v).startFill 2))) ∧
    (∀ (a : Agent) (v : Word) (r : Nat), s.accepts a DUP.CFG.o v = true → DUP.CFG.ENABLE.get v = s.f DUP.CFG.ENABLE →
      s.roleAsked (s.regW a DUP.CFG.o v) = some r →
      exec (.roleReq a v) s = .next (s.now ((s.withWord a DUP.CFG.o v).setRole r)))

/-- Command bits of the checkpoint engine (R394, R403, R407, R408), each alone. -/
def Obligations.CheckpointRegisterCommandsComplete : Prop :=
  ∀ s : State,
    (∀ (a : Agent) (v : Word), s.accepts a BLB.CTL.o v = true → BLB.CTL.NOW.get v ≠ 0 →
      exec (.ckptNow a v) s = .next (s.now ((s.withWord a BLB.CTL.o v).ckptOf fun c => { c with now := true }))) ∧
    (∀ (a : Agent) (v : Word), s.accepts a BLB.RS_CTL.o v = true → BLB.RS_CTL.GO.get v ≠ 0 →
      exec (.restoreGo a v) s = .next (s.now (s.withWord a BLB.RS_CTL.o v).restoreGo)) ∧
    (∀ (a : Agent) (v : Word), s.accepts a BLB.DR_CTL.o v = true → BLB.DR_CTL.GO.get v ≠ 0 → BLB.DR_CTL.ABORT.get v = 0 →
      exec (.drGo a v) s = .next (s.now (s.withWord a BLB.DR_CTL.o v).drainGo)) ∧
    (∀ (a : Agent) (v : Word), s.accepts a BLB.DR_CTL.o v = true → BLB.DR_CTL.GO.get v = 0 → BLB.DR_CTL.ABORT.get v ≠ 0 →
      exec (.drAbort a v) s = .next (s.now ((s.withWord a BLB.DR_CTL.o v).drainEnd none))) ∧
    (∀ (a : Agent) (v : Word), s.accepts a BLB.IM_CTL.o v = true → BLB.IM_CTL.BEGIN.get v ≠ 0 → BLB.IM_CTL.DONE.get v = 0 → BLB.IM_CTL.ABORT.get v = 0 →
      exec (.imBegin a v) s = .next (s.now (s.withWord a BLB.IM_CTL.o v).importBegin)) ∧
    (∀ (a : Agent) (v : Word), s.accepts a BLB.IM_CTL.o v = true → BLB.IM_CTL.DONE.get v ≠ 0 → BLB.IM_CTL.BEGIN.get v = 0 → BLB.IM_CTL.ABORT.get v = 0 →
      exec (.imDone a v) s = .next (s.now (s.withWord a BLB.IM_CTL.o v).importDone)) ∧
    (∀ (a : Agent) (v : Word), s.accepts a BLB.IM_CTL.o v = true → BLB.IM_CTL.ABORT.get v ≠ 0 → BLB.IM_CTL.BEGIN.get v = 0 → BLB.IM_CTL.DONE.get v = 0 →
      exec (.imAbort a v) s = .next (s.now ((s.withWord a BLB.IM_CTL.o v).importEnd none)))

/-- Command bits of recovery, field test and the security block (R432, R435, R436, R446, R448, R452, R455, R506, R507, R509, R510, R512). -/
def Obligations.ParsnipRegisterCommandsComplete : Prop :=
  ∀ s : State,
    (∀ (a : Agent) (v : Word), s.accepts a RST.CTL.o v = true → RST.CTL.WARM.get v ≠ 0 → RST.CTL.COLD.get v = 0 →
      exec (.rstWarm a v) s = .next (s.now ((s.withWord a RST.CTL.o v).warmCause 6 255))) ∧
    (∀ (a : Agent) (v : Word), s.accepts a RST.CTL.o v = true → RST.CTL.COLD.get v ≠ 0 →
      exec (.rstCold a v) s = .next (s.now ((s.withWord a RST.CTL.o v).coldReset.pwr fun p => { p with coldHold := true }))) ∧
    (∀ (a : Agent) (v : Word), s.accepts a RST.SP_SEL.o v = true →
      exec (.spSel a v) s = .next (s.now ((s.withWord a RST.SP_SEL.o v).sproutSelect (RST.SP_SEL.DOMAIN.get v)))) ∧
    (∀ (a : Agent) (v : Word), s.accepts a TST.RUN_CTL.o v = true → TST.RUN_CTL.GO.get v ≠ 0 →
      exec (.runGo a v) s = .next (s.now (s.withWord a TST.RUN_CTL.o v).runGo)) ∧
    (∀ (a : Agent) (v : Word), s.accepts a TST.RUN_CTL.o v = true → TST.RUN_CTL.GO.get v = 0 → TST.RUN_CTL.ABORT.get v ≠ 0 →
      exec (.runAbort a v) s = .next (s.now (s.withWord a TST.RUN_CTL.o v).runAbort)) ∧
    (∀ (a : Agent) (v : Word), s.accepts a TST.CLS_SEL.o v = true → TST.CLS_SEL.GO.get v ≠ 0 →
      exec (.clsSelGo a v) s = .next (s.now (s.withWord a TST.CLS_SEL.o v).classWindow)) ∧
    (∀ (a : Agent) (v : Word), s.accepts a TST.CLS_CTL.o v = true → TST.CLS_CTL.CLEAR.get v ≠ 0 →
      exec (.clsClear a v) s = .next (s.now (s.withWord a TST.CLS_CTL.o v).classClear)) ∧
    (∀ (a : Agent) (v : Word), s.accepts a TST.HIST_SEL.o v = true → TST.HIST_SEL.GO.get v ≠ 0 →
      exec (.histSelGo a v) s = .next (s.now (s.withWord a TST.HIST_SEL.o v).histWindow)) ∧
    (∀ (a : Agent) (i : Fin 256) (v : Word), s.accepts a (SEC.STAGE_D.o i.val) v = true →
      exec (.stageD a i v) s = .next (s.now ((s.withWord a (SEC.STAGE_D.o i.val) v).stageWord ((s.withWord a (SEC.STAGE_D.o i.val) v).stageSource a) v))) ∧
    (∀ (a : Agent) (v : Word), s.accepts a SEC.STAGE_CTL.o v = true → SEC.STAGE_CTL.ABORT.get v = 0 → SEC.STAGE_CTL.DONE.get v ≠ 0 →
      exec (.stageDone a v) s = .next (s.now ((s.withWord a SEC.STAGE_CTL.o v).stageVerify (SEC.STAGE_CTL.KIND.get v) (SEC.STAGE_CTL.SLOT.get v)))) ∧
    (∀ (a : Agent) (v : Word), s.accepts a SEC.STAGE_CTL.o v = true → SEC.STAGE_CTL.ABORT.get v ≠ 0 →
      exec (.stageAbort a v) s = .next (s.now (s.withWord a SEC.STAGE_CTL.o v).stageClear)) ∧
    (∀ (a : Agent) (v : Word), s.accepts a SEC.FETCH_CTL.o v = true → SEC.FETCH_CTL.SERVE.get v ≠ 0 →
      exec (.serve a v) s = .next (s.now (s.withWord a SEC.FETCH_CTL.o v).serveGo)) ∧
    (∀ (a : Agent) (v : Word), s.accepts a SEC.ATT_CTL.o v = true → SEC.ATT_CTL.GO.get v ≠ 0 →
      exec (.attGo a v) s = .next (s.now (s.withWord a SEC.ATT_CTL.o v).attestGo))

/-! ## Recovery, keep-alive, debug and trace -/

/-- The events of a warm recovery in the order of R422, the watch of R416, and the stall of R426. -/
def Obligations.RecoveryEventsComplete : Prop :=
  ∀ s : State,
    (∀ d, (s.watched d = true ∧ s.busy d = true ∨
        s.rstState = stQUIESCE ∧ s.recov.expiring.contains d = true ∧ s.quiesced d = false) →
      exec (.sprout d) s = .next (s.now
        (let m := s.recovOf fun r => { r with expiring := r.expiring.filter (· != d) }
         let m := (m.count RST.SN_SPROUT_LO.o 1).charge 0x07 d 0 0 0 0
         (if m.rstState = stRUN then m.raiseRST 1 d 0 else m).warmCause 1 d))) ∧
    (∀ d, s.parsnipUp = true → s.rstState = stQUIESCE → s.recov.waited = false → d < 156 → s.quiesced d = false →
      exec (.quiesceAck d) s = .next (s.now ((s.abandon d).recovOf fun r => { r with acked := r.acked ++ [d] }))) ∧
    (s.parsnipUp = true → s.rstState = stQUIESCE → s.recov.waited = false →
      exec .quiesceWaitExpiry s = .next (s.now
        (let m := (List.range 5).foldl (fun m i => m.set (RST.DOM_OFF.OFF i) 0) s.toMod
         (((List.range 156).filter fun d => !m.quiesced d).foldl Mod.switchOff m).recovOf fun r => { r with waited := true }))) ∧
    (s.parsnipUp = true → s.rstState = stQUIESCE → s.recov.waited = true →
      exec .selfRefreshEntered s = .next (s.now
        (let m := (s.recovOf fun r => { r with selfRefresh := true }).closeTags
         ({ m with doms := { m.doms with held := true, except := [] } } : Mod).set RST.STAT.STATE stRESET))) ∧
    (s.parsnipUp = true → s.rstState = stQUIESCE → s.recov.waited = false → (List.range 156).all s.quiesced = true →
      exec .selfRefreshEntered s = .next (s.now
        (let m := (List.range 5).foldl (fun m i => m.set (RST.DOM_OFF.OFF i) 0) s.toMod
         let m := (m.recovOf fun r => { r with selfRefresh := true }).closeTags
         ({ m with doms := { m.doms with held := true, except := [] } } : Mod).set RST.STAT.STATE stRESET))) ∧
    (s.parsnipUp = true → s.rstState = stRESET →
      exec .resetHoldEnd s = .next (s.now
        (let m := s.toMod.zeroStores.warmBlocks
         let boot := m.bootState
         let m := ({ m with doms := ⟨boot != bREADY, if 6 ≤ boot then [142, 143] else [], [], true, true⟩ } : Mod).set RST.STAT.STATE stRETRAIN
         (m.recovOf fun r => { r with acked := [], linksTrained := false }).portsStart))) ∧
    (s.parsnipUp = true → s.power.resonator = true → s.rstState = stRETRAIN →
      exec .dieLinkTrainDone s = .next (s.now
        (({ s.toMod with doms := { s.doms with linkRetrain := false } } : Mod).recovOf fun r => { r with linksTrained := true }))) ∧
    (∀ repaired, s.parsnipUp = true → s.rstState = stRETRAIN → s.recov.linksTrained = true →
      exec (.hbmTrainDone repaired) s = .next (s.now
        (let m := if s.recov.lost.isEmpty then s.toMod else s.loadRepairs s.recov.lost repaired
         ({ m with doms := { m.doms with memRetrain := false } } : Mod).recovOf fun r => { r with selfRefresh := false, lost := [] }))) ∧
    (s.parsnipUp = true → s.rstState = stRETRAIN → s.recov.linksTrained = true →
      exec .warmDone s = .next (s.now (((s.memRetrained []).set RST.STAT.STATE stRUN).raiseRST 4 255 s.recov.cause))) ∧
    (s.parsnipUp = true → s.rstState ≠ stRUN → s.rstState ≠ stFAILED →
      exec .recovStall s = .next (s.now
        (let m := (s.set RST.STAT.STATE stFAILED).raiseRST 5 255 s.recov.cause
         let m := (List.range 8).foldl (fun m p => if m.pstate p = pUP then m.lastFence p else m) m
         m.fenceAll.charge 0x09 254 3 0 0 0))) ∧
    exec .parsnipKeepaliveTimeout s = .next (s.now (s.dupOf fun d => { d with dead := true })) ∧
    (s.parsnipUp = true → exec .keepAlive s = .next (s.now (s.dupOf fun d => { d with aliveAt := s.vine.time.toNat })))

/-- Events of the debug and trace units and of the snapshot (R128, R474, R491). -/
def Obligations.DebugAndSnapshotEventsComplete : Prop :=
  ∀ s : State,
    (∀ (spread : BitVec 16) (coinc : List Nat), s.is SNAP.STAT.BUSY = true →
      exec (.snapshotDone spread coinc) s = .next (s.now (s.snapshotEnd spread.toNat coinc))) ∧
    (∀ (seen : ReadMoment) sel, s.is DBG.STAT.DEBUG = true → s.accReq = some sel →
      exec (.accReadTaken seen) s = .next (s.now (s.accTake sel seen.coincide seen.lag))) ∧
    (s.is DBG.TR_CTL.EN = true → s.down 149 = false → s.budget 2 ≠ 0 → s.traceRoom = true →
      exec (.flushItem false) s = .next (s.after s.flushMove) ∧
        exec (.flushItem true) s = .next (s.after (s.count DBG.SN_TR_DROP_LO.o 1)))

/-- Events of field test, the health history and the classes (R443, R446, R448, R451, R452). -/
def Obligations.FieldTestEventsComplete : Prop :=
  ∀ s : State,
    (s.f TST.STAT.STATE = 1 →
      exec .heatTargetReached s = .next (s.now
        (let mv := s.railSet s.runRail
         let m := (s.setRail s.runRail mv).tst fun t => { t with pointMv := mv, dly := s.planField 0 TST.PLAN.DLY, trimmed := false }
         (m.sets [(TST.STAT.STATE, 2), (TST.STAT.POINT, 0)]).set TST.STAT.TJ (s.planField 2 TST.T_TARGET.C)))) ∧
    (s.f TST.STAT.STATE = 1 → exec .noHeat s = .next (s.now (s.runOver 5))) ∧
    (∀ tj : Byte, s.testing = true → s.planField 2 TST.T_TARGET.C ≠ 0 →
      (103 ≤ tj.toNat → exec (.heaterTrip tj) s = .next (s.now ((s.set TST.STAT.TJ tj.toNat).tst fun t => { t with heater := false }))) ∧
      (tj.toNat ≤ 100 → exec (.heaterTrip tj) s = .next (s.now ((s.set TST.STAT.TJ tj.toNat).tst fun t => { t with heater := true })))) ∧
    (∀ fails, s.f TST.STAT.STATE = 2 → s.test.trimmed = false →
      exec (.pointEnd fails) s = .next (s.now
        (let us := s.underTest.filter s.patternsRun
         let m := us.foldl (fun m u => (m.setResult u { m.resultOf u with tested := true }).progress u) s.toMod
         (fails.foldl (fun m e => if us.contains e.1 ∧ m.patternRuns e.1 e.2 then m.noteFail e.1 e.2 false else m) m).nextPoint))) ∧
    (∀ u, s.unitClass u = 2 → s.recent u = 0 → exec (.classWindowExpiry u) s = .next (s.now (s.setClass u 0))) ∧
    exec (.historyRetry true) s = .next (s.now
      (s.test.held.foldl Mod.histFlash ((s.tst fun t => { t with secs := t.secs + 1, flashBad := false }).tst fun t => { t with held := [] }))) ∧
    exec (.historyRetry false) s = .next (s.now (s.tst fun t => { t with secs := t.secs + 1, flashBad := true }))

/-! ## Queues and the engines of a core -/

/-- The array (chapter 3): a pass is taken or refused with the status of its first failing check (R84), its weights load, it completes,
drains, or meets an uncorrectable byte. -/
def Obligations.ArrayCommandsComplete : Prop :=
  ∀ (s : State) (n : Fin 128),
    (∀ (q : Fin 4) (g : Nat) (d : Desc), s.grant n.val (s.passRequests n.val) q.val = some g → s.running n.val g 0x10 = some d →
      (s.arr n.val).passes.any Pass.shadow = false →
      let m := s.granted n.val (s.passRequests n.val) g
      ((arrDesc d.bytes).check (s.arr n.val) = 0 →
        exec (.arrayPass n q) s = .next (s.after ((m.mapDesc n.val g d.num fun e => { e with issued := true }).setArr n.val
          (let a := (s.arr n.val).opens (arrDesc d.bytes)
           { a with passes := a.passes ++ [⟨g, d.num, d.tag, d.bytes, 0, []⟩] })))) ∧
      ((arrDesc d.bytes).check (s.arr n.val) ≠ 0 →
        exec (.arrayPass n q) s = .next (s.after (m.endDesc n.val g d ((arrDesc d.bytes).check (s.arr n.val)))))) ∧
    (∀ p, (s.arr n.val).passes.find? (·.phase == 0) = some p →
      let st := (arrDesc p.bytes).check ((s.arr n.val).before p)
      ((s.arr n.val).waitsDrain p = false → st = 0 → exec (.weightLoadDone n) s = .next (s.after (s.loadsWeights n.val p))) ∧
      ((s.arr n.val).waitsDrain p = false → st ≠ 0 → exec (.weightLoadDone n) s = .next (s.after (s.passFails n.val p st))) ∧
      ((s.arr n.val).waitsDrain p = true →
        exec (.weightLoadDone n) s = .next (s.after (s.setArr n.val ((s.arr n.val).setPhase p 2))))) ∧
    (∀ p, (s.arr n.val).passes.find? (fun p => p.phase == 3 || (p.phase == 1 && !(arrDesc p.bytes).drain)) = some p →
      exec (.arrayPassComplete n) s = .next (s.after (s.passEnds n.val p))) ∧
    (∀ p, (s.arr n.val).passes.find? (fun p => p.phase == 1 && (arrDesc p.bytes).drain) = some p →
      exec (.arrayDrainDone n) s = .next (s.after (s.drainEnds n.val p))) ∧
    (∀ (off : BitVec 22) (p : Pass),
      ((s.arr n.val).passes.reverse.find? fun p => decide (p.phase < 3) && s.passReads n.val off.toNat p) = some p →
      exec (.arrData n off) s = .next (s.after
        (let m := s.mside fun x => { x with lsErr := tset (fun _ => 0) x.lsErr (lsAddr n.val off.toNat) 3 }
         (((m.lsByte (By.core n.val p.tag) (lsAddr n.val off.toNat)).1).arrayData n.val p).wakePass n.val))) ∧
    exec (.rampDownDone n) s = .next (s.after (s.setArr n.val { s.arr n.val with activity := 0 }))

/-- The pace of a queue (R166, R167, R169, R170, R175): a descriptor starts, or ends at once with Q_FIELD or CTX_CLOSED; the oldest one
that may complete next completes, once its work has ended, with its record, its count word and `Q_DONE`, in this order. -/
def Obligations.QueueCommandsComplete : Prop :=
  ∀ (s : State) (n : Fin 128) (q : Fin 4),
    (∀ d, s.nextStart n.val q.val = some d →
      let d' : Desc := { d with tag := s.descTag n.val q.val d, inst := s.f (CORE.CTX_STAT.INSTANCE n.val (hCtx d.bytes)), phase := 1 }
      let m := s.mapDesc n.val q.val d.num fun _ => d'
      (engineOf (hOpcode d.bytes) = 0 → controlOk d.bytes = false →
        exec (.descriptorStart n q) s = .next (s.after (m.endDesc n.val q.val d' sQ_FIELD))) ∧
      ((engineOf (hOpcode d.bytes) ≠ 0 ∨ controlOk d.bytes = true) → s.f (CORE.CTX_STAT.STATE n.val (hCtx d.bytes)) ≠ 1 →
        exec (.descriptorStart n q) s = .next (s.after (m.endDesc n.val q.val d' sCTX_CLOSED))) ∧
      ((engineOf (hOpcode d.bytes) ≠ 0 ∨ controlOk d.bytes = true) → s.f (CORE.CTX_STAT.STATE n.val (hCtx d.bytes)) = 1 →
        exec (.descriptorStart n q) s = .next (s.after (m.traceRec n.val q.val 1 (hTag d.bytes) d'.tag
          (leBytes 4 d.num ++ leBytes 1 (hOpcode d.bytes) ++ leBytes 1 (hCtx d.bytes)))))) ∧
    (∀ idle d rest, s.completing n.val q.val = (idle, d :: rest) → d.ended = true → (d.phase ≠ 3 ∨ s.halted n.val q.val = false) → d.num < 2 ^ 32 →
      exec (.descriptorComplete n q) s = .next (s.after (s.completes n.val q.val d (idle ++ rest))))

/-- Control descriptors (R171 to R174), each started and running. -/
def Obligations.ControlDescriptorsComplete : Prop :=
  ∀ (s : State) (n : Fin 128) (q : Fin 4) (d : Desc),
    (s.running n.val q.val 0x00 = some d → exec (.nop n q) s = .next (s.after (s.endDesc n.val q.val d sOK))) ∧
    (s.running n.val q.val 0x01 = some d → s.syncAddrOk (dfield d.bytes 8 6) = true →
      exec (.sync n q) s = .next (s.after (s.pollSync n.val q.val d))) ∧
    (s.running n.val q.val 0x01 = some d → s.syncAddrOk (dfield d.bytes 8 6) = false →
      exec (.sync n q) s = .next (s.after (s.endDesc n.val q.val d sQ_RANGE))) ∧
    (s.waiter n.val q.val 4 = some d → d.stopped = false →
      ∀ m w, s.loadNat (By.core n.val d.tag) (dfield d.bytes 8 6) 4 = (m, some w) → (w + 2 ^ 32 - dfield d.bytes 16 4) % 2 ^ 32 < 2 ^ 31 →
        exec (.syncPoll n q) s = .next (s.after (m.endDesc n.val q.val d sOK))) ∧
    (s.running n.val q.val 0x02 = some d →
      let src := dfield d.bytes 8 6
      let units := dbits d.bytes 16 17 0
      let tq := dbits d.bytes 16 19 18
      (s.inWork src (64 * units) = true ∨ inStore n.val src (64 * units) = true) → s.is (CORE.Q_CTL.FEED n.val tq) = true →
      (tq ≠ q.val ∨ (d.off + d.units) % max (s.ringSize n.val q.val) 1 = s.f (CORE.Q_TAIL.OFFSET n.val q.val)) →
      units + 1 + (if tq = q.val then d.units else 0) ≤ s.ringSize n.val tq →
        exec (.enqueue n q) s = .next (s.after (s.tryEnqueue n.val q.val d))) ∧
    (s.waiter n.val q.val 3 = some d → exec (.enqueueSpace n q) s = .next (s.after (s.tryEnqueue n.val q.val d))) ∧
    (∀ m bs t,
      let units := dbits d.bytes 16 17 0
      let tq := dbits d.bytes 16 19 18
      let reqs := s.roomRequests n.val tq q.val
      s.waiter n.val q.val 3 = some d → d.stopped = false → units ≤ s.ringFree n.val tq →
      s.grant (1024 + 4 * n.val + tq) reqs q.val = some q.val →
      (s.granted (1024 + 4 * n.val + tq) reqs q.val).load (By.core n.val d.tag) (dfield d.bytes 8 6) (64 * units) = (m, some bs) →
      m.unitStores (By.core n.val d.tag) (ringPieces (m.ringBase n.val tq) (m.ringSize n.val tq)
        (m.f (CORE.Q_TAIL.OFFSET n.val tq)) bs) = (t, true) →
        exec (.enqueueSpace n q) s = .next (s.after
          (((t.set (CORE.Q_TAIL.OFFSET n.val tq) ((m.f (CORE.Q_TAIL.OFFSET n.val tq) + units) % m.ringSize n.val tq)).endDesc n.val q.val d
            sOK).take n.val tq))) ∧
    (s.running n.val q.val 0x03 = some d → (earlier (s.queue n.val q.val).taken d).any (·.phase == 0) = false →
      let k := s.tagStep (s.f (CORE.Q_STAT.GEN n.val q.val)) + 1
      let t := ((s.set (CORE.Q_STAT.GEN n.val q.val) (s.tagFor k)).endDesc n.val q.val d sOK).openStep k
      exec (.stepMark n q) s = .next (s.after
        (if t.f (CORE.Q_STAT.GEN n.val q.val) = s.f (CORE.Q_STAT.GEN n.val q.val) then t else t.swapMark n.val q.val)))

/-- The DMA engine (R51, R179, R181, R182, R197, R198, R252): a descriptor that its arbiter grants the engine, that passes its checks and
whose source bytes can be read; and what a Stalk granule held back. -/
def Obligations.DmaDescriptorsComplete : Prop :=
  ∀ (s : State) (n : Fin 128) (q : Fin 4) (e : Desc),
    (let reqs := s.engineRequests n.val [0x20, 0x21, 0x22, 0x23]
     let m := s.granted (256 + n.val) reqs q.val
     s.grant (256 + n.val) reqs q.val = some q.val → m.dmaHeld n.val = false →
      (∀ z, m.running n.val q.val 0x20 = some e → m.copyCheck (copyDesc e.bytes) = 0 → m.badGranule e.tag (m.dmaReads e.bytes) = none →
        exec (.copy n q z) s = .next (s.after ((m.strike z).copyGo n.val q.val e))) ∧
      (∀ m₁ m₂ raw sc, m.running n.val q.val 0x21 = some e → m.skewCheck (skewDesc e.bytes) = 0 →
        m.badGranule e.tag (m.dmaReads e.bytes) = none →
        m.loads (By.core n.val e.tag) (skewDesc e.bytes).rowReads = (m₁, some raw) →
        m₁.loads (By.core n.val e.tag) ((List.range (skewDesc e.bytes).m).flatMap (skewDesc e.bytes).scaleReads) = (m₂, some sc) →
        exec (.skew n q) s = .next (s.after (m₂.skewWrite n.val q.val e (skewDesc e.bytes) raw sc))) ∧
      (∀ m₁ m₂ m₃ raw mraw sc, m.running n.val q.val 0x22 = some e → m.weightCheck (weightDesc e.bytes) = 0 →
        m.badGranule e.tag (m.dmaReads e.bytes) = none →
        m.loads (By.core n.val e.tag) (weightDesc e.bytes).rowReads = (m₁, some raw) →
        m₁.loads (By.core n.val e.tag) (weightDesc e.bytes).metaReads = (m₂, some mraw) →
        m₂.loads (By.core n.val e.tag) (weightDesc e.bytes).scaleReads = (m₃, some sc) →
        exec (.weight n q) s = .next (s.after (m₃.weightWrite n.val q.val e (weightDesc e.bytes) raw mraw sc))) ∧
      (∀ m₁ bs, m.running n.val q.val 0x23 = some e →
        let d := scatterDesc e.bytes
        d.rsv = 0 → d.n ≠ 0 → d.rowlen ≠ 0 → d.limit ≠ 0 → d.dpitch % elemWidth d.afmt = 0 → d.idx * 64 + 4 * d.n ≤ lsSize →
        d.val * 64 + (d.n - 1) * d.vpitch * 64 + d.rowlen * addWidth d.afmt ≤ lsSize →
        m.load (By.core n.val e.tag) (lsAddr n.val (d.idx * 64)) (4 * d.n) = (m₁, some bs) →
        exec (.scatterAdd n q) s = .next (s.after (m₁.scatterGo n.val q.val e d ((pieces 4 d.n bs).map leNat))))) ∧
    (s.waiter n.val q.val 1 = some e → s.badGranule e.tag (s.dmaReads e.bytes) = none →
      (s.copyGo n.val q.val e).heldWrites.filter (fun h => h.core == n.val && h.q == q.val && h.lands) = [] →
      exec (.stalkWriteRelease n q) s = .next (s.after (s.copyGo n.val q.val e))) ∧
    (∀ h, s.waiter n.val q.val 1 = none → s.heldWrites.filter (fun h => h.core == n.val && h.q == q.val && h.lands) = [h] →
      (s.queue n.val q.val).taken.find? (·.num == h.num) = some e →
      exec (.stalkWriteRelease n q) s = .next (s.after
        ((({ s.toMod with heldWrites := s.heldWrites.erase h } : Mod).landData n.val q.val e h.dest h.bytes).endIfDone n.val q.val h.num)))

/-- The vector engine (R51, R185 to R189): a descriptor that its arbiter grants the engine, that passes its checks and whose operands can
be read. -/
def Obligations.VectorDescriptorsComplete : Prop :=
  ∀ (s : State) (n : Fin 128) (q : Fin 4) (e : Desc),
    let reqs := s.engineRequests n.val [0x30, 0x31, 0x32, 0x33, 0x34]
    let m := s.granted (384 + n.val) reqs q.val
    let d := vecDesc e.bytes
    s.grant (384 + n.val) reqs q.val = some q.val →
    (∀ m₁ m₂ m₃ a b c, m.running n.val q.val 0x30 = some e → d.eltBad = 0 → m.opA n.val e.tag d = (m₁, some a) →
      m₁.opBC n.val e.tag d d.srcB d.pitchB d.bcastB (decide (2 ≤ eltArgs d.fn)) = (m₂, some b) →
      m₂.opBC n.val e.tag d d.srcC d.pitchC d.bcastC (eltArgs d.fn == 3) = (m₃, some c) →
      exec (.elt n q) s = .next (s.after (m₃.eltWrite n.val q.val e d a b c))) ∧
    (∀ m₁ a, m.running n.val q.val 0x34 = some e → d.redBad = 0 → m.opA n.val e.tag d = (m₁, some a) →
      exec (.rowred n q) s = .next (s.after
        ((m₁.putRow n.val e.tag (d.dst * 64) 4 (a.map fun r => (rowReduce d.fn r).toNat)).endDesc n.val q.val e 0))) ∧
    (∀ m₁ a, m.running n.val q.val 0x32 = some e → d.amaxBad = 0 → m.opA n.val e.tag d = (m₁, some a) →
      exec (.amax n q) s = .next (s.after
        ((m₁.putRow n.val e.tag (d.dst * 64) 4 [(toFP32 (amaxOf a.flatten)).toNat]).endDesc n.val q.val e 0))) ∧
    (∀ m₁ a, m.running n.val q.val 0x33 = some e → d.rankBad = 0 →
      m.opCodes n.val e.tag d.srcA d.pitchA d.rows d.n 4 = (m₁, some a) →
      exec (.ranksum n q) s = .next (s.after
        ((m₁.putRow n.val e.tag (d.dst * 64) 4
          ((List.range d.n).map fun i => (rankSum (a.map fun r => BitVec.ofNat 32 (r.getD i 0))).toNat)).endDesc n.val q.val e 0))) ∧
    (∀ m₁ m₂ m₃ w x a, m.running n.val q.val 0x31 = some e → d.quantField = false →
      m.loadNat (By.core n.val e.tag) (m.recAddr d.rcd) 8 = (m₁, some w) → recOk w = true →
      d.quantRange ((scaleRec w).mode == 2) = false → m₁.quantAmax n.val e.tag d (scaleRec w) = (m₂, some x) →
      m₂.opA n.val e.tag d = (m₃, some a) →
      exec (.quant n q) s = .next (s.after
        (let t := (scaleRec w).t x
         let vals := a.map fun row => row.map (quantScale t.1)
         m₃.quantPut n.val q.val e d (scaleRec w) t.2
           (if d.kind = 3 then quantKind3 vals else quantMx d.kind d.baxis d.rows d.n d.dstS d.pitchS vals))))

/-- Contexts and replies (R176, R177). -/
def Obligations.ContextCommandsComplete : Prop :=
  ∀ (s : State) (n : Fin 128) (c : Fin 16),
    (s.ctxState n.val c.val = 2 → s.f (CORE.CTX_OUT.COUNT n.val c.val) = 0 →
      ([0, 1, 2, 3].any fun q => (s.queue n.val q).taken.any fun d =>
        hCtx d.bytes == c.val && (d.phase == 1 || (d.phase == 2 && d.status != sCTX_CLOSED && d.status != sQ_FIELD))) = false →
      exec (.ctxDone n c) s = .next (s.after
        ((s.sets [(CORE.CTX_STAT.STATE n.val c.val, 0),
          (CORE.CTX_STAT.INSTANCE n.val c.val, s.f (CORE.CTX_STAT.INSTANCE n.val c.val) + 1)]).raiseCORE n.val 3
            [(CORE.EVT_INFO.CTX n.val, c.val)]))) ∧
    (∀ (inst : Byte) (gen : BitVec 16) (count : Nat),
      let waiting := s.reqs.filter fun r => r.core == n.val && r.ctx == c.val && r.tag == gen.toNat && !r.dead
      (inst.toNat = s.f (CORE.CTX_STAT.INSTANCE n.val c.val) → waiting ≠ [] →
        exec (.requestReply n c inst gen count) s = .next (s.after ((waiting.take count).foldl (fun m r => m.answer r (· == r)) s.toMod))) ∧
      ((inst.toNat ≠ s.f (CORE.CTX_STAT.INSTANCE n.val c.val) ∨ waiting = []) →
        exec (.requestReply n c inst gen count) s = .next (s.after (s.count (CORE.SN_LATE_LO.o n.val) 1))))

/-! ## Fennel -/

/-- Fennel (R51, R139 to R157): a descriptor opens its operation, or waits while four are open or others wait before it; the arbiter grants
one that waits; a descriptor that passes its checks opens as its opcode says; the scan of a DISPATCH returns and places its choices, or
finds that the slice's dispatches differ. -/
def Obligations.FennelCommandsComplete : Prop :=
  ∀ (s : State) (n : Fin 128) (q : Fin 4) (e : Desc),
    (∀ cmd ∈ [(Instr.dispatch n q, 0x40), (.combine n q, 0x41), (.dispatchBwd n q, 0x42), (.combineBwd n q, 0x43)],
      s.running n.val q.val cmd.2 = some e → s.is FEN.CFG.ENABLE = true → (4 ≤ s.fen.ops.length ∨ s.fenRequests ≠ []) →
        exec cmd.1 s = .next (s.after (s.mapDesc n.val q.val e.num fun x => { x with wait := 5 }))) ∧
    (∀ m pl, s.fen.ops.length < 4 → s.fenRequests = [] → s.fenCheck n.val q.val e = (m, 0, pl) →
      let o := m.newOp n.val q.val e
      let t := m.opensOp n.val q.val e o
      let d := fenDesc e.bytes
      (s.running n.val q.val 0x40 = some e → exec (.dispatch n q) s = .next (s.after (t.dispatchOpen o d))) ∧
      (s.running n.val q.val 0x41 = some e →
        exec (.combine n q) s = .next (s.after (((t.combineOpen o d pl).deliverEarly o).fenEnd o))) ∧
      (s.running n.val q.val 0x42 = some e →
        exec (.dispatchBwd n q) s = .next (s.after (((t.dispatchBwdOpen o d pl).deliverEarly o).fenEnd o))) ∧
      (s.running n.val q.val 0x43 = some e →
        exec (.combineBwd n q) s = .next (s.after (((t.combineOpen o d pl).deliverEarly o).fenEnd o)))) ∧
    (∀ g m pl, s.grant 128 s.fenRequests (4 * n.val + q.val) = some g → s.waiter (g / 4) (g % 4) 5 = some e → s.fen.ops.length < 4 →
      (s.granted 128 s.fenRequests g).fenCheck (g / 4) (g % 4) e = (m, 0, pl) →
      let o := m.newOp (g / 4) (g % 4) e
      let t := m.opensOp (g / 4) (g % 4) e o
      let d := fenDesc e.bytes
      exec (.fenOpOpen n q) s = .next (s.after
        (if hOpcode e.bytes = 0x40 then t.dispatchOpen o d
         else if hOpcode e.bytes = 0x42 then ((t.dispatchBwdOpen o d pl).deliverEarly o).fenEnd o
         else ((t.combineOpen o d pl).deliverEarly o).fenEnd o))) ∧
    (∀ (i : Fin 4) (o : FenOp) l, s.fen.ops[i.val]? = some o → o.op = 0x40 → o.scanned = false → s.gathered kScan o.scanUse = some l →
      let d := fenDesc o.bytes
      let t := s.smallTaken kScan o.scanUse
      ∀ r, s.scanHeld i.val = some r →
      ((l.any fun w => w.take 9 != d.signature) = true → exec (.fennelScanResult i r) s = .next (s.after (t.fenFail o 0x33 0))) ∧
      (∀ m pl, (l.any fun w => w.take 9 != d.signature) = false → t.placement o.by_ d = (m, some pl) →
        let rank := if l.length = 1 then 0 else m.rankOf o.ident
        exec (.fennelScanResult i r) s = .next (s.after
          (((m.scanPlaced o d pl (fun key => (column (l.take rank) (9 + key)).sum) fun key => (column l (9 + key)).sum).deliverEarly
            o).fenEnd o))))

/-! ## Update engines, loss and tile checks -/

/-- Stage 6 (R207, R213, R224, R226, R227): each event, when it is due, with its reads in order and readable. The target of a re-mirroring
stands outside the slice, and takes the slice-wide words with the commands (the model's choice, log entry 122). -/
def Obligations.UpdateCommandsComplete : Prop :=
  ∀ s : State,
    (s.sixReady = true →
      exec .updateStageStart s = .next (s.after
        (let k := s.steps.oldest
         let m := s.stepsOf fun x => { x with six := x.six ++ [k] }
         let m := ({ m with dup := { m.dup with sentDigest := false, recheck := false } } : Mod).updOf fun u => { u with
           running := true, step := k, latched := false, listBad := none, lossBad := false, word := 0, vote1 := 0, word1 := 0,
           vote2 := 0, allowed := false, ownDone := false, mirDone := false }
         ((m.setStepRegs k 0).set UPD.STAT.PHASE 1).sixLatch))) ∧
    (s.upd.running = true → s.upd.latched = true → s.upd.vote1 = 0 → s.upd.lossBad = false →
      (s.upd.listBad ≠ none → exec .precheckEnd s = .next (s.after (s.submitVote1 false false))) ∧
      (∀ m₁ m₂ m₃ lst own mem, s.upd.listBad = none → s.sixRead 0 [(s.listOff, 64 * s.listN)] = (m₁, some lst) →
        m₁.sixRead 0 (Mod.maskRanges (m₁.listIn lst)) = (m₂, some own) →
        m₂.sixRead 1 (Mod.maskRanges (m₁.listIn lst)) = (m₃, some mem) →
        exec .precheckEnd s = .next (s.after (m₃.precheckTaken (m₁.listIn lst) own mem)))) ∧
    (∀ l m m' es, s.outside = false → s.upd.running = true → s.upd.vote1 = 1 → s.gathered kVote1 s.upd.step = some l →
      s.ownWritable = (m, true) →
      let mask := BitVec.ofNat 4096 (orAll (column l 1))
      m.vote1Reads (maskList mask) = (m', some es) →
      exec (.vote1Result (BitVec.ofNat 8 (orAll (column l 0))) mask) s = .next (s.after
        ((m'.smallTaken kVote1 m'.upd.step).vote1Taken (orAll (column l 0)) (maskList mask) es))) ∧
    (∀ word mask m m' es, s.outside = true → s.upd.running = true → s.upd.vote1 = 1 → s.ownWritable = (m, true) →
      m.vote1Reads (maskList mask) = (m', some es) →
      exec (.vote1Result word mask) s = .next (s.after
        ((m'.smallTaken kVote1 m'.upd.step).vote1Taken word.toNat (maskList mask) es))) ∧
    (∀ m m' cnt, s.passDue = true → s.upd.ownDone = false → s.ownWritable = (m, true) → (m.applyWrites false).dueWrites false = [] →
      (m.applyWrites false).runPass 0 = (m', some cnt) →
      exec .ownPassEnd s = .next (s.after (m'.ownPassCounted cnt))) ∧
    (∀ word, s.outside = true → s.upd.vote2 = 1 →
      exec (.vote2Result word) s = .next (s.after ((s.smallTaken kVote2 s.upd.step).vote2Taken word.toNat))) ∧
    (∀ l, s.outside = false → s.upd.vote2 = 1 → s.gathered kVote2 s.upd.step = some l →
      exec (.vote2Result (BitVec.ofNat 8 (orAll (column l 0)))) s = .next (s.after ((s.smallTaken kVote2 s.upd.step).vote2Taken (orAll (column l 0))))) ∧
    (∀ m cnt, s.passDue = true → s.upd.mirDone = false → (s.applyWrites true).dueWrites true = [] →
      (s.applyWrites true).runPass 1 = (m, some cnt) →
      exec .mirrorPassEnd s = .next (s.after (m.mirrorPassCounted cnt)))

/-- The reduced loss of a step (R215; outside the slice the loss comes with the command, log entry 122), sampled tile checks (R233), and the run-time's replay order (R355). -/
def Obligations.LossTileAndReplayComplete : Prop :=
  ∀ s : State,
    (∀ k sum tokens, s.outside = true → s.upd.lossVoted = true → s.upd.lossDue = some k →
      exec (.lossResult sum tokens) s = .next (s.after
        (((s.smallTaken kLoss k).lossReport k sum tokens.toNat).lossRecord k s.upd.lossSkip sum.toNat tokens.toNat))) ∧
    (∀ k l, s.outside = false → s.upd.lossVoted = true → s.upd.lossDue = some k → s.gathered kLoss k = some l →
      let sum := rankSum ((column l 0).map (BitVec.ofNat 32))
      let tokens := (column l 1).sum
      let t := (s.smallTaken kLoss k).lossReport k sum tokens
      exec (.lossResult sum (BitVec.ofNat 64 tokens)) s = .next (s.after (t.lossRecord k s.upd.lossSkip sum.toNat tokens)) ∧
      (tokens < 2 ^ 64 → t.lv UPD.SN_LOSS_SUM.o = sum.toNat ∧ t.cnt UPD.SN_LOSS_TOK_LO.o = tokens)) ∧
    (∀ (n : Fin 128) x, s.tileWindow = true → s.budget 1 ≠ 0 → s.health.samples.find? (·.core == n.val) = some x →
      exec (.tileCheckDone n) s = .next (s.after
        (let m := (s.hltOf fun h => { h with samples := h.samples.eraseP (·.core == n.val) }).count HLT.SN_TC_RUN_LO.o 1
         if x.elems.all (tileAgrees x.n) then m
         else ((m.count HLT.SN_TC_BAD_LO.o 1).raiseHLT 4 [(HLT.EVT_INFO.INDEX, n.val)]).charge 0x04 n.val 0 0 0 0))) ∧
    (∀ k, s.steps.failed = some (k, 0) → s.attempt k ≠ 15 →
      exec .replayOrder s = .next (s.after
        ((((s.discard k).nextAttempt k).stepsOf fun x => { x with failed := none }).rewind k)))

/-! ## Memory -/

/-- The memory sides (R239, R256, R271, R275, R278): each event, when it is due. -/
def Obligations.MemoryCommandsComplete : Prop :=
  ∀ s : State,
    (∀ w : Fin 16, s.is (MEM.WIN_STAT.OPEN w.val) = false →
      exec (.waitingAddRelease w) s = .next (s.after
        ((s.memside.waitAdds.filter (·.win == w.val)).foldl Mod.retryAdd
          (s.mside fun x => { x with waitAdds := x.waitAdds.filter (·.win != w.val) })))) ∧
    (∀ (st : Fin 8) (bank : Nat), s.inService st.val = true →
      exec (.hbmRefresh st bank) s = .next (s.after (s.mside fun x => { x with
        acts := terase (fun k => k / 512 == st.val && k % 16 == bank % 16) x.acts
        refreshed := tset (fun _ => 0) x.refreshed (64 * st.val + bank % 16)
          (tget (fun _ => 0) x.refreshed (64 * st.val + bank % 16) + 1) }))) ∧
    (∀ (st : Fin 8) (temp : Byte), s.inService st.val = true →
      exec (.hbmTempRead st temp) s = .next (s.after
        (s.sets [(MEM.STK_STAT.TEMP st.val, temp.toNat), (MEM.STK_STAT.HOT st.val, if 85 < temp.toNat then 1 else 0)]))) ∧
    (∀ (st : Fin 8) (j : RemapJob), s.memside.remaps.find? (·.stack == st.val) = some j →
      exec (.remapCopyDone st) s = .next (s.after
        (let p := placeOf (64 * j.unit)
         let lo := entryLo p j.gran j.cause
         let hi := entryHi p j.gran
         let m := s.mside fun x => { x with remaps := x.remaps.eraseP (· == j) }
         let m := (if j.gran = 1 then s.rowEntries p else []).foldl
           (fun m e => (m.wr (MPR.REMAP_LO.o (16 * st.val + e)) 0).wr (MPR.REMAP_HI.o (16 * st.val + e)) 0) m
         let m := (m.wr (MPR.REMAP_LO.o (16 * st.val + j.entry)) (BitVec.ofNat 32 lo)).wr (MPR.REMAP_HI.o (16 * st.val + j.entry))
           (BitVec.ofNat 32 hi)
         let m := m.hist 0x0B (128 + st.val) 2 0 0 (lo + 2 ^ 32 * hi)
         m.raiseMPR 4 (m.unitFields j.unit ++ [(MPR.EVT_INFO.ENTRY, j.entry)])))) ∧
    (∀ z dropped, s.is MPR.STAT.SCRUB_BUSY = true → s.budget 0 ≠ 0 → s.stacksRest = false →
      exec (.scrubSlice z dropped) s = .next (s.after (s.sliceRun z dropped))) ∧
    (∀ data f, s.memside.fetches.find? (fun f => f.sent && !f.lost) = some f →
      (∀ m, data.length = 2048 → s.store ⟨3, none, 3, 128⟩ (s.fetchBase f.target + f.off) data = (m, true) →
        exec (.blockFetchDone data) s = .next (s.after (m.fetchEnds f))) ∧
      (data.length ≠ 2048 → exec (.blockFetchDone data) s = .next (s.after (s.loseFetch f))))

/-! ## Ports -/

/-- Negotiation of a port (R288, R289, R290, R313). -/
def Obligations.NegotiationCommandsComplete : Prop :=
  ∀ (s : State) (p : Fin 8),
    (s.pstate p.val = pTRAINING → (s.port p.val).base = true →
      ((s.port p.val).caps = [] ∨ s.power.resonator = false →
        exec (.baseTrainingEnd p) s = .next (s.after (s.negFail p.val 6 0))) ∧
      (∀ c rest, (s.port p.val).caps = c :: rest → s.power.resonator = true →
        ((s.port p.val).caps.any fun d => !peerPortOk p.val (capsPort d.2) || capsId d.2 != capsId c.2) = false →
        (capsVersions c.2).testBit 0 = true →
        exec (.baseTrainingEnd p) s = .next (s.after
          (((s.onPort p.val fun x => { x with known := true }).sets
            [(LNK.PORT_STAT.PEER p.val, capsId c.2), (LNK.PORT_STAT.PEER_PORT p.val, capsPort c.2)]).nextCandidate p.val 0)))) ∧
    (∀ fibres : BitVec 4, s.pstate p.val = pTRAINING → (s.port p.val).base = false → (s.port p.val).rank ≠ 0 → s.power.resonator = true →
      (∀ r, (s.port p.val).peerReport = some r → r &&& fibres.toNat &&& (s.port p.val).fibres = (s.port p.val).fibres →
        let x := s.port p.val
        let t := (s.onPort p.val fun y => { y with capsOut := s.capsPayload p.val x.rank (fibres.toNat &&& x.fibres) }).enterUp p.val
        exec (.candidateQualifyEnd p fibres) s = .next (s.after (if t.pstate p.val = pUP then t.wiringCheck p.val else t))) ∧
      ((s.port p.val).peerReport = none → (s.port p.val).fibres ≠ 0 →
        let x := s.port p.val
        let t := (s.onPort p.val fun y => { y with
          capsOut := s.capsPayload p.val x.rank (fibres.toNat &&& x.fibres) }).nextCandidate p.val x.rank
        exec (.candidateQualifyEnd p fibres) s = .next (s.after (if t.pstate p.val = pUP then t.wiringCheck p.val else t))) ∧
      (∀ r, (s.port p.val).peerReport = some r → r &&& fibres.toNat &&& (s.port p.val).fibres ≠ (s.port p.val).fibres →
        let x := s.port p.val
        let both := r &&& fibres.toNat &&& x.fibres
        let t := (s.onPort p.val fun y => { y with
          capsOut := s.capsPayload p.val x.rank (fibres.toNat &&& x.fibres)
          passed := if both = 0 then y.passed else
            (y.passed.filter fun e => e.1 != (modeOf x.rank).2) ++ [((modeOf x.rank).2, both)] }).nextCandidate p.val x.rank
        exec (.candidateQualifyEnd p fibres) s = .next (s.after (if t.pstate p.val = pUP then t.wiringCheck p.val else t)))) ∧
    (s.pstate p.val = pDOWN → s.is (LNK.PORT_CTL.ENABLE p.val) = true → (s.port p.val).wiring = false → s.down (136 + p.val) = false →
      exec (.negotiationRestart p) s = .next (s.after (s.startBase p.val))) ∧
    (∀ (fibre : Fin 4) (b : List Byte), s.pstate p.val = pTRAINING → b.length = 16 → leNat (b.drop 8) = 0 →
      ((s.port p.val).base = true → capsRank b = 0 →
        exec (.caps p fibre b) s = .next (s.after (s.onPort p.val fun x => { x with
          live := x.live ||| 2 ^ fibre.val, caps := (x.caps.filter fun c => c.1 != fibre.val) ++ [(fibre.val, b)] }))) ∧
      ((s.port p.val).base = false → capsRank b = (s.port p.val).rank →
        exec (.caps p fibre b) s = .next (s.after (s.onPort p.val fun x => { x with peerReport := some (capsPass b) })))) ∧
    (∀ peer pp, (s.port p.val).reup = some (peer, pp) →
      exec (.linkLost p) s = .next (s.after
        (let up := s.pstate p.val == pUP
         let m := s.onPort p.val fun x => if up then { x with reup := none } else
           { x.restart with reup := none, lost := true, emptied := false, ready := [] }
         let m := m.raiseLNK 3 p.val peer
         let m := if p.val < 6 then
           ((if up then [] else (s.port p.val).ready).filter fun e => !(e.1.cls.toNat == 0 && e.1.info.toNat % 2 == 1)).foldl (fun m e => m.routeDrop e.1) m
           else m
         m.fault none 3)))

/-- Frames, link control units and heartbeats (R291 to R299, R306, R310, R312). -/
def Obligations.LinkCommandsComplete : Prop :=
  ∀ (s : State) (p : Fin 8),
    (∀ fseq units fcrc ce ue m ps, s.frameIn p.val fseq.toNat units fcrc ce ue = (m, ps) →
      exec (.frameReceive p fseq units fcrc ce ue) s = .next (s.after (m.receiveAll p.val ps))) ∧
    (s.lit = true → s.pstate p.val = pUP → (s.port p.val).resend = none →
      ((s.port p.val).fseq + 65536 - (s.port p.val).acked) % 65536 < 256 →
      exec (.frameSend p) s = .next (s.after
        (let x := s.port p.val
         let us := (x.stream ++ idleUnits).take 255
         (s.onPort p.val fun y => { y with
           stream := y.stream.drop 255, retry := y.retry ++ [(x.fseq, us)], fseq := (x.fseq + 1) % 65536 }).putFrame p.val x.fseq us))) ∧
    (∀ f, s.lit = true → s.pstate p.val = pUP → (s.port p.val).resend = some f →
      exec (.frameSend p) s = .next (s.after (s.resendFrame p.val f))) ∧
    (s.lit = true → s.pstate p.val = pFENCED →
      exec (.frameSend p) s = .next (s.after
        ((s.putFrame p.val (s.port p.val).fseq idleUnits).onPort p.val fun y => { y with
          fseq := ((s.port p.val).fseq + 1) % 65536 }))) ∧
    (∀ u, s.lit = true → s.pstate p.val = pUP →
      (lcuFence u = false → exec (.lcu p u) s = .next (s.after
        ((s.onPort p.val fun x => { x with peerFences := false }).lcuCounts p.val u))) ∧
      (lcuFence u = true → exec (.lcu p u) s = .next (s.after
        ((s.onPort p.val fun x => { x with peerFences := true }).peerFence p.val)))) ∧
    (∀ (c : Fin 8) g e, let reqs := (s.port p.val).sendRequests p.val
      s.pstate p.val = pUP → (s.port p.val).peerFences = false → (s.port p.val).fifoFull = false →
      s.grant (512 + p.val) reqs c.val = some g → (s.port p.val).sendable p.val g = some e →
      exec (.packetSend p c) s = .next (s.after
        ((((s.granted (512 + p.val) reqs g).onPort p.val fun x => { x with
          ready := x.ready.erase e, stream := x.stream ++ pktUnits e.1
          used := tset (fun _ => 0) x.used g ((tget (fun _ => 0) x.used g + pktSize e.1) % 65536) }).count
            (LNK.SN_TX_UNITS_LO.o p.val) (pktSize e.1)).progress (136 + p.val)))) ∧
    (s.pstate p.val = pUP →
      exec (.lcuTimeout p) s = .next (s.after
        (((s.onPort p.val fun x => { x with reup := some (s.peer p.val, s.peerPort p.val) }).enterDown p.val).raiseLNK 2 p.val
           (s.peer p.val)))) ∧
    (s.dup.dead = false →
      exec .heartbeatSend s = .next (s.after
        (let pay := leBytes 6 s.vine.step ++ leBytes 6 (checkedOut s.vine.checked) ++ leBytes 2 s.dup.hbNumber ++ leBytes 1 s.role ++ [0]
         ((List.range 8).foldl (fun m p =>
           if m.is (LNK.PORT_CTL.HB_EN p) && m.pstate p == pUP then
             m.sendOut p (m.peer p) (m.tagFor m.steps.oldest) clsCTRL 1 0 pay else m) s.toMod).dupOf fun d => { d with
             hbNumber := (s.dup.hbNumber + 1) % 65536 }))) ∧
    (s.is (LNK.PORT_CTL.HB_EN p.val) = true → (s.port p.val).hbSilent = false →
      exec (.hbMiss p) s = .next (s.after
        (let m := (s.onPort p.val fun x => { x with hbSilent := true }).raiseLNK 7 p.val (s.peer p.val)
         if p.val = m.pport then m.dupOf fun d => { d with signal := some 2 } else m)))

/-! ## Packets -/

/-- Fabric requests (R303, R459): a WRITE stores its bytes, or writes its registers word by word, and is acknowledged where it asks for
it; a READ is answered with READ_DATA. One whose address is not served or allowed, whose byte count is not, or that meets an
uncorrectable unit is answered with REFUSED and its reason. -/
def Obligations.RequestPacketsComplete : Prop :=
  ∀ (s : State) (port : Fin 8) (p : Pkt),
    (∀ m x, let q := asRow p 1 0
      s.handsOn port.val q m → m.fabricAddr (destOf q) (ioSpace (infoOf q)) (ioOffset (infoOf q)) (ioBytes q) = .inl x →
      (∀ m' m'', ioSpace (infoOf q) ≠ 2 → m.canRead (By.hub (some (tagOf q))) (m.writeStops x (ioBytes q)) = (m', true) →
        m'.store (By.hub (some (tagOf q))) x (writeBytes q) = (m'', true) →
        exec (.write port p) s = .next (s.after (if ioLast (infoOf q) then m''.respond q 0 q.seq.toNat [] else m''))) ∧
      (∀ m', ioSpace (infoOf q) ≠ 2 → m.canRead (By.hub (some (tagOf q))) (m.writeStops x (ioBytes q)) = (m', false) →
        exec (.write port p) s = .next (s.after (m'.respond q 2 (q.seq.toNat + 2 ^ 24 * 6) []))) ∧
      (ioSpace (infoOf q) = 2 →
        let m' := (m.regWrites (.fabric q.src (Fin.ofNat 9 port.val)) (regWords (x - regBase) (writeBytes q))).1
        exec (.write port p) s = .next (s.after (if ioLast (infoOf q) then m'.respond q 0 q.seq.toNat [] else m')))) ∧
    (∀ m r, let q := asRow p 1 0
      s.handsOn port.val q m → m.fabricAddr (destOf q) (ioSpace (infoOf q)) (ioOffset (infoOf q)) (ioBytes q) = .inr r →
      exec (.write port p) s = .next (s.after (m.respond q 2 (q.seq.toNat + 2 ^ 24 * r) []))) ∧
    (∀ m, let q := asRow p 1 1
      let n := payNat q 0 4
      s.handsOn port.val q m →
      (n = 0 ∨ 65536 < n → exec (.read port p) s = .next (s.after (m.respond q 2 (q.seq.toNat + 2 ^ 24 * 1) []))) ∧
      (∀ r, n ≠ 0 → n ≤ 65536 → m.fabricAddr (destOf q) (ioSpace (infoOf q)) (ioOffset (infoOf q)) n = .inr r →
        exec (.read port p) s = .next (s.after (m.respond q 2 (q.seq.toNat + 2 ^ 24 * r) []))) ∧
      (∀ x m', n ≠ 0 → n ≤ 65536 → m.fabricAddr (destOf q) (ioSpace (infoOf q)) (ioOffset (infoOf q)) n = .inl x →
        ioSpace (infoOf q) ≠ 2 → m.load (By.hub (some (tagOf q))) x n = (m', none) →
        exec (.read port p) s = .next (s.after (m'.respond q 2 (q.seq.toNat + 2 ^ 24 * 6) [])))) ∧
    (∀ m x, let q := asRow p 1 1
      let n := payNat q 0 4
      let data := fun (m : Mod) bs => (pieces 256 ((n + 255) / 256) bs).zipIdx.foldl
        (fun m y => m.respond q 1 (payNat q 4 4 + 2 ^ 32 * y.2) (padUnits (y.1.take 256))) m
      s.handsOn port.val q m → n ≠ 0 → n ≤ 65536 →
      m.fabricAddr (destOf q) (ioSpace (infoOf q)) (ioOffset (infoOf q)) n = .inl x →
      (∀ m' bs, ioSpace (infoOf q) ≠ 2 → m.load (By.hub (some (tagOf q))) x n = (m', some bs) →
        exec (.read port p) s = .next (s.after (data m' bs))) ∧
      (ioSpace (infoOf q) = 2 → exec (.read port p) s = .next (s.after (data m (m.regBytes (x - regBase) n)))))

/-- Requests of the host adapter on P7 of the bridge (R320, R335, R459, R460): a WRITE into the input window is recorded, written, copied
to the partner and acknowledged, at once where there is no partner; a READ is answered; a register access of the slice goes on into it
under the bridge's own id. Any other WRITE, a register access outside the slice (log entry 104) and a READ that may not be served are
refused. -/
def Obligations.HostRequestsComplete : Prop :=
  ∀ (s : State) (p : Pkt), s.pstate 7 = pUP → s.fetching_ = false → s.hostPort 7 = true → s.bridging = true →
    s.lateWarm p = false → s.is TST.CFG.MODE = false → s.memside.paths.contains 143 = false →
    let answer := fun (q : Pkt) (m : Mod) typ info pay => m.sendOut 7 (srcOf q) (tagOf q) clsRSP typ info pay
    (let q := asRow p 1 0
     let a := ioOffset (infoOf q)
     let n := ioBytes q
     let fits := ioSpace (infoOf q) = 0 ∧ destOf q = s.id ∧ q.len.toNat ≤ 15 ∧ s.inWindow a n = true ∧ s.inWork a n = true
     let k := s.localStep
     let pod : Pkt := { q with replay := false }
     let mine := fun (x : Segment) => x.step == k && !x.copy
     let recorded := if s.is LDG.CFG.ENABLE = true ∧ ¬(s.ledger.fullSteps.contains k && s.ledger.input.any fun x => mine x && x.unprot) = true then
         ((s.onInput (addPod mine ⟨k, s.tagFor k, s.id, false, false, false, []⟩ pod)).count LDG.SN_PODS_LO.o 1).count
           LDG.SN_POD_BYTES_LO.o (podBytes pod)
       else s.toMod
     let m := (recorded.store (By.hub (some (recorded.tagFor k))) a (writeBytes q)).1.progress 150
     pktOk q = true →
     (fits → m.dup.paired = false → exec (.write 7 p) s = .next (s.after (answer q m 0 q.seq.toNat []))) ∧
     (fits → m.dup.paired = true →
       let seq := tget (fun _ => 0) m.router.seqs (((m.id * 8192 + m.dup.peerId) * 65536 + m.tagFor k) * 8 + clsDUP)
       exec (.write 7 p) s = .next (s.after
         ((m.sendDup (m.tagFor k) 5 0 (pktBytes pod)).ldg fun l => { l with inputAcks := l.inputAcks ++ [(seq, q)] }))) ∧
     (¬fits → ioSpace (infoOf q) ≠ 2 → exec (.write 7 p) s = .next (s.after (answer q s.toMod 2 (q.seq.toNat + 2 ^ 24 * 1) [])))) ∧
    (let q := asRow p 1 1
     let n := payNat q 0 4
     pktOk q = true → ioSpace (infoOf q) ≠ 2 →
     (n = 0 ∨ 65536 < n → exec (.read 7 p) s = .next (s.after (answer q s.toMod 2 (q.seq.toNat + 2 ^ 24 * 1) []))) ∧
     (∀ r, n ≠ 0 → n ≤ 65536 → s.fabricAddr (destOf q) (ioSpace (infoOf q)) (ioOffset (infoOf q)) n = .inr r →
       exec (.read 7 p) s = .next (s.after (answer q s.toMod 2 (q.seq.toNat + 2 ^ 24 * r) []))) ∧
     (∀ x m bs, n ≠ 0 → n ≤ 65536 → s.fabricAddr (destOf q) (ioSpace (infoOf q)) (ioOffset (infoOf q)) n = .inl x →
       s.load (By.hub (some (tagOf q))) x n = (m, some bs) →
       exec (.read 7 p) s = .next (s.after ((pieces 256 ((n + 255) / 256) bs).zipIdx.foldl
         (fun m y => answer q m 1 (payNat q 4 4 + 2 ^ 32 * y.2) (padUnits (y.1.take 256))) m))) ∧
     (∀ x m, n ≠ 0 → n ≤ 65536 → s.fabricAddr (destOf q) (ioSpace (infoOf q)) (ioOffset (infoOf q)) n = .inl x →
       s.load (By.hub (some (tagOf q))) x n = (m, none) →
       exec (.read 7 p) s = .next (s.after (answer q m 2 (q.seq.toNat + 2 ^ 24 * 6) [])))) ∧
    (∀ cmd ∈ [(Instr.write 7 p, asRow p 1 0), (.read 7 p, asRow p 1 1)],
     let q := cmd.2
     pktOk q = true → ioSpace (infoOf q) = 2 →
     (s.inSlice (destOf q) = false → exec cmd.1 s = .next (s.after (answer q s.toMod 2 (q.seq.toNat + 2 ^ 24 * 1) []))) ∧
     (s.inSlice (destOf q) = true →
       let x := s.numbered s.id (destOf q) (s.tagFor s.steps.oldest) clsREQ q.typ.toNat (infoOf q) q.payload
       exec cmd.1 s = .next (s.after
         ((x.1.onPort 7 fun y => { y with relay := y.relay ++ [(x.2, q)] }).route x.2 none))))

/-- Responses (R302, R303, R176, R197): an ACK or READ_DATA answers the request that it names, a REFUSED ends it with its status; read data for
a Stalk granule that others still read waits. -/
def Obligations.ResponsePacketsComplete : Prop :=
  ∀ (s : State) (port : Fin 8) (p : Pkt) (m : Mod),
    (∀ r, let q := asRow p 2 0
      s.handsOn port.val q m → m.relayFor q = none →
      m.reqFor (fun r => r.dest == srcOf q && r.tag == tagOf q && r.seq == infoOf q % 2 ^ 24 && r.kind != 1 && r.kind != 3) = some r →
      exec (.ack port p) s = .next (s.after (m.answer r (covers r)))) ∧
    (∀ r, let q := asRow p 2 2
      s.handsOn port.val q m → m.relayFor q = none →
      m.reqFor (fun r => r.dest == srcOf q && r.tag == tagOf q && r.seq == infoOf q % 2 ^ 24 && r.kind != 3) = some r →
      (m.reqLate r = false → exec (.refused port p) s = .next (s.after
        (((m.noteStatus r.core r.q r.num (if infoOf q / 2 ^ 24 % 256 = 6 then 0x44 else 0x43)).readEnds r).answer r (covers r)))) ∧
      (m.reqLate r = true → exec (.refused port p) s = .next (s.after (m.answer r (covers r))))) ∧
    (∀ r, let q := asRow p 2 1
      s.handsOn port.val q m → m.relayFor q = none →
      m.reqFor (fun r => r.dest == srcOf q && r.tag == tagOf q && r.kind == 1 && r.seq == infoOf q % 2 ^ 32 % 2 ^ 24) = some r →
      let k := min r.bytes (min 256 q.payload.length)
      let land := r.land + 256 * (infoOf q / 2 ^ 32)
      let rest := fun (m : Mod) => ({ m with reqs := m.reqs.map fun x => if x = r then { r with bytes := r.bytes - k } else x } : Mod)
      let n := m.count (CORE.SN_DMA_BYTES_LO.o r.core) k
      let piece := [(fabLocal land, (q.payload.take k).length)]
      (∀ d m', m.reqLate r = false → (m.queue r.core r.q).taken.find? (·.num == r.num) = some d → m.byPacket land = false →
        n.stalkHeld r.core r.q d piece = false →
        (n.fillGranules d.tag piece).store (By.core r.core d.tag) (fabLocal land) (q.payload.take k) = (m', true) →
        exec (.readData port p) s = .next (s.after (if r.bytes ≤ k then (m'.readEnds r).answer r (· == r) else rest m'))) ∧
      (∀ d, m.reqLate r = false → (m.queue r.core r.q).taken.find? (·.num == r.num) = some d → m.byPacket land = false →
        n.stalkHeld r.core r.q d piece = true →
        let m' : Mod := { n with heldWrites := n.heldWrites ++ [⟨r.core, r.q, d.num, land, q.payload.take k, true⟩] }
        exec (.readData port p) s = .next (s.after (if r.bytes ≤ k then (m'.readEnds r).answer r (· == r) else rest m'))) ∧
      (∀ d, m.reqLate r = false → (m.queue r.core r.q).taken.find? (·.num == r.num) = some d → m.byPacket land = true →
        d.stopped = false →
        let m' := n.queueWrites r.core r.q d ((q.payload.take k).length + 1) land (q.payload.take k)
        exec (.readData port p) s = .next (s.after (if r.bytes ≤ k then (m'.readEnds r).answer r (· == r) else rest m'))) ∧
      (m.reqLate r = true → exec (.readData port p) s = .next (s.after
        (if r.bytes ≤ k then m.answer r (· == r) else (rest m).replyLate r.core))))

/-- Control packets (R306, R308, R309, R321, R538). -/
def Obligations.ControlPacketsComplete : Prop :=
  ∀ (s : State) (port : Fin 8) (p : Pkt), s.pstate port.val = pUP → s.fetching_ = false → s.is TST.CFG.MODE = false →
    s.memside.paths.contains (136 + port.val) = false →
    (let q := asRow p 0 1
     pktOk q = true → exec (.heartbeat port p) s = .next (s.after
       (let m := (s.set (LNK.HB_LAST.COUNT port.val) (payNat q 12 2)).count (LNK.SN_HB_RX_LO.o port.val) 1
        let m := m.onPort port.val fun x => { x with hbSilent := false }
        if port.val = m.pport then m.dupOf fun d => { d with peerRole := payNat q 14 1 % 8 } else m))) ∧
    (∀ m, let q := asRow p 0 2
     pktOk q = true → s.enterAlias (payNat q 0 2 % 8192) (payNat q 2 2 % 8192) (payNat q 4 6) (payNat q 10 2) = (m, true) →
       exec (.aliasPkt port p) s = .next (s.after (m.broadcast q (some port.val)))) ∧
    (let q := asRow p 0 3
     pktOk q = true →
       (s.mine (destOf q) = true → payNat q 0 2 % 8192 ≠ s.id →
         exec (.fence port p) s = .next (s.after (s.takeFence port.val q))) ∧
       (s.mine (destOf q) = true → payNat q 0 2 % 8192 = s.id →
         exec (.fence port p) s = .next (s.after ((s.takeFence port.val q).warmCause 5 255))) ∧
       (s.mine (destOf q) = false → exec (.fence port p) s = .next (s.after (s.forward q (cameOn port.val))))) ∧
    (let q := asRow p 0 5
     pktOk q = true →
       (s.mine (destOf q) = true → s.dup.takeover ≠ none → payNat q 0 2 % 8192 = s.dup.peerId →
         exec (.fenceAck port p) s = .next (s.after (s.dupOf fun d => { d with awaiting := d.awaiting.filter (· != srcOf q) }))) ∧
       (s.mine (destOf q) = false → exec (.fenceAck port p) s = .next (s.after (s.forward q (cameOn port.val))))) ∧
    (let q := asRow p 0 6
     let j := payNat q 0 6
     pktOk q = true → s.steps.oldest ≤ j → s.tagFor j = payNat q 6 2 → (s.steps.failed.any fun f => f.1 == j) = false →
       exec (.fault port p) s = .next (s.after ((s.broadcast q (some port.val)).takeFault q)))

/-- Packets of the collectives, Fennel and the squash adders (R152, R153, R253, R329, R330, R334). -/
def Obligations.CollectivePacketsComplete : Prop :=
  ∀ (s : State) (port : Fin 8) (p : Pkt) (m : Mod),
    (∀ cmd ∈ [(Instr.rs port p, asRow p 3 0), (.ag port p, asRow p 3 1)],
      s.handsOn port.val cmd.2 m →
      let e := m.collPeek m.collCur
      (∀ kind a, m.collJudge e cmd.2 = 0 → (m.collPhases e)[m.coll.phase]? = some (kind, a) →
        exec cmd.1 s = .next (s.after
          (let t := m.collUnit e kind a port.val cmd.2
           Mod.collDrain t.coll.early.length t))) ∧
      (m.collJudge e cmd.2 = 1 →
        exec cmd.1 s = .next (s.after (m.collOf fun c => { c with early := c.early ++ [(port.val, cmd.2)] }))) ∧
      (m.collJudge e cmd.2 = 2 → exec cmd.1 s = .next (s.after m)) ∧
      (m.collJudge e cmd.2 = 3 → exec cmd.1 s = .next (s.after (m.collFail 3 (srcOf cmd.2) port.val)))) ∧
    (let q := asRow p 3 2
     s.handsOn port.val q m →
     (m.coll.smalls.contains (infoOf q % 16, srcOf q, tagOf q, q.payload) = false → exec (.small port p) s = .next (s.after
       ((m.collOf fun c => { c with smalls := c.smalls ++ [(infoOf q % 16, srcOf q, tagOf q, q.payload)] }).progress 145))) ∧
     (m.coll.smalls.contains (infoOf q % 16, srcOf q, tagOf q, q.payload) = true → exec (.small port p) s = .next (s.after m))) ∧
    (let q := asRow p 4 0
     let h := rowHdr q
     s.handsOn port.val q m → m.is FEN.CFG.ENABLE = true → rowHdrOk h = true →
     m.fen.done.contains (m.tagStep (tagOf q), destOf q, rowOp h, rowLayer h, rowMb h) = false →
     (∀ o, m.rowTarget q = some o → o.scanned = true → exec (.row port p) s = .next (s.after (m.rowFor o q))) ∧
     ((m.rowTarget q).any FenOp.scanned = false → exec (.row port p) s = .next (s.after
       ((m.fenOf fun f => { f with early := f.early ++ [(port.val, q)] }).count FEN.SN_EARLY_LO.o 1)))) ∧
    (let q := asRow p 4 0
     let h := rowHdr q
     s.handsOn port.val q m →
     (m.is FEN.CFG.ENABLE = false ∨ rowHdrOk h = false ∨
       m.fen.done.contains (m.tagStep (tagOf q), destOf q, rowOp h, rowLayer h, rowMb h) = true) →
     exec (.row port p) s = .next (s.after (m.refuseRow q))) ∧
    (∀ r, let q := asRow p 5 0
     let fmt := addFmt (infoOf q)
     let n := addCount (infoOf q) * elemWidth fmt
     s.handsOn port.val q m →
     (m.servedAt (destOf q) (8 * addElem (infoOf q)) n = none → exec (.add port p) s = .next (s.after (m.refuseAdd q 1))) ∧
     (∀ a, m.servedAt (destOf q) (8 * addElem (infoOf q)) n = some a → m.addWindow a n fmt = .inr r →
       exec (.add port p) s = .next (s.after (m.refuseAdd q r)))) ∧
    (∀ a w m₁ m₂, let q := asRow p 5 0
     let fmt := addFmt (infoOf q)
     let cnt := addCount (infoOf q)
     s.handsOn port.val q m → m.servedAt (destOf q) (8 * addElem (infoOf q)) (cnt * elemWidth fmt) = some a →
     m.addWindow a (cnt * elemWidth fmt) fmt = .inl w →
     (m.addAdmission w (tagOf q) = (m₁, 0) →
       m₁.applyAdds (By.hub (some (tagOf q))) w fmt
         (((pieces (addWidth fmt) cnt q.payload).zipIdx).map fun x => (a + x.2 * elemWidth fmt, leNat x.1)) = (m₂, true) →
       exec (.add port p) s = .next (s.after (if addLast (infoOf q) then m₂.sendAck q else m₂))) ∧
     (m.addAdmission w (tagOf q) = (m₁, 0) →
       m₁.applyAdds (By.hub (some (tagOf q))) w fmt
         (((pieces (addWidth fmt) cnt q.payload).zipIdx).map fun x => (a + x.2 * elemWidth fmt, leNat x.1)) = (m₂, false) →
       exec (.add port p) s = .next (s.after (m₂.sendRefused q 6))) ∧
     (m.addAdmission w (tagOf q) = (m₁, 1) → exec (.add port p) s = .next (s.after ((m₁.lateAdds w cnt).sendRefused q 5))) ∧
     (m.addAdmission w (tagOf q) = (m₁, 2) →
       exec (.add port p) s = .next (s.after (m₁.mside fun x => { x with
         waitAdds := x.waitAdds ++ [⟨w, 0, 0, some (port.val, q), stackOf a / 4,
           (List.range 8).filter fun i => stackUnits i a (cnt * elemWidth fmt) != 0, tagOf q⟩] }))))

/-- Packets of the Vine (R337, R339). -/
def Obligations.VinePacketsComplete : Prop :=
  ∀ (s : State) (port : Fin 8) (p : Pkt), s.vineOn = true →
    (∀ t2 t3 : DWord, s.admits port.val (syncRow p 0) = true →
      exec (.vineSyncReq port p t2 t3) s = .next (s.after
        ((s.vineSend port.val (srcOf (syncRow p 0)) 3 1 (leBytes 8 t2.toNat ++ leBytes 8 t3.toNat)).progress 149))) ∧
    (∀ (t4 : DWord) t1, let q := syncRow p 1
      s.admits port.val q = true → s.vine.t1 = some t1 →
      exec (.vineSyncResp port p t4) s = .next (s.after
        (let d := vineDelta t1 (payNat q 0 8) (payNat q 8 8) t4.toNat
         let m := s.vineOf fun v => { v with
           t1 := none, time := v.time + BitVec.ofInt 64 (d.tdiv 2), rate := Config.rateTrend v.rate d }
         (((m.lset VIN.SN_CORR.o (BitVec.ofInt 32 (d * 500)).toNat).count VIN.SN_SYNC_LO.o 1).vineLock).progress 149))) ∧
    (∀ m, let q := asRow p 3 4
      s.handsOn port.val q m → m.vineOn = true → m.children.contains port.val = true →
      exec (.vineUp port p) s = .next (s.after
        ((m.vineOf fun v => { v with
          below := (v.below.filter (·.1 != port.val)) ++ [(port.val, payNat q 0 6, checkedIn (payNat q 6 6))] }).progress 149))) ∧
    (∀ m, let q := asRow p 3 5
      s.handsOn port.val q m → m.vineOn = true →
      exec (.vineAnn port p) s = .next (s.after
        (let x := payNat q 0 6
         let c := checkedIn (payNat q 6 6)
         let t := payNat q 16 8
         ((m.vineOf fun v => { v with anns := v.anns ++ [(x, c, t)] }).sendAnn x c t (some port.val)).progress 149)))

/-- Packets between the modules of a pair (R216, R347 to R350, R360, R370, R380, R384). -/
def Obligations.DuplexPacketsComplete : Prop :=
  ∀ (s : State) (port : Fin 8) (p : Pkt) (m : Mod),
    (let q := asRow p 6 0
     let peer := payNat q 0 2 % 8192
     let r := payNat q 6 1 % 8
     let fill := (m.role == 2 && r == 0) || (r == 2 && m.role == 0)
     let fresh := m.dup.paired = false
     s.handsOn port.val q m → m.is DUP.CFG.ENABLE = true → port.val = m.pport →
     (m.pairReason q = 0 → exec (.pair port p) s = .next (s.after
       (let t := m.dupOf fun d => { d with
          paired := true, peerRole := r, peerId := peer, cmpFrom := if fill = true ∧ fresh then some (2 ^ 48) else d.cmpFrom }
        let t := if fresh ∧ r = 2 ∧ t.role ≠ 1 then t.stepsOf fun x => { x with oldest := checkedIn (payNat q 12 6) } else t
        let t := if t.dup.swapping = true ∧ fresh ∧ t.dup.rm = 0 ∧ t.dup.swapAt.isNone = true ∧ r ≠ 2 then t.startFill 1 else t
        let t := if t.role = 0 ∧ r = 2 then t.dupOf fun d => { d with swapping := true } else t
        let t := (t.raiseDUP 1 peer 0 0).progress 151
        if fresh ∧ m.dup.pairSent = true ∧ (m.dup.pairBad = true ∨ r = 2) then t.sendPair else t))) ∧
     (m.pairReason q ≠ 0 → exec (.pair port p) s = .next (s.after
       ((m.dupOf fun d => { d with paired := false, pairBad := true }).raiseDUP 2 peer (m.pairReason q) 0)))) ∧
    (let q := asRow p 6 1
     let e := m.collPeek (infoOf q % 2 ^ 16)
     let off := 256 * (infoOf q / 2 ^ 18)
     let bs := q.payload.take (4 * e.chunk - off)
     s.handsOn port.val q m → e.partner = true → off < 4 * e.chunk → m.inWork (e.pdst + off) bs.length = true →
     exec (.shard port p) s = .next (s.after
       (let j := infoOf q % 2 ^ 16
        let t := (m.store (By.hub (some (tagOf q))) (e.pdst + off) bs).1
        let got := t.shardUnits (tagOf q) j + 1
        let t := (t.collOf fun c => { c with
          shardGot := (c.shardGot.filter fun x => !(x.1 == tagOf q && x.2.1 == j)) ++ [(tagOf q, j, got)] }).sendDup
            (tagOf q) 4 (1 + 16 * q.seq.toNat) []
        let k := t.tagStep (tagOf q)
        if got = (4 * e.chunk + 255) / 256 ∧ !t.upd.shards.contains (k, j, 1) then
          ({ t with upd := { t.upd with shards := t.upd.shards ++ [(k, j, 1)] } } : Mod).shardReport k
        else t))) ∧
    (let q := asRow p 6 2
     let k := payNat q 0 6
     let again := payNat q 40 1 % 2 == 1
     s.handsOn port.val q m → m.is DUP.CFG.ENABLE = true → m.dup.paired = true → m.steps.oldest ≤ k →
     exec (.digest port p) s = .next (s.after
       (let t := m.dupOf fun x => { x with
          digests := (x.digests.filter fun y => !(y.step == k && y.recheck == again)) ++
            [⟨k, payNat q 6 2, payNat q 8 16, payNat q 24 16, again⟩] }
        if again ∧ !t.dup.recheck ∧ k = t.steps.oldest ∧ t.healthDone k then
          ((t.dupOf fun x => { x with recheck := true, sentDigest := false }).count DUP.SN_RECHECK_LO.o 1).progress 151
        else t.progress 151))) ∧
    (let q := asRow p 6 3
     s.handsOn port.val q m → m.dup.paired = true →
     exec (.tw port p) s = .next (s.after
       (let w : TableWrite := ⟨payNat q 0 6, payNat q 6 1, payNat q 8 2, payNat q 10 4,
          (List.range 4).map fun i => BitVec.ofNat 32 (payNat q (16 + 4 * i) 4), infoOf q % 65536, true, true⟩
        (m.updOf fun u => { u with writes := (u.writes.filter fun x => !x.same w) ++ [w] }).sendDup (tagOf q) 4
          (3 + 16 * q.seq.toNat) []))) ∧
    (∀ x, let q := asRow p 6 4
     let n := infoOf q / 16 % 2 ^ 24
     s.handsOn port.val q m →
     (infoOf q % 16 = 1 → exec (.dupAck port p) s = .next (s.after m.ackShard)) ∧
     (infoOf q % 16 = 5 → exec (.dupAck port p) s = .next (s.after (m.ackHost n))) ∧
     (infoOf q % 16 = 3 → m.dup.acks.find? (fun a => a.1 == n) = some (n, x) →
       exec (.dupAck port p) s = .next (s.after
         ((m.dupOf fun d => { d with acks := d.acks.filter (·.1 != n) }).updOf fun u => { u with
           writes := u.writes.map fun w => if w.number = x ∧ !w.mirror then { w with acked := true } else w })))) ∧
    (let q := asRow p 6 5
     let pod := { pktOfBytes q.payload with replay := false }
     let k := m.tagStep (tagOf q)
     let mine := fun (x : Segment) => x.step == k && x.copy
     let fresh : Segment := ⟨k, tagOf q, m.dup.peerId, false, true, false, []⟩
     s.handsOn port.val q m → m.dup.paired = true → m.is LDG.CFG.ENABLE = true →
     ¬(m.ledger.fullSteps.contains k = true ∧ m.ledger.input.any (fun x => mine x && x.unprot) = true) →
     let room := ringUsed m.ledger.input + (podBytes pod + (if m.ledger.input.any mine then 0 else 64)) ≤ m.inRing
     (room → exec (.podCopy port p) s = .next (s.after
       ((((m.onInput (addPod mine fresh pod)).count LDG.SN_PODS_LO.o 1).count LDG.SN_POD_BYTES_LO.o (podBytes pod)).sendDup (tagOf q) 4
         (5 + 16 * q.seq.toNat) []))) ∧
     (¬room → exec (.podCopy port p) s = .next (s.after
       ((((m.onInput (markUnprot mine fresh)).countUnprot m).ledgerFull k).sendDup (tagOf q) 4 (5 + 16 * q.seq.toNat) [])))) ∧
    (let q := asRow p 6 6
     let o := 16 * bits (infoOf q) 35 2
     let kind := m.fillKind (infoOf q % 2)
     s.handsOn port.val q m → m.dup.paired = true → o + q.payload.length ≤ m.sizeS →
     ((infoOf q).testBit 1 = true → exec (.rmData port p) s = .next (s.after (m.fetchReply (tagOf q) (infoOf q % 2) o q.payload))) ∧
     ((infoOf q).testBit 1 = false → kind = 4 → m.is UPD.CFG.ENABLE = true → exec (.rmData port p) s = .next (s.after m)) ∧
     ((infoOf q).testBit 1 = false → (kind ≠ 4 ∨ m.is UPD.CFG.ENABLE = false) →
       ∀ t, (m.fillStarts kind).store ⟨3, none, 3, 128⟩ ((m.fillStarts kind).fetchBase (infoOf q % 2) + o) q.payload = (t, true) →
       let t := t.dupOf fun d => { d with rmGot := joinRange d.rmGot (infoOf q % 2, o, o + q.payload.length) }
       let got := gotBytes t.dup.rmGot
       let t := (t.set DUP.RM_STAT.UNITS (got / 4096)).progress 151
       let t := if kind = 3 ∧ infoOf q % 2 = 0 ∧ !t.upd.running ∧ t.steps.six = [] then t.setStepRegs (t.tagStep (tagOf q)) 0 else t
       exec (.rmData port p) s = .next (s.after
         (if got = (if kind = 3 then 2 * t.sizeS else t.sizeS) then t.fillDone kind (t.updatesOf (tagOf q)) else t)))) ∧
    (let q := asRow p 6 7
     s.handsOn port.val q m → m.dup.paired = true →
     exec (.rmReq port p) s = .next (s.after
       (m.dupOf fun d => { d with replies := d.replies ++ [(payNat q 0 1 % 2, payNat q 8 6, tagOf q)] }))) ∧
    (let q := asRow p 6 8
     s.handsOn port.val q m → m.is DUP.CFG.ENABLE = true → m.dup.dead = false → m.down 151 = false →
     exec (.probe port p) s = .next (s.after (m.sendTo (srcOf q) (tagOf q) clsDUP 9 0 []))) ∧
    (∀ c, let q := asRow p 6 9
     s.handsOn port.val q m → m.dup.probing = some c → srcOf q = m.dup.peerId →
     exec (.probeReply port p) s = .next (s.after
       (((m.dupOf fun d => { d with probing := none }).set DUP.ROLE.DETOUR 1).detourWaiting.raiseDUP 4 m.dup.peerId c m.steps.oldest)))

/-- Packets of the checkpoint engine (R396, R399, R405, R408, R409). -/
def Obligations.CheckpointPacketsComplete : Prop :=
  ∀ (s : State) (port : Fin 8) (p : Pkt) (m : Mod),
    (∀ m' bs, let q := asRow p 7 0
     let c := infoOf q % 2 ^ 32
     let n := payNat q 0 4
     let o := stripeOf m.gpos (payNat q 4 1 % 8) * m.stripe + n * sliceLen
     let t := m.readManifests
     s.handsOn port.val q m → m.down 148 = false → t.pullReady c = true → n < t.sliceCount →
     t.is (BLB.GEN_STAT.DAMAGED (c % 2)) = false →
     (t.extent ≤ o → exec (.pull port p) s = .next (s.after (t.ckptSend (srcOf q) 2 (dataInfo t.id c 0 o) []))) ∧
     (o < t.extent → t.load byCkpt (t.genBase c + o) (min sliceLen (t.extent - o)) = (m', some bs) →
       exec (.pull port p) s = .next (s.after ((m'.sendParts (srcOf q) 1 m'.id c 0 o bs).progress 148))) ∧
     (o < t.extent → t.load byCkpt (t.genBase c + o) (min sliceLen (t.extent - o)) = (m', none) →
       exec (.pull port p) s = .next (s.after (m'.ckptSend (srcOf q) 3 (c + 2 ^ 32) [])))) ∧
    (let q := asRow p 7 0
     let c := infoOf q % 2 ^ 32
     let t := m.readManifests
     let ready := t.pullReady c = true ∧ payNat q 0 4 < t.sliceCount
     s.handsOn port.val q m → m.down 148 = false →
     (¬ready → exec (.pull port p) s = .next (s.after (t.ckptSend (srcOf q) 3 c []))) ∧
     (ready → t.is (BLB.GEN_STAT.DAMAGED (c % 2)) = true →
       exec (.pull port p) s = .next (s.after (t.ckptSend (srcOf q) 3 (c + 2 ^ 32) [])))) ∧
    (let q := asRow p 7 1
     let own := infoModule (infoOf q) = m.id
     let rebuilt := m.isRebuilt = true ∧ infoArea (infoOf q) = 0 ∧ infoGen (infoOf q) = m.ckpt.cand.getD 0 % 2
     s.handsOn port.val q m →
     (∀ t, own → rebuilt → infoOff (infoOf q) + q.payload.length ≤ m.extent →
       m.store byCkpt (m.genBase (infoGen (infoOf q)) + infoOff (infoOf q)) q.payload = (t, true) →
       exec (.part port p) s = .next (s.after
         (t.ckptOf fun x => { x with rebuilt := joinRange x.rebuilt (0, infoOff (infoOf q), infoOff (infoOf q) + q.payload.length) }))) ∧
     (own → ¬rebuilt → exec (.part port p) s = .next (s.after (m.protoError q))) ∧
     (¬own → exec (.part port p) s = .next (s.after
       (m.sliceAnswer q m.extent fun pos o x => { x with parts := x.parts ++ [(pos, o, q.payload)] })))) ∧
    (let q := asRow p 7 2
     s.handsOn port.val q m →
     exec (.zero port p) s = .next (s.after (m.sliceAnswer q (8 * m.stripe) fun pos _ x => { x with zeros := x.zeros ++ [pos] }))) ∧
    (∀ pos x, let q := asRow p 7 3
     s.handsOn port.val q m → m.posOf (srcOf q) = some pos →
     m.ckpt.slices.find? (fun x => m.sliceC x == infoOf q % 2 ^ 32 && !x.zeros.contains pos && !x.parts.any (·.1 == pos)) = some x →
     exec (.notReady port p) s = .next (s.after
       (let t := (m.ckptOf fun y => { y with slices := y.slices.filter (·.n != x.n) }).count BLB.SN_SLICE_RETRY_LO.o 1
        if (infoOf q).testBit 32 then (if x.rebuild then t.restoreFail else t.voteCommit false) else t))) ∧
    (let q := asRow p 7 4
     let k := 8 * (infoOf q % 2 ^ 32) + payNat q 48 1 % 8
     s.handsOn port.val q m → m.is BLB.CFG.ENABLE = true →
     (m.ckpt.order = 0 ∨ infoOf q % 2 ^ 32 ≠ m.ckpt.c ∨ m.ckpt.step < m.tagStep (tagOf q)) →
     exec (.sha port p) s = .next (s.after
       (m.ckptOf fun x => { x with shas := (x.shas.filter (·.1 != k)) ++ [(k, m.tagStep (tagOf q), q.payload.take 48)] }))) ∧
    (let q := asRow p 7 5
     s.handsOn port.val q m → m.bridging = true →
     exec (.exportPkt port p) s = .next (s.after (m.sendOut 7 (m.peer 7) (tagOf q) clsCKPT 5 (infoOf q) q.payload))) ∧
    (∀ t, let q := asRow p 7 6
     let i := infoOf q
     s.handsOn port.val q m → port.val ≠ 7 → m.ckptPhase = 6 → infoModule i = m.id → infoGen i = m.f BLB.STAT.GEN → infoArea i = 0 →
     infoOff i + q.payload.length ≤ m.extent →
     m.store byCkpt (m.genBase (infoGen i) + infoOff i) q.payload = (t, true) →
     exec (.importPkt port p) s = .next (s.after (t.progress 148)))

/-! ## Events of the collectives, the Vine, the pair and checkpoints -/

/-- The collectives engine and the Vine (R332, R337, R338, R339). -/
def Obligations.CollectiveAndVineEventsComplete : Prop :=
  ∀ s : State,
    (∀ m₁ m₂ m₃ e w bs, s.collRuns = true → s.coll.started = false → s.steps.rerun = none →
      s.collMark.inWork (s.collMark.collProg + 64 * s.collMark.collCur) 64 = true →
      s.collMark.collRead s.collMark.collCur = (m₁, some e) → m₁.collCheck e = 0 →
      m₁.loadNat (By.hub (some s.collMark.coll.tag)) e.waitAddr 4 = (m₂, some w) →
      (w + 2 ^ 32 - (e.waitVal + m₂.coll.iter * e.waitInc) % 2 ^ 32) % 2 ^ 32 < 2 ^ 31 →
      m₂.load (By.hub (some s.collMark.coll.tag)) e.src (m₂.srcBytes e) = (m₃, some bs) →
      exec .collWaitPoll s = .next (s.after (m₃.collStart e bs))) ∧
    (s.collRuns = true → s.coll.started = true → (s.collPhases (s.collPeek s.collCur)).length ≤ s.coll.phase →
      s.coll.partnerAck = 0 → exec .collEntryDone s = .next (s.after s.entryEnds)) ∧
    (∀ t1 : DWord, s.vineOn = true →
      (s.noteParent.isRoot = true → exec (.vineSyncTimer t1) s = .next (s.after s.noteParent.vineLock)) ∧
      (∀ p id, s.noteParent.isRoot = false → s.noteParent.parentOf s.noteParent.id = some (p, id) → s.noteParent.pstate p = pUP →
        exec (.vineSyncTimer t1) s = .next (s.after
          ((s.noteParent.vineOf fun v => { v with t1 := some t1.toNat }).vineSend p id 3 0 (List.replicate 16 0))))) ∧
    (s.is VIN.CFG.ENABLE = true → s.down 149 = false →
      exec .holdover s = .next (s.after ((s.sets [(VIN.STAT.HOLDOVER, 1), (VIN.STAT.LOCKED, 0)]).raiseVIN 2))) ∧
    (s.vineOn = true → s.isRoot = false → exec .vineUpTimer s = .next (s.after s.sendUp)) ∧
    (∀ x c t rest, s.vine.anns = (x, c, t) :: rest →
      let m := if s.ckpt.order = 0 then s.ckptOf fun y => { y with tag := s.tagFor (x - 1) } else s.toMod
      let m := (m.vineOf fun v => { v with anns := rest }).boundary x c
      exec .stepBoundary s = .next (s.after (if s.vine.step < x then m.submitStart x t else m)))

/-- Events of a pair (R350, R370, R371, R380). -/
def Obligations.DuplexEventsComplete : Prop :=
  ∀ s : State,
    (∀ m mem, s.dup.recheck = true → s.dup.sentDigest = false → s.fetching 0 [(0, s.extent)] = false →
      s.fetching 1 [(0, s.extent)] = false →
      s.see ⟨3, some (s.tagFor s.upd.step), 1, 128⟩ [(0, s.extent), (s.regionBase 2, s.extent)] = (m, mem, true) →
      exec .recheckDone s = .next (s.after
        (let m := m.updOf fun u => { u with
           digOwn := regionDigest mem 0 s.extent, digMir := regionDigest mem (s.regionBase 2) s.extent }
         ((m.showDigests).sendDigest true).dupOf fun d => { d with sentDigest := true }))) ∧
    (∀ t o n m bs, s.dup.paired = true → (s.dup.rm = 1 ∨ s.dup.rm = 2) → planAt (s.fillPlan s.dup.rm) s.dup.rmUnit = some (t, o, n) →
      s.load ⟨3, none, 3, 128⟩ (s.fetchBase (1 - t) + o) n = (m, some bs) →
      exec .rmSend s = .next (s.after
        (let m := m.sendDup (m.blockTag (1 - t)) 6 (t + 4 * (o / 16)) bs
         let u := m.dup.rmUnit + 1
         let m := (m.dupOf fun d => { d with rmUnit := u }).count DUP.SN_RM_BYTES_LO.o n
         let m := (m.set DUP.RM_STAT.UNITS (planBytes (m.fillPlan m.dup.rm) u / 4096)).progress 151
         if (planAt (m.fillPlan m.dup.rm) u).isNone then m.fillDone m.dup.rm (m.updates (1 - t)) else m))) ∧
    (∀ cause, s.dup.probing = some cause →
      let m := s.dupOf fun d => { d with probing := none }
      (s.role = 1 → s.is DUP.ROLE.ARMED = true →
        exec .probeWaitExpiry s = .next (s.after
          (m.fencePartner.dupOf fun d => { d with takeover := some cause, awaiting := m.facing s.dup.peerId }))) ∧
      (s.role = 2 → (s.dup.swapping = true ∨ s.dup.rm ≠ 0) → exec .probeWaitExpiry s = .next (s.after m.fillFails.partnerGone)) ∧
      ((s.role = 2 → s.dup.swapping = false ∧ s.dup.rm = 0) → (s.role = 1 → s.is DUP.ROLE.ARMED = false) →
        exec .probeWaitExpiry s = .next (s.after (m.doubleLoss cause)))) ∧
    (∀ cause e, s.dup.takeover = some cause →
      (List.range 32).find? (fun e => !s.becomeSolo.is (TOR.AL_ID.VALID e)) = some e →
      exec .fenceAckWaitExpiry s = .next (s.after
        (let m := s.becomeSolo
         let ep := m.f DUP.TKO_EPOCH.EPOCH
         let k := s.steps.oldest
         let m := (m.setAlias e s.dup.peerId m.id k ep).bridgeLost s.dup.peerId
         let t := ((m.holeSetChange s.dup.peerId m.id).aliasOut s.dup.peerId m.id k ep).raiseDUP 3 s.dup.peerId cause k
         m.dup.later.foldl (fun t e => t.holeSetChange e.1 e.2) (t.dupOf fun d => { d with later := [] }))))

/-- Events of the checkpoint engine (R395 to R399, R404, R406, R407). -/
def Obligations.CheckpointEventsComplete : Prop :=
  ∀ s : State,
    (∀ b l, s.ckpt.awaitStart = some b → s.gathered kStart b = some l →
      let c := maxAll (column l 0) + 1
      let m := (s.smallTaken kStart b).ckptOf fun x => { x with awaitStart := none }
      let start : Instr := .ckptStartResult (BitVec.ofNat 32 c) (orAll (column l 1) != 0) (orAll (column l 2) != 0)
        (orAll (column l 3) != 0) (orAll (column l 4) != 0)
      let wanted := orAll (column l 1) ≠ 0 ∧ s.sliceSize % 8 = 0
      (¬wanted → exec start s = .next (s.after m)) ∧
      (wanted → orAll (column l 2) = 0 → orAll (column l (3 + c % 2)) = 0 → exec start s = .next (s.after (m.startCkpt c b))) ∧
      (wanted → orAll (column l 2) = 0 → orAll (column l (3 + c % 2)) ≠ 0 →
        exec start s = .next (s.after (m.deferCkpt c 3 (b - 1)))) ∧
      (wanted → orAll (column l 2) ≠ 0 → s.ckpt.word.2.2.1 ≠ 0 →
        exec start s = .next (s.after (m.deferCkpt c s.ckpt.word.2.2.1 (b - 1)))) ∧
      (wanted → orAll (column l 2) ≠ 0 → s.ckpt.word.2.2.1 = 0 →
        ∃ why ∈ [1, 2, 4], exec start s = .next (s.after
          (({ m with free := m.free + 1 } : Mod).deferCkpt c why (b - 1))))) ∧
    (s.ckpt.order = 2 → s.ckptPhase = 1 → s.ckpt.step < s.steps.oldest →
      exec .ckptCopyStart s = .next (s.after (s.set BLB.STAT.PHASE 2))) ∧
    (s.ckpt.order = 2 → s.ckptPhase = 2 → s.copyState.extent ≤ s.copyState.ckpt.copyPos →
      (∀ m mem, s.copyState.readGen s.copyState.ckpt.c false = (m, mem, true) → exec .ckptCopyDone s = .next (s.after
        (let d := shardDigest (m.genBytes mem m.ckpt.c)
         let m := m.ckptOf fun x => { x with order := 4, shas := x.shas ++ [(8 * x.c + m.gpos, m.steps.oldest, d)] }
         let m := (m.set BLB.STAT.PHASE 3).progress 148
         m.others.foldl (fun m p => m.ckptSend (m.member p) 4 m.ckpt.c (d ++ leBytes 1 m.gpos ++ List.replicate 15 0)) m))) ∧
      (∀ m mem, s.copyState.readGen s.copyState.ckpt.c false = (m, mem, false) →
        exec .ckptCopyDone s = .next (s.after (m.voteCommit false)))) ∧
    (∀ n, n < s.sliceCount → (s.ckpt.slices.any fun x => x.n == n) = false → s.ckpt.slices.length < 4 → s.down 148 = false →
      (s.rebuilding ≠ none ∨ s.ckpt.order = 4) → s.ckpt.written.contains n = false → s.budget 3 ≠ 0 →
      exec (.paritySlice n) s = .next (s.after
        (let x : Slice := ⟨n, [], [], s.rebuilding.isSome⟩
         let c := s.sliceC x
         let m := s.ckptOf fun y => { y with slices := y.slices ++ [x] }
         (m.answerers x).foldl (fun m p =>
           m.ckptSend (m.member p) 0 c (leBytes 4 n ++ leBytes 1 m.gpos ++ leBytes 1 (c % 2) ++ List.replicate 10 0)) m))) ∧
    (∀ l, s.gathered kCommit s.ckpt.c = some l →
      let k := s.ckpt
      let m := s.dropSmalls fun kind _ => kind == kCommit
      let commit : Instr := .commitResult ((column l 0).all (· == 1))
      (k.order = 6 → (column l 0).all (· == 1) = true → exec commit s = .next (s.after
        ((((m.setManState k.c 3).endCkpt 0).count BLB.SN_DONE_LO.o 1).raiseBLB 1 k.c 0 (k.c % 2) k.step))) ∧
      (k.order = 6 → (column l 0).all (· == 1) = false → exec commit s = .next (s.after
        (((m.endCkpt 1).count BLB.SN_FAIL_LO.o 1).raiseBLB 2 k.c 1 (k.c % 2) k.step))) ∧
      (k.order = 7 → exec commit s = .next (s.after
        (((m.endCkpt 1).count BLB.SN_FAIL_LO.o 1).raiseBLB 2 k.c 2 (k.c % 2) k.step)))) ∧
    (s.ckptPhase = 5 → s.ckpt.cand = none →
      (s.roundCand = some 0 → exec (.restoreRoundResult 0 false false [] none) s = .next (s.after s.restoreFail)) ∧
      (∀ c ws, s.roundCand = some c → c ≠ 0 → s.gathered kRound s.round = some ws →
        let r := s.readManifests
        let lacks := ((s.asked kRound).zip ws).filter fun x => x.2.getD 1 0 != 0
        let steps := (ws.filter fun w => w.getD 3 0 == 1).map fun w => w.getD 4 0
        let totals := ((ws.map fun w => w.getD 0 0).dedup).map fun g => countB (lacks.map fun x => x.2.getD 0 0 == g)
        let mine := lacks.find? fun x => x.2.getD 0 0 == s.f BLB.GROUP.ID
        let m : Mod := { r with free := r.free + 1 }
        let lacking := mine.bind fun e => s.posOf e.1
        let round : Instr := .restoreRoundResult (BitVec.ofNat 32 c) (orAll (column ws 2) != 0)
          (steps.all fun a => steps.all (· == a)) totals (lacking.map (Fin.ofNat 8))
        ∃ imported : Bool, (r.manFor c = true → imported = (manState (r.manifest c) == 4)) ∧
          (orAll (column ws 2) ≠ 0 → (∀ a ∈ steps, ∀ b ∈ steps, b = a) → (∀ t ∈ totals, t ≤ if imported then 0 else 1) →
            exec round s = .next (s.after
              (m.ckptOf fun x => { x with cand := some c, lacking := lacking, rebuilt := [] }))) ∧
          (¬(orAll (column ws 2) ≠ 0 ∧ (∀ a ∈ steps, ∀ b ∈ steps, b = a) ∧ ∀ t ∈ totals, t ≤ if imported then 0 else 1) →
            exec round s = .next (s.after (m.refuseCand c))))) ∧
    (∀ manifest c, s.ckpt.cand = some c → s.ckptPhase = 5 → (s.rebuilding = none ∨ s.sliceCount ≤ s.ckpt.written.length) →
      (∀ m mem, s.ckpt.lacking ≠ some s.gpos → s.see byCkpt [(s.genBase c, s.extent)] = (m, mem, true) →
        exec (.restoreCopyDone manifest) s = .next (s.after (m.readManifests.restoredFrom c mem))) ∧
      (∀ m m' mem, s.ckpt.lacking = some s.gpos → s.acceptRebuilt c manifest = (m, true) →
        m.see byCkpt [(m.genBase c, m.extent)] = (m', mem, true) →
        exec (.restoreCopyDone manifest) s = .next (s.after (m'.readManifests.restoredFrom c mem))) ∧
      (∀ m, s.ckpt.lacking = some s.gpos → s.acceptRebuilt c manifest = (m, false) →
        exec (.restoreCopyDone manifest) s = .next (s.after m.restoreFail))) ∧
    (s.is BLB.STAT.DRAIN = true →
      (planAt s.drainPlan s.ckpt.drainPos = none → exec .drainSend s = .next (s.after (s.drainEnd (some 8)))) ∧
      (∀ area o n m bs, planAt s.drainPlan s.ckpt.drainPos = some (area, o, n) →
        let g := s.ckpt.drainGen
        (s.load byCkpt ((if area = 0 then s.genBase g else s.fragBase g) + o) n = (m, none) →
          exec .drainSend s = .next (s.after (m.drainEnd (some 9)))) ∧
        (s.load byCkpt ((if area = 0 then s.genBase g else s.fragBase g) + o) n = (m, some bs) → exec .drainSend s = .next (s.after
          (let t := m.sendTo (m.f TOR.BRIDGE.ID) (m.tagFor m.steps.oldest) clsCKPT 5 (dataInfo m.id g area o) bs
           let k := t.ckpt.drainPos + 1
           let t := ((t.ckptOf fun x => { x with drainPos := k }).count BLB.SN_EXPORT_LO.o n).progress 148
           if (planAt t.drainPlan k).isNone then t.drainEnd (some 8) else t)))))

/-! ## Layouts and encodings -/

/-- R300: the fields of the header lie where the table says, the header is the packet's first unit, and `LEN` units follow it. -/
def Obligations.PacketHeaderLayout : Prop :=
  ∀ p : Pkt,
    bits (hdrNat p) 12 0 = p.dest.toNat ∧ bits (hdrNat p) 25 13 = p.src.toNat ∧ bits (hdrNat p) 41 26 = p.gen.toNat ∧
    bits (hdrNat p) 65 42 = p.seq.toNat ∧ bits (hdrNat p) 70 66 = p.len.toNat ∧ bits (hdrNat p) 73 71 = p.cls.toNat ∧
    bits (hdrNat p) 77 74 = p.typ.toNat ∧ bits (hdrNat p) 78 78 = p.replay.toNat ∧ bits (hdrNat p) 79 79 = p.marked.toNat ∧
    bits (hdrNat p) 127 80 = p.info.toNat ∧ hdrNat p < 2 ^ 128 ∧
    (pktUnits p).head? = some (BitVec.ofNat 128 (hdrNat p)) ∧ (pktUnits p).length = 1 + p.len.toNat

/-- Packets that follow one another on a link are read back as they were sent, every field and every payload byte, and a packet that is
not complete is kept: for packets of the form that R300 gives whose header is not that of an idle unit (R291). -/
def Obligations.PacketStreamRoundTrip : Prop :=
  ∀ (ps : List Pkt) (last : Pkt) (k fuel : Nat),
    (∀ p ∈ last :: ps, p.payload.length = 16 * p.len.toNat ∧ ¬(p.len = 0 ∧ p.cls = 0 ∧ p.typ = 0)) → 0 < k → k ≤ last.len.toNat →
    (ps.flatMap pktUnits).length + k < fuel →
    parseUnits fuel (ps.flatMap pktUnits ++ (pktUnits last).take k) = (ps, (pktUnits last).take k)

/-- R9: a fabric address holds the module id in bits [60:48] and the module-local address in bits [47:0]; the example is core 5 of module
0x12A3. -/
def Obligations.FabricAddressLayout : Prop :=
  (∀ d a : Nat, d < 8192 → a < 2 ^ 48 →
    let fa := d * 2 ^ 48 + a
    bits fa 60 48 = d ∧ bits fa 47 0 = a ∧ bits fa 63 61 = 0 ∧ fabMod fa = d ∧ fabLocal fa = a) ∧
  3 + 32 * 5 + 512 * 9 = 0x12A3 ∧ lsAddr 5 0 = 0x010005000000 ∧ 0x12A3 * 2 ^ 48 + lsAddr 5 0 = 0x12A3010005000000

/-- R30: in each 16 MiB window the first 4 MiB is that core's local store, and the rest of the window is unmapped. -/
def Obligations.LocalStoreWindows : Prop :=
  ∀ (core : Fin 128) (o n : Nat), o < 0x1000000 → 0 < n →
    (o + n ≤ 0x400000 → storeOf (lsAddr core.val o) n = some core.val ∧ mapped (lsAddr core.val o) n = true) ∧
    (0x400000 < o + n → storeOf (lsAddr core.val o) n = none ∧ mapped (lsAddr core.val o) n = false)

/-- R241: an HBM address lies in the stack, channel, column, bank and row of the rule's formulas; the place of a 64-byte unit names that
unit and no other, every component lies in its range, and each aligned 2 KiB block puts one 256-byte unit in each of the eight stacks. The
example is the rule's own. -/
def Obligations.PlacesAreOneToOne : Prop :=
  (∀ a : Nat, a < hbmTop →
    let l := bits a 38 11 * 256 + bits a 7 0
    (placeOf a).stack = bits a 10 8 ^^^ bits a 20 18 ^^^ bits a 30 28 ∧ (placeOf a).channel = bits l 12 8 ^^^ bits l 24 20 ∧
      (placeOf a).column = bits l 15 13 ∧ (placeOf a).bank = bits l 19 16 ^^^ bits l 28 25 ∧ (placeOf a).row = bits l 35 20) ∧
  placeOf 0x000400000940 = { stack := 1, channel := 1, bank := 0, row := 2048, column := 0, quarter := 1 } ∧
  (∀ a : Nat, a < hbmTop → a % 64 = 0 →
    (placeOf a).addr = a ∧ (placeOf a).stack < 8 ∧ (placeOf a).channel < 32 ∧ (placeOf a).bank < 16 ∧ (placeOf a).row < 65536 ∧
      (placeOf a).column < 8 ∧ (placeOf a).quarter < 4) ∧
  (∀ b : Nat, 2048 * b < hbmTop → ∀ st : Fin 8, ∃! i : Fin 8, stackOf (2048 * b + 256 * i.val) = st.val)

/-- R244: whatever its view, a window's addresses are a permutation of the window's own bytes, and a die-local or stack-local view puts
each address in the stack that the rule names. -/
def Obligations.ViewsPermuteTheirWindow : Prop :=
  ∀ view b w : Nat, view ≤ 2 → b % 0x200000 = 0 → w % 0x200000 = 0 → 0 < w → b + w ≤ hbmTop →
    (∀ o, o < w → b ≤ viewAddr view b w o ∧ viewAddr view b w o < b + w ∧ viewAddr view b w o % 256 = (b + o) % 256) ∧
    (∀ o o', o < w → o' < w → viewAddr view b w o = viewAddr view b w o' → o = o') ∧
    (∀ o, o < w → (view = 1 → stackOf (viewAddr view b w o) = o / (w / 8)) ∧
      (view = 2 → stackOf (viewAddr view b w o) = 4 * (o / (w / 2)) + o % (w / 2) / 256 % 4))

/-! ## Registers and events -/

/-- R469: each rejection raises `SEQ`, skipping zero, and replaces code, agent, address and sender; the clearing of `WERR` follows R471. -/
def Obligations.RejectionsAreRecorded : Prop :=
  (∀ (m : Mod) (a : Agent) (off : Nat) (v : Word) (code : Nat), m.regJudge a off v = some code →
    m.regWrite a off v = (m.meetUnread off code).reject a off code) ∧
  (∀ (m : Mod) (a : Agent) (off : BitVec 24) (code : Fin 256),
    let t := m.reject a off.toNat code.val
    let seq := (m.f GEN.WERR.SEQ + 1) % 0x10000
    t.f GEN.WERR.SEQ = (if seq = 0 then 1 else seq) ∧ t.f GEN.WERR.CODE = code.val ∧ t.f GEN.WERR_ADDR.OFFSET = off.toNat ∧
      (a = .mgmt → t.f GEN.WERR.AGENT = 0 ∧ t.f GEN.WERR_SRC.MODULE = 0) ∧
      (∀ src port, a = .fabric src port → t.f GEN.WERR.AGENT = 1 ∧ t.f GEN.WERR_SRC.MODULE = src.toNat)) ∧
  (∀ (m : Mod) (a : Agent) (v : Word), m.regJudge a GEN.WERR.o v = none →
    let t := m.regWrite a GEN.WERR.o v
    t.f GEN.WERR.SEQ = m.f GEN.WERR.SEQ ∧ t.rd GEN.WERR_ADDR.o = m.rd GEN.WERR_ADDR.o ∧ t.rd GEN.WERR_SRC.o = m.rd GEN.WERR_SRC.o ∧
      (GEN.WERR.SEQ.get v = m.f GEN.WERR.SEQ → t.f GEN.WERR.CODE = 0) ∧
      (GEN.WERR.SEQ.get v ≠ m.f GEN.WERR.SEQ → t = m))

/-- Frame of rejected writes (R463, R464, R468): where judging gives a code, the write changes the three WERR registers and nothing else,
whatever the agent and the register; a write that no table defines has code 5, and one whose domain is down is rejected, with code 3 where no
cause that comes before it in R468's order holds (`ACC_SEL` is judged by the core that it would name, R461). A table write rejected for bytes it cannot read is left out: it also meets those units (R216, R271). -/
def Obligations.RejectedWritesOnlyRecord : Prop :=
  ∀ (m : Mod) (a : Agent) (off : Nat) (v : Word),
    (∀ code, m.regJudge a off v = some code → ¬(off = UPD.TW_GO.o ∧ code = cBusy ∧ m.twUnread m.twWrite = true) →
      m.regWrite a off v = { m with regs := (m.regWrite a off v).regs } ∧
      ∀ o, o ≠ GEN.WERR.o → o ≠ GEN.WERR_ADDR.o → o ≠ GEN.WERR_SRC.o → (m.regWrite a off v).rd o = m.rd o) ∧
    (findReg (off / 0x1000) (off % 0x1000) = none → m.regJudge a off v = some 5 ∧ m.regRead off = 0 ∧ m.readStatus off = 5) ∧
    (∀ r, findReg (off / 0x1000) (off % 0x1000) = some r → m.down (m.regDom off) = true →
      m.regRead off = 0 ∧ m.readStatus off = 3 ∧
      (off ≠ DBG.ACC_SEL.o → (m.regJudge a off v).isSome = true ∧
        (v &&& ~~~(BitVec.ofNat 32 (r.rw ||| r.ro ||| r.wo ||| r.w1s)) = 0 → m.lockedWrite (m.regW a off v) = false →
          ((rejBlock m (m.withWord a off v) (m.regW a off v) a).all fun x => !x.1 || !([cReserved, cLocked, cState].contains x.2)) = true →
          m.regJudge a off v = some 3)))

/-- Frame and read-back of plain writes (R462): an accepted write of a register whose write has no further effect changes that register
alone, whose RW bits are then as written, RO bits as they were, W1S bits joined, and WO bits zero when read. -/
def Obligations.PlainWritesReadBack : Prop :=
  ∀ (s : State) (a : Agent) (v : Word) (c : Instr) (off : Nat),
    (c, off) ∈ [(Instr.lockSet a v, GEN.LOCK.o), (.fenEnable a v, FEN.CFG.o), (.updEnable a v, UPD.CFG.o), (.trTailWrite a v, DBG.TR_TAIL.o),
      (.railSet a 0 v, PWR.RAIL_SET.o 0), (.railSet a 1 v, PWR.RAIL_SET.o 1), (.railSet a 2 v, PWR.RAIL_SET.o 2)] →
    s.accepts a off v = true → (s.withWord a off v).still = true →
    ∃ t r, exec c s = .next t ∧ findReg (off / 0x1000) (off % 0x1000) = some r ∧ t = s.become { s.toMod with regs := t.regs } ∧
      (∀ o, o ≠ off → t.rd o = s.rd o) ∧
      t.rd off &&& BitVec.ofNat 32 r.rw = v &&& BitVec.ofNat 32 r.rw ∧
      t.rd off &&& ~~~(BitVec.ofNat 32 (r.rw ||| r.w1s)) = s.rd off &&& ~~~(BitVec.ofNat 32 (r.rw ||| r.w1s)) ∧
      t.rd off &&& BitVec.ofNat 32 r.w1s &&& ~~~(BitVec.ofNat 32 r.rw) =
        (s.rd off ||| v) &&& BitVec.ofNat 32 r.w1s &&& ~~~(BitVec.ofNat 32 r.rw)

/-- R470 and R471: an event's code stands with the next `SEQ` until a write with that `SEQ` clears it; the clearing write leaves `SEQ` and
every other register, and a write with another `SEQ` changes nothing. -/
def Obligations.EventsStandUntilCleared : Prop :=
  (∀ (m : Mod) (code : Fin 256),
    let t := m.raiseRST code.val 0 0
    let seq := (m.f RST.EVT.SEQ + 1) % 0x10000
    t.f RST.EVT.SEQ = (if seq = 0 then 1 else seq) ∧ t.f RST.EVT.CODE = code.val) ∧
  (∀ (m : Mod) (a : Agent) (o : Nat) (v : Word), isEvt o = true → m.regJudge a o v = none →
    let t := m.regWrite a o v
    (v.toNat % 0x10000 = (m.rd o).toNat % 0x10000 →
      (t.rd o).toNat % 0x10000 = (m.rd o).toNat % 0x10000 ∧ (t.rd o).toNat / 0x10000 % 256 = 0 ∧
      (∀ o', o' ≠ o → t.rd o' = m.rd o') ∧ t = { m with regs := t.regs }) ∧
    (v.toNat % 0x10000 ≠ (m.rd o).toNat % 0x10000 → t = m))

/-! ## Steps and packets -/

/-- R352: the tag of a step's current attempt names that step and that attempt, for every step within half the tag's range of the oldest
unchecked step, and two such steps never share a tag. -/
def Obligations.TagsNameTheirStep : Prop :=
  ∀ m : Mod, (∀ k, m.attempt k < 16) →
    (∀ k, m.steps.oldest ≤ k → k < m.steps.oldest + 2048 → m.tagFor k < 65536 ∧ m.tagStep (m.tagFor k) = k ∧
      m.tagFor k % 16 = m.attempt k ∧ m.tagLive (m.tagFor k) = true) ∧
    (∀ k, k < m.steps.oldest → m.steps.oldest ≤ k + 2048 → m.tagStep (m.tagFor k) = k ∧
      (m.tagLive (m.tagFor k) = true ↔ m.steps.released ≤ k)) ∧
    (∀ j k, m.steps.oldest ≤ j → j < m.steps.oldest + 2048 → m.steps.oldest ≤ k → k < m.steps.oldest + 2048 →
      m.tagFor j = m.tagFor k → j = k)

/-- R353: a packet for this module whose tag names an unchecked step at another attempt, or a released step, is dropped and counted in
`SN_GEN_DROP`, and changes nothing else, but that the squash adders answer a scatter-add that comes late to a step-tagged window (R256); the
packet has passed the checks that stand before this one (R305, R320, R382, R424, R437, R440), and its tag is that of a step's work: state
bytes name the step whose update they hold (R380, R384; log entry 103). -/
def Obligations.StalePacketsAreDropped : Prop :=
  ∀ (m : Mod) (port : Nat) (q : Pkt),
    m.pstate port = pUP → m.fetching_ = false → pktOk q = true → q.cls ≠ 0 → m.hostPort port = false → m.foreign port q = false →
    m.lateWarm q = false → (m.is TST.CFG.MODE = false ∨ testCarries q = true) → m.memside.paths.contains (136 + port) = false →
    m.takes port q = true → m.passesOn q = false → m.tagFree q = false →
    ¬(m.boot.serving = some port ∧ q.cls.toNat = 2 ∧ q.typ.toNat ≠ 1 ∧ infoOf q % 2 ^ 24 = m.boot.serveSeq) →
    ((m.steps.oldest ≤ m.tagStep (tagOf q) ∧ tagOf q % 16 ≠ m.attempt (m.tagStep (tagOf q))) ∨
      (m.tagStep (tagOf q) < m.steps.oldest ∧ m.tagStep (tagOf q) < m.steps.released)) →
    m.receivePkt port q =
      if q.cls.toNat = clsSQ then (m.count DUP.SN_GEN_DROP_LO.o 1).dropAdd q else m.count DUP.SN_GEN_DROP_LO.o 1

/-- R364: with the ledger on, a marked packet that its tracker lets through is let through once: the same packet, or any of its tag and
sequence number and flow, is then discarded and counted, until a packet with another live tag or a rewind resets the tracker; for a tracker
whose bytes in memory are written without a fault of the ledger or a step. -/
def Obligations.MarkedPacketsApplyOnce : Prop :=
  ∀ (m m₁ : Mod) (p p' : Pkt), m.is LDG.CFG.ENABLE = true → p.marked = true → p'.marked = true →
    m.track p = (m₁, true) → m₁.is LDG.CFG.ENABLE = true → m₁.steps = m.steps →
    tagOf p' = tagOf p → p'.seq = p.seq → p'.src = p.src → p'.dest = p.dest → p'.cls = p.cls →
    ∃ m₂, m₁.track p' = (m₂, false) ∧ m₂.cnt DUP.SN_DUPDISC_LO.o = (m₁.cnt DUP.SN_DUPDISC_LO.o + 1) % 2 ^ 64

/-! ## Frames -/

/-- Frame of the management connector: its reads, PMBus commands and scan instructions change what is driven, the PMBus page, the
regulator's fault status and the scan chain, and nothing else of the module but how many free values have been taken (the PMBus formats are
open); so does an SMBus transaction whose PEC fails (R458, R462). -/
def Obligations.ManagementFrame : Prop :=
  ∀ (s : State), s.still = true →
    (∀ c, (∃ addr, c = .smbBlockRead addr) ∨ c = .smbAlertResponse ∨ (∃ p pec, c = .page p pec) ∨ (∃ pec, c = .clearFaults pec) ∨
        c ∈ [Instr.statusWord, .readVin, .readIin, .readVout, .readIout, .readTemperature1, .readPin, .idcode, .bypass] ∨
        (∃ cmd, c = .pmbusNack cmd) ∨ (∃ ir, c = .scanInstruction ir) →
      ∃ t, exec c s = .next t ∧ t = s.become { s.toMod with mgmt := t.mgmt, free := t.free }) ∧
    (∀ (addr : BitVec 24) (data : Word) (pec : Byte),
      pec8 ([smbRegs, 0x10, 7] ++ leBytes 3 addr.toNat ++ leBytes 4 data.toNat) ≠ pec →
      ∃ t, exec (.smbBlockWrite addr data pec) s = .next t ∧ t = s.become { s.toMod with mgmt := t.mgmt })

/-- Frame of a packet that writes a local store (R30, R303): the bytes that the packet carries for its range are then those read there, every
other byte reads as the unit found it, which is as before unless the ledger moved on the tracker of a marked packet (R356, R364), and memory
keeps its canonical form. -/
def Obligations.LocalStoreWriteFrame : Prop :=
  ∀ (s : State) (port : Fin 8) (p : Pkt) (m : Mod) (x : Nat), let q := asRow p 1 0
    s.handsOn port.val q m → ioLast (infoOf q) = false → ioSpace (infoOf q) = 1 →
    m.fabricAddr (destOf q) 1 (ioOffset (infoOf q)) (ioBytes q) = .inl x → m.memside.paths = [] →
    (m.store (By.hub (some (tagOf q))) x (writeBytes q)).1.still = true → s.health.winDue = false → Memory.wf m.mem = true →
    ∃ t, exec (.write port p) s = .next t ∧ Memory.wf t.mem = true ∧
      (∀ i, i < ioBytes q → t.byteAt (x + i) = (writeBytes q).getD i 0) ∧
      (∀ a, a < x ∨ x + ioBytes q ≤ a → t.byteAt a = m.byteAt a ∧ (q.marked = false → m.byteAt a = s.byteAt a))

/-- Frame of a NOP that runs and of a CAPS packet: memory, the registers, the commands that wait, every other queue and every other port
are as before (R171, R288). -/
def Obligations.OtherPartsUnchanged : Prop :=
  ∀ s : State,
    (∀ (n : Fin 128) (q : Fin 4) (d : Desc) (t : State), s.running n.val q.val 0x00 = some d → d.stopped = false →
      (s.endDesc n.val q.val d sOK).still = true → exec (.nop n q) s = .next t →
      t.mem = s.mem ∧ t.regs = s.regs ∧ t.ports = s.ports ∧ t.reqs = s.reqs ∧ t.pending = s.pending ∧
      ∀ (n' : Fin 128) (q' : Fin 4), (n', q') ≠ (n, q) → t.queue n'.val q'.val = s.queue n'.val q'.val) ∧
    (∀ (p : Fin 8) (fibre : Fin 4) (b : List Byte) (t : State), s.still = true → exec (.caps p fibre b) s = .next t →
      t.mem = s.mem ∧ t.regs = s.regs ∧ t.queues = s.queues ∧ t.pending = s.pending ∧
      ∀ p' : Fin 8, p' ≠ p → t.port p'.val = s.port p'.val)
end

