-- ==== Sys2Proof/Laws/Table.lean ====
section
/-! SUPPORT. Laws of sparse tables and byte strings: a key holds what was last stored at it, and every update keeps the canonical form. -/

namespace Sys2Proof.Machine

@[simp] theorem tget_nil {α : Type} (d : Nat → α) (k : Nat) : tget d [] k = d k := rfl

theorem tget_erase {α : Type} {d : Nat → α} (t : Tbl α) (p : Nat → Bool) (k : Nat) : tget d (terase p t) k = if p k then d k else tget d t k := by
  induction t with
  | nil => simp [terase, tget]
  | cons e r ih =>
    obtain ⟨j, v⟩ := e
    simp only [terase] at ih ⊢
    by_cases hp : p j = true
    · simp only [List.filter_cons, hp, Bool.not_true, Bool.false_eq_true, if_false, ih, tget]
      by_cases hj : j = k
      · subst hj; simp [hp]
      · simp [hj]
    · simp only [List.filter_cons, hp, Bool.not_false, if_true, tget, ih]
      by_cases hj : j = k
      · subst hj; simp [hp]
      · simp [hj]

variable {α : Type} [DecidableEq α] {d : Nat → α}

/-- Reading after a store: the key stored at holds the value, every other key what it held. -/
theorem tget_tset (t : Tbl α) (k k' : Nat) (v : α) : tget d (tset d t k v) k' = if k' = k then v else tget d t k' := by
  induction t with
  | nil =>
    simp only [tset]
    split
    · rename_i h; by_cases hk : k' = k <;> simp [tget, hk, h]
    · by_cases hk : k' = k
      · simp [tget, hk]
      · simp [tget, hk, Ne.symm hk]
  | cons e r ih =>
    obtain ⟨j, w⟩ := e
    simp only [tset]
    by_cases hk : k' = k
    · subst hk
      split
      · subst_vars
        split
        · rename_i h; simp [tget_erase, h]
        · simp [tget]
      · rename_i hj
        split
        · split
          · rename_i h; simp [tget, hj, tget_erase, h]
          · simp [tget]
        · simp [tget, hj, ih]
    · by_cases hj : j = k
      · subst hj
        rw [if_pos rfl]
        split
        · simp [tget, tget_erase, hk, Ne.symm hk]
        · simp [tget, Ne.symm hk]
      · rw [if_neg hj]
        split
        · split
          · simp [tget, tget_erase, hk]
          · simp [tget, Ne.symm hk]
        · simp [tget, ih, hk]

@[simp] theorem tget_tset_same (t : Tbl α) (k : Nat) (v : α) : tget d (tset d t k v) k = v := by simp [tget_tset]

theorem tget_tset_other (t : Tbl α) {k k' : Nat} (v : α) (h : k' ≠ k) : tget d (tset d t k v) k' = tget d t k' := by
  simp [tget_tset, h]

/-! ## The canonical form -/

theorem twfFrom_cons {lo : Option Nat} {k : Nat} {v : α} {r : Tbl α} :
    twfFrom d lo ((k, v) :: r) = true ↔ (∀ l, lo = some l → l < k) ∧ v ≠ d k ∧ twfFrom d (some k) r = true := by
  cases lo <;> simp [twfFrom, and_assoc]

theorem twfFrom_mono {lo lo' : Option Nat} {t : Tbl α} (h : twfFrom d lo t = true)
    (hl : ∀ l, lo' = some l → ∃ l', lo = some l' ∧ l ≤ l') : twfFrom d lo' t = true := by
  cases t with
  | nil => rfl
  | cons e r =>
    rw [twfFrom_cons] at h ⊢
    refine ⟨fun l hl' => ?_, h.2⟩
    obtain ⟨l', hlo, hle⟩ := hl l hl'
    exact Nat.lt_of_le_of_lt hle (h.1 l' hlo)

/-- Erasing entries keeps the form. -/
theorem twfFrom_erase {lo : Option Nat} {t : Tbl α} (p : Nat → Bool) (h : twfFrom d lo t = true) :
    twfFrom d lo (terase p t) = true := by
  induction t generalizing lo with
  | nil => rfl
  | cons e r ih =>
    rw [twfFrom_cons] at h
    simp only [terase, List.filter_cons]
    split
    · exact twfFrom_cons.2 ⟨h.1, h.2.1, ih h.2.2⟩
    · exact twfFrom_mono (ih h.2.2) fun l hl => ⟨_, rfl, Nat.le_of_lt (h.1 l hl)⟩

theorem twfFrom_tset {lo : Option Nat} {t : Tbl α} {k : Nat} {v : α} (h : twfFrom d lo t = true)
    (hk : ∀ l, lo = some l → l < k) : twfFrom d lo (tset d t k v) = true := by
  induction t generalizing lo with
  | nil =>
    simp only [tset]
    split
    · rfl
    · rename_i hv; exact twfFrom_cons.2 ⟨hk, hv, rfl⟩
  | cons e r ih =>
    obtain ⟨j, w⟩ := e
    rw [twfFrom_cons] at h
    simp only [tset]
    split
    · rename_i hj; subst hj
      split
      · exact twfFrom_mono (twfFrom_erase _ h.2.2) fun l hl => ⟨_, rfl, Nat.le_of_lt (hk l hl)⟩
      · rename_i hv; exact twfFrom_cons.2 ⟨hk, hv, h.2.2⟩
    · split
      · rename_i hlt
        split
        · exact twfFrom_cons.2 ⟨h.1, h.2.1, twfFrom_erase _ h.2.2⟩
        · rename_i hv
          refine twfFrom_cons.2 ⟨hk, hv, twfFrom_cons.2 ⟨fun l hl => ?_, h.2.1, h.2.2⟩⟩
          cases hl; exact hlt
      · refine twfFrom_cons.2 ⟨h.1, h.2.1, ih h.2.2 fun l hl => ?_⟩
        cases hl; omega

theorem twf_tset {t : Tbl α} (k : Nat) (v : α) (h : twf d t = true) : twf d (tset d t k v) = true :=
  twfFrom_tset h (by intro l hl; cases hl)

theorem twf_erase {t : Tbl α} (p : Nat → Bool) (h : twf d t = true) : twf d (terase p t) = true := twfFrom_erase p h

/-! ## Byte strings -/

theorem twf_putBytes {e : Nat → Byte} {t : Tbl Byte} (a : Nat) (bs : List Byte) (h : twf e t = true) : twf e (putBytes e t a bs) = true := by
  induction bs generalizing t a with
  | nil => exact h
  | cons b r ih => exact ih (a + 1) (twf_tset a b h)

/-- A byte of a string holds it; every other address keeps what it held. -/
theorem tget_putBytes {e : Nat → Byte} (t : Tbl Byte) (a : Nat) (bs : List Byte) (x : Nat) :
    tget e (putBytes e t a bs) x = if a ≤ x ∧ x < a + bs.length then bs.getD (x - a) 0 else tget e t x := by
  induction bs generalizing t a with
  | nil => simp only [putBytes, List.length_nil, Nat.add_zero]; rw [if_neg (by omega)]
  | cons b r ih =>
    simp only [putBytes, ih, tget_tset, List.length_cons]
    by_cases hx : x = a
    · subst hx; rw [if_neg (by omega), if_pos rfl, if_pos (by omega)]; simp
    · by_cases hin : a + 1 ≤ x ∧ x < a + 1 + r.length
      · rw [if_pos hin, if_pos (by omega)]
        have : x - a = (x - (a + 1)) + 1 := by omega
        rw [this]; simp
      · rw [if_neg hin, if_neg hx, if_neg (by omega)]

@[simp] theorem length_leBytes (n x : Nat) : (leBytes n x).length = n := by
  induction n generalizing x with
  | zero => rfl
  | succ n ih => simp [leBytes, ih]

/-- A number of `n` bytes comes back from its bytes. -/
theorem leNat_leBytes (n x : Nat) : leNat (leBytes n x) = x % 256 ^ n := by
  induction n generalizing x with
  | zero => simp [leBytes, leNat, Nat.mod_one]
  | succ n ih =>
    simp only [leBytes, leNat, ih, BitVec.toNat_ofNat]
    rw [show 256 ^ (n + 1) = 256 * 256 ^ n from Nat.pow_succ', Nat.mod_mul]

theorem leNat_lt (bs : List Byte) : leNat bs < 256 ^ bs.length := by
  induction bs with
  | nil => simp [leNat]
  | cons b r ih =>
    have := b.isLt
    simp only [leNat, List.length_cons, Nat.pow_succ]
    omega

/-- Bytes come back from the number they spell. -/
theorem leBytes_leNat (bs : List Byte) : leBytes bs.length (leNat bs) = bs := by
  induction bs with
  | nil => rfl
  | cons b r ih =>
    have := b.isLt
    simp only [List.length_cons, leBytes, leNat]
    congr 1
    · apply BitVec.eq_of_toNat_eq; simp only [BitVec.toNat_ofNat]; omega
    · rw [show (b.toNat + 256 * leNat r) / 256 = leNat r by omega]; exact ih

end Sys2Proof.Machine
end

