-- ==== Sys2Proof/Laws/State.lean ====
section
/-! SUPPORT. Field by field, what each update of the module writes and what it leaves; and the same of registers, counters and the state. -/

namespace Sys2Proof.Machine

/-! ## `Mod.bootOf` -/

@[simp] theorem Mod.bootOf_regs (m : Mod) (f : Boot → Boot) : (m.bootOf f).regs = m.regs := rfl
@[simp] theorem Mod.bootOf_live (m : Mod) (f : Boot → Boot) : (m.bootOf f).live = m.live := rfl
@[simp] theorem Mod.bootOf_gaps (m : Mod) (f : Boot → Boot) : (m.bootOf f).gaps = m.gaps := rfl
@[simp] theorem Mod.bootOf_resets (m : Mod) (f : Boot → Boot) : (m.bootOf f).resets = m.resets := rfl
@[simp] theorem Mod.bootOf_mem (m : Mod) (f : Boot → Boot) : (m.bootOf f).mem = m.mem := rfl
@[simp] theorem Mod.bootOf_heldWrites (m : Mod) (f : Boot → Boot) : (m.bootOf f).heldWrites = m.heldWrites := rfl
@[simp] theorem Mod.bootOf_accReq (m : Mod) (f : Boot → Boot) : (m.bootOf f).accReq = m.accReq := rfl
@[simp] theorem Mod.bootOf_arbs (m : Mod) (f : Boot → Boot) : (m.bootOf f).arbs = m.arbs := rfl
@[simp] theorem Mod.bootOf_flash (m : Mod) (f : Boot → Boot) : (m.bootOf f).flash = m.flash := rfl
@[simp] theorem Mod.bootOf_doms (m : Mod) (f : Boot → Boot) : (m.bootOf f).doms = m.doms := rfl
@[simp] theorem Mod.bootOf_recov (m : Mod) (f : Boot → Boot) : (m.bootOf f).recov = m.recov := rfl
@[simp] theorem Mod.bootOf_sp (m : Mod) (f : Boot → Boot) : (m.bootOf f).sp = m.sp := rfl
@[simp] theorem Mod.bootOf_power (m : Mod) (f : Boot → Boot) : (m.bootOf f).power = m.power := rfl
@[simp] theorem Mod.bootOf_boot (m : Mod) (f : Boot → Boot) : (m.bootOf f).boot = f m.boot := rfl
@[simp] theorem Mod.bootOf_mgmt (m : Mod) (f : Boot → Boot) : (m.bootOf f).mgmt = m.mgmt := rfl
@[simp] theorem Mod.bootOf_queues (m : Mod) (f : Boot → Boot) : (m.bootOf f).queues = m.queues := rfl
@[simp] theorem Mod.bootOf_reqs (m : Mod) (f : Boot → Boot) : (m.bootOf f).reqs = m.reqs := rfl
@[simp] theorem Mod.bootOf_arrs (m : Mod) (f : Boot → Boot) : (m.bootOf f).arrs = m.arrs := rfl
@[simp] theorem Mod.bootOf_fen (m : Mod) (f : Boot → Boot) : (m.bootOf f).fen = m.fen := rfl
@[simp] theorem Mod.bootOf_stalk (m : Mod) (f : Boot → Boot) : (m.bootOf f).stalk = m.stalk := rfl
@[simp] theorem Mod.bootOf_memside (m : Mod) (f : Boot → Boot) : (m.bootOf f).memside = m.memside := rfl
@[simp] theorem Mod.bootOf_health (m : Mod) (f : Boot → Boot) : (m.bootOf f).health = m.health := rfl
@[simp] theorem Mod.bootOf_upd (m : Mod) (f : Boot → Boot) : (m.bootOf f).upd = m.upd := rfl
@[simp] theorem Mod.bootOf_steps (m : Mod) (f : Boot → Boot) : (m.bootOf f).steps = m.steps := rfl
@[simp] theorem Mod.bootOf_ports (m : Mod) (f : Boot → Boot) : (m.bootOf f).ports = m.ports := rfl
@[simp] theorem Mod.bootOf_router (m : Mod) (f : Boot → Boot) : (m.bootOf f).router = m.router := rfl
@[simp] theorem Mod.bootOf_coll (m : Mod) (f : Boot → Boot) : (m.bootOf f).coll = m.coll := rfl
@[simp] theorem Mod.bootOf_vine (m : Mod) (f : Boot → Boot) : (m.bootOf f).vine = m.vine := rfl
@[simp] theorem Mod.bootOf_dup (m : Mod) (f : Boot → Boot) : (m.bootOf f).dup = m.dup := rfl
@[simp] theorem Mod.bootOf_ledger (m : Mod) (f : Boot → Boot) : (m.bootOf f).ledger = m.ledger := rfl
@[simp] theorem Mod.bootOf_ckpt (m : Mod) (f : Boot → Boot) : (m.bootOf f).ckpt = m.ckpt := rfl
@[simp] theorem Mod.bootOf_test (m : Mod) (f : Boot → Boot) : (m.bootOf f).test = m.test := rfl
@[simp] theorem Mod.bootOf_trace (m : Mod) (f : Boot → Boot) : (m.bootOf f).trace = m.trace := rfl
@[simp] theorem Mod.bootOf_free (m : Mod) (f : Boot → Boot) : (m.bootOf f).free = m.free := rfl
@[simp] theorem Mod.bootOf_rd (m : Mod) (f : Boot → Boot) (o : Nat) : (m.bootOf f).rd o = m.rd o := rfl

/-! ## `Mod.ckptOf` -/

@[simp] theorem Mod.ckptOf_regs (m : Mod) (f : Ckpt → Ckpt) : (m.ckptOf f).regs = m.regs := rfl
@[simp] theorem Mod.ckptOf_live (m : Mod) (f : Ckpt → Ckpt) : (m.ckptOf f).live = m.live := rfl
@[simp] theorem Mod.ckptOf_gaps (m : Mod) (f : Ckpt → Ckpt) : (m.ckptOf f).gaps = m.gaps := rfl
@[simp] theorem Mod.ckptOf_resets (m : Mod) (f : Ckpt → Ckpt) : (m.ckptOf f).resets = m.resets := rfl
@[simp] theorem Mod.ckptOf_mem (m : Mod) (f : Ckpt → Ckpt) : (m.ckptOf f).mem = m.mem := rfl
@[simp] theorem Mod.ckptOf_heldWrites (m : Mod) (f : Ckpt → Ckpt) : (m.ckptOf f).heldWrites = m.heldWrites := rfl
@[simp] theorem Mod.ckptOf_accReq (m : Mod) (f : Ckpt → Ckpt) : (m.ckptOf f).accReq = m.accReq := rfl
@[simp] theorem Mod.ckptOf_arbs (m : Mod) (f : Ckpt → Ckpt) : (m.ckptOf f).arbs = m.arbs := rfl
@[simp] theorem Mod.ckptOf_flash (m : Mod) (f : Ckpt → Ckpt) : (m.ckptOf f).flash = m.flash := rfl
@[simp] theorem Mod.ckptOf_doms (m : Mod) (f : Ckpt → Ckpt) : (m.ckptOf f).doms = m.doms := rfl
@[simp] theorem Mod.ckptOf_recov (m : Mod) (f : Ckpt → Ckpt) : (m.ckptOf f).recov = m.recov := rfl
@[simp] theorem Mod.ckptOf_sp (m : Mod) (f : Ckpt → Ckpt) : (m.ckptOf f).sp = m.sp := rfl
@[simp] theorem Mod.ckptOf_power (m : Mod) (f : Ckpt → Ckpt) : (m.ckptOf f).power = m.power := rfl
@[simp] theorem Mod.ckptOf_boot (m : Mod) (f : Ckpt → Ckpt) : (m.ckptOf f).boot = m.boot := rfl
@[simp] theorem Mod.ckptOf_mgmt (m : Mod) (f : Ckpt → Ckpt) : (m.ckptOf f).mgmt = m.mgmt := rfl
@[simp] theorem Mod.ckptOf_queues (m : Mod) (f : Ckpt → Ckpt) : (m.ckptOf f).queues = m.queues := rfl
@[simp] theorem Mod.ckptOf_reqs (m : Mod) (f : Ckpt → Ckpt) : (m.ckptOf f).reqs = m.reqs := rfl
@[simp] theorem Mod.ckptOf_arrs (m : Mod) (f : Ckpt → Ckpt) : (m.ckptOf f).arrs = m.arrs := rfl
@[simp] theorem Mod.ckptOf_fen (m : Mod) (f : Ckpt → Ckpt) : (m.ckptOf f).fen = m.fen := rfl
@[simp] theorem Mod.ckptOf_stalk (m : Mod) (f : Ckpt → Ckpt) : (m.ckptOf f).stalk = m.stalk := rfl
@[simp] theorem Mod.ckptOf_memside (m : Mod) (f : Ckpt → Ckpt) : (m.ckptOf f).memside = m.memside := rfl
@[simp] theorem Mod.ckptOf_health (m : Mod) (f : Ckpt → Ckpt) : (m.ckptOf f).health = m.health := rfl
@[simp] theorem Mod.ckptOf_upd (m : Mod) (f : Ckpt → Ckpt) : (m.ckptOf f).upd = m.upd := rfl
@[simp] theorem Mod.ckptOf_steps (m : Mod) (f : Ckpt → Ckpt) : (m.ckptOf f).steps = m.steps := rfl
@[simp] theorem Mod.ckptOf_ports (m : Mod) (f : Ckpt → Ckpt) : (m.ckptOf f).ports = m.ports := rfl
@[simp] theorem Mod.ckptOf_router (m : Mod) (f : Ckpt → Ckpt) : (m.ckptOf f).router = m.router := rfl
@[simp] theorem Mod.ckptOf_coll (m : Mod) (f : Ckpt → Ckpt) : (m.ckptOf f).coll = m.coll := rfl
@[simp] theorem Mod.ckptOf_vine (m : Mod) (f : Ckpt → Ckpt) : (m.ckptOf f).vine = m.vine := rfl
@[simp] theorem Mod.ckptOf_dup (m : Mod) (f : Ckpt → Ckpt) : (m.ckptOf f).dup = m.dup := rfl
@[simp] theorem Mod.ckptOf_ledger (m : Mod) (f : Ckpt → Ckpt) : (m.ckptOf f).ledger = m.ledger := rfl
@[simp] theorem Mod.ckptOf_ckpt (m : Mod) (f : Ckpt → Ckpt) : (m.ckptOf f).ckpt = f m.ckpt := rfl
@[simp] theorem Mod.ckptOf_test (m : Mod) (f : Ckpt → Ckpt) : (m.ckptOf f).test = m.test := rfl
@[simp] theorem Mod.ckptOf_trace (m : Mod) (f : Ckpt → Ckpt) : (m.ckptOf f).trace = m.trace := rfl
@[simp] theorem Mod.ckptOf_free (m : Mod) (f : Ckpt → Ckpt) : (m.ckptOf f).free = m.free := rfl
@[simp] theorem Mod.ckptOf_rd (m : Mod) (f : Ckpt → Ckpt) (o : Nat) : (m.ckptOf f).rd o = m.rd o := rfl

/-! ## `Mod.collOf` -/

@[simp] theorem Mod.collOf_regs (m : Mod) (f : Coll → Coll) : (m.collOf f).regs = m.regs := rfl
@[simp] theorem Mod.collOf_live (m : Mod) (f : Coll → Coll) : (m.collOf f).live = m.live := rfl
@[simp] theorem Mod.collOf_gaps (m : Mod) (f : Coll → Coll) : (m.collOf f).gaps = m.gaps := rfl
@[simp] theorem Mod.collOf_resets (m : Mod) (f : Coll → Coll) : (m.collOf f).resets = m.resets := rfl
@[simp] theorem Mod.collOf_mem (m : Mod) (f : Coll → Coll) : (m.collOf f).mem = m.mem := rfl
@[simp] theorem Mod.collOf_heldWrites (m : Mod) (f : Coll → Coll) : (m.collOf f).heldWrites = m.heldWrites := rfl
@[simp] theorem Mod.collOf_accReq (m : Mod) (f : Coll → Coll) : (m.collOf f).accReq = m.accReq := rfl
@[simp] theorem Mod.collOf_arbs (m : Mod) (f : Coll → Coll) : (m.collOf f).arbs = m.arbs := rfl
@[simp] theorem Mod.collOf_flash (m : Mod) (f : Coll → Coll) : (m.collOf f).flash = m.flash := rfl
@[simp] theorem Mod.collOf_doms (m : Mod) (f : Coll → Coll) : (m.collOf f).doms = m.doms := rfl
@[simp] theorem Mod.collOf_recov (m : Mod) (f : Coll → Coll) : (m.collOf f).recov = m.recov := rfl
@[simp] theorem Mod.collOf_sp (m : Mod) (f : Coll → Coll) : (m.collOf f).sp = m.sp := rfl
@[simp] theorem Mod.collOf_power (m : Mod) (f : Coll → Coll) : (m.collOf f).power = m.power := rfl
@[simp] theorem Mod.collOf_boot (m : Mod) (f : Coll → Coll) : (m.collOf f).boot = m.boot := rfl
@[simp] theorem Mod.collOf_mgmt (m : Mod) (f : Coll → Coll) : (m.collOf f).mgmt = m.mgmt := rfl
@[simp] theorem Mod.collOf_queues (m : Mod) (f : Coll → Coll) : (m.collOf f).queues = m.queues := rfl
@[simp] theorem Mod.collOf_reqs (m : Mod) (f : Coll → Coll) : (m.collOf f).reqs = m.reqs := rfl
@[simp] theorem Mod.collOf_arrs (m : Mod) (f : Coll → Coll) : (m.collOf f).arrs = m.arrs := rfl
@[simp] theorem Mod.collOf_fen (m : Mod) (f : Coll → Coll) : (m.collOf f).fen = m.fen := rfl
@[simp] theorem Mod.collOf_stalk (m : Mod) (f : Coll → Coll) : (m.collOf f).stalk = m.stalk := rfl
@[simp] theorem Mod.collOf_memside (m : Mod) (f : Coll → Coll) : (m.collOf f).memside = m.memside := rfl
@[simp] theorem Mod.collOf_health (m : Mod) (f : Coll → Coll) : (m.collOf f).health = m.health := rfl
@[simp] theorem Mod.collOf_upd (m : Mod) (f : Coll → Coll) : (m.collOf f).upd = m.upd := rfl
@[simp] theorem Mod.collOf_steps (m : Mod) (f : Coll → Coll) : (m.collOf f).steps = m.steps := rfl
@[simp] theorem Mod.collOf_ports (m : Mod) (f : Coll → Coll) : (m.collOf f).ports = m.ports := rfl
@[simp] theorem Mod.collOf_router (m : Mod) (f : Coll → Coll) : (m.collOf f).router = m.router := rfl
@[simp] theorem Mod.collOf_coll (m : Mod) (f : Coll → Coll) : (m.collOf f).coll = f m.coll := rfl
@[simp] theorem Mod.collOf_vine (m : Mod) (f : Coll → Coll) : (m.collOf f).vine = m.vine := rfl
@[simp] theorem Mod.collOf_dup (m : Mod) (f : Coll → Coll) : (m.collOf f).dup = m.dup := rfl
@[simp] theorem Mod.collOf_ledger (m : Mod) (f : Coll → Coll) : (m.collOf f).ledger = m.ledger := rfl
@[simp] theorem Mod.collOf_ckpt (m : Mod) (f : Coll → Coll) : (m.collOf f).ckpt = m.ckpt := rfl
@[simp] theorem Mod.collOf_test (m : Mod) (f : Coll → Coll) : (m.collOf f).test = m.test := rfl
@[simp] theorem Mod.collOf_trace (m : Mod) (f : Coll → Coll) : (m.collOf f).trace = m.trace := rfl
@[simp] theorem Mod.collOf_free (m : Mod) (f : Coll → Coll) : (m.collOf f).free = m.free := rfl
@[simp] theorem Mod.collOf_rd (m : Mod) (f : Coll → Coll) (o : Nat) : (m.collOf f).rd o = m.rd o := rfl

/-! ## `Mod.dupOf` -/

@[simp] theorem Mod.dupOf_regs (m : Mod) (f : Duplex → Duplex) : (m.dupOf f).regs = m.regs := rfl
@[simp] theorem Mod.dupOf_live (m : Mod) (f : Duplex → Duplex) : (m.dupOf f).live = m.live := rfl
@[simp] theorem Mod.dupOf_gaps (m : Mod) (f : Duplex → Duplex) : (m.dupOf f).gaps = m.gaps := rfl
@[simp] theorem Mod.dupOf_resets (m : Mod) (f : Duplex → Duplex) : (m.dupOf f).resets = m.resets := rfl
@[simp] theorem Mod.dupOf_mem (m : Mod) (f : Duplex → Duplex) : (m.dupOf f).mem = m.mem := rfl
@[simp] theorem Mod.dupOf_heldWrites (m : Mod) (f : Duplex → Duplex) : (m.dupOf f).heldWrites = m.heldWrites := rfl
@[simp] theorem Mod.dupOf_accReq (m : Mod) (f : Duplex → Duplex) : (m.dupOf f).accReq = m.accReq := rfl
@[simp] theorem Mod.dupOf_arbs (m : Mod) (f : Duplex → Duplex) : (m.dupOf f).arbs = m.arbs := rfl
@[simp] theorem Mod.dupOf_flash (m : Mod) (f : Duplex → Duplex) : (m.dupOf f).flash = m.flash := rfl
@[simp] theorem Mod.dupOf_doms (m : Mod) (f : Duplex → Duplex) : (m.dupOf f).doms = m.doms := rfl
@[simp] theorem Mod.dupOf_recov (m : Mod) (f : Duplex → Duplex) : (m.dupOf f).recov = m.recov := rfl
@[simp] theorem Mod.dupOf_sp (m : Mod) (f : Duplex → Duplex) : (m.dupOf f).sp = m.sp := rfl
@[simp] theorem Mod.dupOf_power (m : Mod) (f : Duplex → Duplex) : (m.dupOf f).power = m.power := rfl
@[simp] theorem Mod.dupOf_boot (m : Mod) (f : Duplex → Duplex) : (m.dupOf f).boot = m.boot := rfl
@[simp] theorem Mod.dupOf_mgmt (m : Mod) (f : Duplex → Duplex) : (m.dupOf f).mgmt = m.mgmt := rfl
@[simp] theorem Mod.dupOf_queues (m : Mod) (f : Duplex → Duplex) : (m.dupOf f).queues = m.queues := rfl
@[simp] theorem Mod.dupOf_reqs (m : Mod) (f : Duplex → Duplex) : (m.dupOf f).reqs = m.reqs := rfl
@[simp] theorem Mod.dupOf_arrs (m : Mod) (f : Duplex → Duplex) : (m.dupOf f).arrs = m.arrs := rfl
@[simp] theorem Mod.dupOf_fen (m : Mod) (f : Duplex → Duplex) : (m.dupOf f).fen = m.fen := rfl
@[simp] theorem Mod.dupOf_stalk (m : Mod) (f : Duplex → Duplex) : (m.dupOf f).stalk = m.stalk := rfl
@[simp] theorem Mod.dupOf_memside (m : Mod) (f : Duplex → Duplex) : (m.dupOf f).memside = m.memside := rfl
@[simp] theorem Mod.dupOf_health (m : Mod) (f : Duplex → Duplex) : (m.dupOf f).health = m.health := rfl
@[simp] theorem Mod.dupOf_upd (m : Mod) (f : Duplex → Duplex) : (m.dupOf f).upd = m.upd := rfl
@[simp] theorem Mod.dupOf_steps (m : Mod) (f : Duplex → Duplex) : (m.dupOf f).steps = m.steps := rfl
@[simp] theorem Mod.dupOf_ports (m : Mod) (f : Duplex → Duplex) : (m.dupOf f).ports = m.ports := rfl
@[simp] theorem Mod.dupOf_router (m : Mod) (f : Duplex → Duplex) : (m.dupOf f).router = m.router := rfl
@[simp] theorem Mod.dupOf_coll (m : Mod) (f : Duplex → Duplex) : (m.dupOf f).coll = m.coll := rfl
@[simp] theorem Mod.dupOf_vine (m : Mod) (f : Duplex → Duplex) : (m.dupOf f).vine = m.vine := rfl
@[simp] theorem Mod.dupOf_dup (m : Mod) (f : Duplex → Duplex) : (m.dupOf f).dup = f m.dup := rfl
@[simp] theorem Mod.dupOf_ledger (m : Mod) (f : Duplex → Duplex) : (m.dupOf f).ledger = m.ledger := rfl
@[simp] theorem Mod.dupOf_ckpt (m : Mod) (f : Duplex → Duplex) : (m.dupOf f).ckpt = m.ckpt := rfl
@[simp] theorem Mod.dupOf_test (m : Mod) (f : Duplex → Duplex) : (m.dupOf f).test = m.test := rfl
@[simp] theorem Mod.dupOf_trace (m : Mod) (f : Duplex → Duplex) : (m.dupOf f).trace = m.trace := rfl
@[simp] theorem Mod.dupOf_free (m : Mod) (f : Duplex → Duplex) : (m.dupOf f).free = m.free := rfl
@[simp] theorem Mod.dupOf_rd (m : Mod) (f : Duplex → Duplex) (o : Nat) : (m.dupOf f).rd o = m.rd o := rfl

/-! ## `Mod.fenOf` -/

@[simp] theorem Mod.fenOf_regs (m : Mod) (f : Fennel → Fennel) : (m.fenOf f).regs = m.regs := rfl
@[simp] theorem Mod.fenOf_live (m : Mod) (f : Fennel → Fennel) : (m.fenOf f).live = m.live := rfl
@[simp] theorem Mod.fenOf_gaps (m : Mod) (f : Fennel → Fennel) : (m.fenOf f).gaps = m.gaps := rfl
@[simp] theorem Mod.fenOf_resets (m : Mod) (f : Fennel → Fennel) : (m.fenOf f).resets = m.resets := rfl
@[simp] theorem Mod.fenOf_mem (m : Mod) (f : Fennel → Fennel) : (m.fenOf f).mem = m.mem := rfl
@[simp] theorem Mod.fenOf_heldWrites (m : Mod) (f : Fennel → Fennel) : (m.fenOf f).heldWrites = m.heldWrites := rfl
@[simp] theorem Mod.fenOf_accReq (m : Mod) (f : Fennel → Fennel) : (m.fenOf f).accReq = m.accReq := rfl
@[simp] theorem Mod.fenOf_arbs (m : Mod) (f : Fennel → Fennel) : (m.fenOf f).arbs = m.arbs := rfl
@[simp] theorem Mod.fenOf_flash (m : Mod) (f : Fennel → Fennel) : (m.fenOf f).flash = m.flash := rfl
@[simp] theorem Mod.fenOf_doms (m : Mod) (f : Fennel → Fennel) : (m.fenOf f).doms = m.doms := rfl
@[simp] theorem Mod.fenOf_recov (m : Mod) (f : Fennel → Fennel) : (m.fenOf f).recov = m.recov := rfl
@[simp] theorem Mod.fenOf_sp (m : Mod) (f : Fennel → Fennel) : (m.fenOf f).sp = m.sp := rfl
@[simp] theorem Mod.fenOf_power (m : Mod) (f : Fennel → Fennel) : (m.fenOf f).power = m.power := rfl
@[simp] theorem Mod.fenOf_boot (m : Mod) (f : Fennel → Fennel) : (m.fenOf f).boot = m.boot := rfl
@[simp] theorem Mod.fenOf_mgmt (m : Mod) (f : Fennel → Fennel) : (m.fenOf f).mgmt = m.mgmt := rfl
@[simp] theorem Mod.fenOf_queues (m : Mod) (f : Fennel → Fennel) : (m.fenOf f).queues = m.queues := rfl
@[simp] theorem Mod.fenOf_reqs (m : Mod) (f : Fennel → Fennel) : (m.fenOf f).reqs = m.reqs := rfl
@[simp] theorem Mod.fenOf_arrs (m : Mod) (f : Fennel → Fennel) : (m.fenOf f).arrs = m.arrs := rfl
@[simp] theorem Mod.fenOf_fen (m : Mod) (f : Fennel → Fennel) : (m.fenOf f).fen = f m.fen := rfl
@[simp] theorem Mod.fenOf_stalk (m : Mod) (f : Fennel → Fennel) : (m.fenOf f).stalk = m.stalk := rfl
@[simp] theorem Mod.fenOf_memside (m : Mod) (f : Fennel → Fennel) : (m.fenOf f).memside = m.memside := rfl
@[simp] theorem Mod.fenOf_health (m : Mod) (f : Fennel → Fennel) : (m.fenOf f).health = m.health := rfl
@[simp] theorem Mod.fenOf_upd (m : Mod) (f : Fennel → Fennel) : (m.fenOf f).upd = m.upd := rfl
@[simp] theorem Mod.fenOf_steps (m : Mod) (f : Fennel → Fennel) : (m.fenOf f).steps = m.steps := rfl
@[simp] theorem Mod.fenOf_ports (m : Mod) (f : Fennel → Fennel) : (m.fenOf f).ports = m.ports := rfl
@[simp] theorem Mod.fenOf_router (m : Mod) (f : Fennel → Fennel) : (m.fenOf f).router = m.router := rfl
@[simp] theorem Mod.fenOf_coll (m : Mod) (f : Fennel → Fennel) : (m.fenOf f).coll = m.coll := rfl
@[simp] theorem Mod.fenOf_vine (m : Mod) (f : Fennel → Fennel) : (m.fenOf f).vine = m.vine := rfl
@[simp] theorem Mod.fenOf_dup (m : Mod) (f : Fennel → Fennel) : (m.fenOf f).dup = m.dup := rfl
@[simp] theorem Mod.fenOf_ledger (m : Mod) (f : Fennel → Fennel) : (m.fenOf f).ledger = m.ledger := rfl
@[simp] theorem Mod.fenOf_ckpt (m : Mod) (f : Fennel → Fennel) : (m.fenOf f).ckpt = m.ckpt := rfl
@[simp] theorem Mod.fenOf_test (m : Mod) (f : Fennel → Fennel) : (m.fenOf f).test = m.test := rfl
@[simp] theorem Mod.fenOf_trace (m : Mod) (f : Fennel → Fennel) : (m.fenOf f).trace = m.trace := rfl
@[simp] theorem Mod.fenOf_free (m : Mod) (f : Fennel → Fennel) : (m.fenOf f).free = m.free := rfl
@[simp] theorem Mod.fenOf_rd (m : Mod) (f : Fennel → Fennel) (o : Nat) : (m.fenOf f).rd o = m.rd o := rfl

/-! ## `Mod.tst` -/

@[simp] theorem Mod.tst_regs (m : Mod) (f : Test → Test) : (m.tst f).regs = m.regs := rfl
@[simp] theorem Mod.tst_live (m : Mod) (f : Test → Test) : (m.tst f).live = m.live := rfl
@[simp] theorem Mod.tst_gaps (m : Mod) (f : Test → Test) : (m.tst f).gaps = m.gaps := rfl
@[simp] theorem Mod.tst_resets (m : Mod) (f : Test → Test) : (m.tst f).resets = m.resets := rfl
@[simp] theorem Mod.tst_mem (m : Mod) (f : Test → Test) : (m.tst f).mem = m.mem := rfl
@[simp] theorem Mod.tst_heldWrites (m : Mod) (f : Test → Test) : (m.tst f).heldWrites = m.heldWrites := rfl
@[simp] theorem Mod.tst_accReq (m : Mod) (f : Test → Test) : (m.tst f).accReq = m.accReq := rfl
@[simp] theorem Mod.tst_arbs (m : Mod) (f : Test → Test) : (m.tst f).arbs = m.arbs := rfl
@[simp] theorem Mod.tst_flash (m : Mod) (f : Test → Test) : (m.tst f).flash = m.flash := rfl
@[simp] theorem Mod.tst_doms (m : Mod) (f : Test → Test) : (m.tst f).doms = m.doms := rfl
@[simp] theorem Mod.tst_recov (m : Mod) (f : Test → Test) : (m.tst f).recov = m.recov := rfl
@[simp] theorem Mod.tst_sp (m : Mod) (f : Test → Test) : (m.tst f).sp = m.sp := rfl
@[simp] theorem Mod.tst_power (m : Mod) (f : Test → Test) : (m.tst f).power = m.power := rfl
@[simp] theorem Mod.tst_boot (m : Mod) (f : Test → Test) : (m.tst f).boot = m.boot := rfl
@[simp] theorem Mod.tst_mgmt (m : Mod) (f : Test → Test) : (m.tst f).mgmt = m.mgmt := rfl
@[simp] theorem Mod.tst_queues (m : Mod) (f : Test → Test) : (m.tst f).queues = m.queues := rfl
@[simp] theorem Mod.tst_reqs (m : Mod) (f : Test → Test) : (m.tst f).reqs = m.reqs := rfl
@[simp] theorem Mod.tst_arrs (m : Mod) (f : Test → Test) : (m.tst f).arrs = m.arrs := rfl
@[simp] theorem Mod.tst_fen (m : Mod) (f : Test → Test) : (m.tst f).fen = m.fen := rfl
@[simp] theorem Mod.tst_stalk (m : Mod) (f : Test → Test) : (m.tst f).stalk = m.stalk := rfl
@[simp] theorem Mod.tst_memside (m : Mod) (f : Test → Test) : (m.tst f).memside = m.memside := rfl
@[simp] theorem Mod.tst_health (m : Mod) (f : Test → Test) : (m.tst f).health = m.health := rfl
@[simp] theorem Mod.tst_upd (m : Mod) (f : Test → Test) : (m.tst f).upd = m.upd := rfl
@[simp] theorem Mod.tst_steps (m : Mod) (f : Test → Test) : (m.tst f).steps = m.steps := rfl
@[simp] theorem Mod.tst_ports (m : Mod) (f : Test → Test) : (m.tst f).ports = m.ports := rfl
@[simp] theorem Mod.tst_router (m : Mod) (f : Test → Test) : (m.tst f).router = m.router := rfl
@[simp] theorem Mod.tst_coll (m : Mod) (f : Test → Test) : (m.tst f).coll = m.coll := rfl
@[simp] theorem Mod.tst_vine (m : Mod) (f : Test → Test) : (m.tst f).vine = m.vine := rfl
@[simp] theorem Mod.tst_dup (m : Mod) (f : Test → Test) : (m.tst f).dup = m.dup := rfl
@[simp] theorem Mod.tst_ledger (m : Mod) (f : Test → Test) : (m.tst f).ledger = m.ledger := rfl
@[simp] theorem Mod.tst_ckpt (m : Mod) (f : Test → Test) : (m.tst f).ckpt = m.ckpt := rfl
@[simp] theorem Mod.tst_test (m : Mod) (f : Test → Test) : (m.tst f).test = f m.test := rfl
@[simp] theorem Mod.tst_trace (m : Mod) (f : Test → Test) : (m.tst f).trace = m.trace := rfl
@[simp] theorem Mod.tst_free (m : Mod) (f : Test → Test) : (m.tst f).free = m.free := rfl
@[simp] theorem Mod.tst_rd (m : Mod) (f : Test → Test) (o : Nat) : (m.tst f).rd o = m.rd o := rfl

/-! ## `Mod.mside` -/

@[simp] theorem Mod.mside_regs (m : Mod) (f : MemSide → MemSide) : (m.mside f).regs = m.regs := rfl
@[simp] theorem Mod.mside_live (m : Mod) (f : MemSide → MemSide) : (m.mside f).live = m.live := rfl
@[simp] theorem Mod.mside_gaps (m : Mod) (f : MemSide → MemSide) : (m.mside f).gaps = m.gaps := rfl
@[simp] theorem Mod.mside_resets (m : Mod) (f : MemSide → MemSide) : (m.mside f).resets = m.resets := rfl
@[simp] theorem Mod.mside_mem (m : Mod) (f : MemSide → MemSide) : (m.mside f).mem = m.mem := rfl
@[simp] theorem Mod.mside_heldWrites (m : Mod) (f : MemSide → MemSide) : (m.mside f).heldWrites = m.heldWrites := rfl
@[simp] theorem Mod.mside_accReq (m : Mod) (f : MemSide → MemSide) : (m.mside f).accReq = m.accReq := rfl
@[simp] theorem Mod.mside_arbs (m : Mod) (f : MemSide → MemSide) : (m.mside f).arbs = m.arbs := rfl
@[simp] theorem Mod.mside_flash (m : Mod) (f : MemSide → MemSide) : (m.mside f).flash = m.flash := rfl
@[simp] theorem Mod.mside_doms (m : Mod) (f : MemSide → MemSide) : (m.mside f).doms = m.doms := rfl
@[simp] theorem Mod.mside_recov (m : Mod) (f : MemSide → MemSide) : (m.mside f).recov = m.recov := rfl
@[simp] theorem Mod.mside_sp (m : Mod) (f : MemSide → MemSide) : (m.mside f).sp = m.sp := rfl
@[simp] theorem Mod.mside_power (m : Mod) (f : MemSide → MemSide) : (m.mside f).power = m.power := rfl
@[simp] theorem Mod.mside_boot (m : Mod) (f : MemSide → MemSide) : (m.mside f).boot = m.boot := rfl
@[simp] theorem Mod.mside_mgmt (m : Mod) (f : MemSide → MemSide) : (m.mside f).mgmt = m.mgmt := rfl
@[simp] theorem Mod.mside_queues (m : Mod) (f : MemSide → MemSide) : (m.mside f).queues = m.queues := rfl
@[simp] theorem Mod.mside_reqs (m : Mod) (f : MemSide → MemSide) : (m.mside f).reqs = m.reqs := rfl
@[simp] theorem Mod.mside_arrs (m : Mod) (f : MemSide → MemSide) : (m.mside f).arrs = m.arrs := rfl
@[simp] theorem Mod.mside_fen (m : Mod) (f : MemSide → MemSide) : (m.mside f).fen = m.fen := rfl
@[simp] theorem Mod.mside_stalk (m : Mod) (f : MemSide → MemSide) : (m.mside f).stalk = m.stalk := rfl
@[simp] theorem Mod.mside_memside (m : Mod) (f : MemSide → MemSide) : (m.mside f).memside = f m.memside := rfl
@[simp] theorem Mod.mside_health (m : Mod) (f : MemSide → MemSide) : (m.mside f).health = m.health := rfl
@[simp] theorem Mod.mside_upd (m : Mod) (f : MemSide → MemSide) : (m.mside f).upd = m.upd := rfl
@[simp] theorem Mod.mside_steps (m : Mod) (f : MemSide → MemSide) : (m.mside f).steps = m.steps := rfl
@[simp] theorem Mod.mside_ports (m : Mod) (f : MemSide → MemSide) : (m.mside f).ports = m.ports := rfl
@[simp] theorem Mod.mside_router (m : Mod) (f : MemSide → MemSide) : (m.mside f).router = m.router := rfl
@[simp] theorem Mod.mside_coll (m : Mod) (f : MemSide → MemSide) : (m.mside f).coll = m.coll := rfl
@[simp] theorem Mod.mside_vine (m : Mod) (f : MemSide → MemSide) : (m.mside f).vine = m.vine := rfl
@[simp] theorem Mod.mside_dup (m : Mod) (f : MemSide → MemSide) : (m.mside f).dup = m.dup := rfl
@[simp] theorem Mod.mside_ledger (m : Mod) (f : MemSide → MemSide) : (m.mside f).ledger = m.ledger := rfl
@[simp] theorem Mod.mside_ckpt (m : Mod) (f : MemSide → MemSide) : (m.mside f).ckpt = m.ckpt := rfl
@[simp] theorem Mod.mside_test (m : Mod) (f : MemSide → MemSide) : (m.mside f).test = m.test := rfl
@[simp] theorem Mod.mside_trace (m : Mod) (f : MemSide → MemSide) : (m.mside f).trace = m.trace := rfl
@[simp] theorem Mod.mside_free (m : Mod) (f : MemSide → MemSide) : (m.mside f).free = m.free := rfl
@[simp] theorem Mod.mside_rd (m : Mod) (f : MemSide → MemSide) (o : Nat) : (m.mside f).rd o = m.rd o := rfl

/-! ## `Mod.ldg` -/

@[simp] theorem Mod.ldg_regs (m : Mod) (f : Ledger → Ledger) : (m.ldg f).regs = m.regs := rfl
@[simp] theorem Mod.ldg_live (m : Mod) (f : Ledger → Ledger) : (m.ldg f).live = m.live := rfl
@[simp] theorem Mod.ldg_gaps (m : Mod) (f : Ledger → Ledger) : (m.ldg f).gaps = m.gaps := rfl
@[simp] theorem Mod.ldg_resets (m : Mod) (f : Ledger → Ledger) : (m.ldg f).resets = m.resets := rfl
@[simp] theorem Mod.ldg_mem (m : Mod) (f : Ledger → Ledger) : (m.ldg f).mem = m.mem := rfl
@[simp] theorem Mod.ldg_heldWrites (m : Mod) (f : Ledger → Ledger) : (m.ldg f).heldWrites = m.heldWrites := rfl
@[simp] theorem Mod.ldg_accReq (m : Mod) (f : Ledger → Ledger) : (m.ldg f).accReq = m.accReq := rfl
@[simp] theorem Mod.ldg_arbs (m : Mod) (f : Ledger → Ledger) : (m.ldg f).arbs = m.arbs := rfl
@[simp] theorem Mod.ldg_flash (m : Mod) (f : Ledger → Ledger) : (m.ldg f).flash = m.flash := rfl
@[simp] theorem Mod.ldg_doms (m : Mod) (f : Ledger → Ledger) : (m.ldg f).doms = m.doms := rfl
@[simp] theorem Mod.ldg_recov (m : Mod) (f : Ledger → Ledger) : (m.ldg f).recov = m.recov := rfl
@[simp] theorem Mod.ldg_sp (m : Mod) (f : Ledger → Ledger) : (m.ldg f).sp = m.sp := rfl
@[simp] theorem Mod.ldg_power (m : Mod) (f : Ledger → Ledger) : (m.ldg f).power = m.power := rfl
@[simp] theorem Mod.ldg_boot (m : Mod) (f : Ledger → Ledger) : (m.ldg f).boot = m.boot := rfl
@[simp] theorem Mod.ldg_mgmt (m : Mod) (f : Ledger → Ledger) : (m.ldg f).mgmt = m.mgmt := rfl
@[simp] theorem Mod.ldg_queues (m : Mod) (f : Ledger → Ledger) : (m.ldg f).queues = m.queues := rfl
@[simp] theorem Mod.ldg_reqs (m : Mod) (f : Ledger → Ledger) : (m.ldg f).reqs = m.reqs := rfl
@[simp] theorem Mod.ldg_arrs (m : Mod) (f : Ledger → Ledger) : (m.ldg f).arrs = m.arrs := rfl
@[simp] theorem Mod.ldg_fen (m : Mod) (f : Ledger → Ledger) : (m.ldg f).fen = m.fen := rfl
@[simp] theorem Mod.ldg_stalk (m : Mod) (f : Ledger → Ledger) : (m.ldg f).stalk = m.stalk := rfl
@[simp] theorem Mod.ldg_memside (m : Mod) (f : Ledger → Ledger) : (m.ldg f).memside = m.memside := rfl
@[simp] theorem Mod.ldg_health (m : Mod) (f : Ledger → Ledger) : (m.ldg f).health = m.health := rfl
@[simp] theorem Mod.ldg_upd (m : Mod) (f : Ledger → Ledger) : (m.ldg f).upd = m.upd := rfl
@[simp] theorem Mod.ldg_steps (m : Mod) (f : Ledger → Ledger) : (m.ldg f).steps = m.steps := rfl
@[simp] theorem Mod.ldg_ports (m : Mod) (f : Ledger → Ledger) : (m.ldg f).ports = m.ports := rfl
@[simp] theorem Mod.ldg_router (m : Mod) (f : Ledger → Ledger) : (m.ldg f).router = m.router := rfl
@[simp] theorem Mod.ldg_coll (m : Mod) (f : Ledger → Ledger) : (m.ldg f).coll = m.coll := rfl
@[simp] theorem Mod.ldg_vine (m : Mod) (f : Ledger → Ledger) : (m.ldg f).vine = m.vine := rfl
@[simp] theorem Mod.ldg_dup (m : Mod) (f : Ledger → Ledger) : (m.ldg f).dup = m.dup := rfl
@[simp] theorem Mod.ldg_ledger (m : Mod) (f : Ledger → Ledger) : (m.ldg f).ledger = f m.ledger := rfl
@[simp] theorem Mod.ldg_ckpt (m : Mod) (f : Ledger → Ledger) : (m.ldg f).ckpt = m.ckpt := rfl
@[simp] theorem Mod.ldg_test (m : Mod) (f : Ledger → Ledger) : (m.ldg f).test = m.test := rfl
@[simp] theorem Mod.ldg_trace (m : Mod) (f : Ledger → Ledger) : (m.ldg f).trace = m.trace := rfl
@[simp] theorem Mod.ldg_free (m : Mod) (f : Ledger → Ledger) : (m.ldg f).free = m.free := rfl
@[simp] theorem Mod.ldg_rd (m : Mod) (f : Ledger → Ledger) (o : Nat) : (m.ldg f).rd o = m.rd o := rfl

/-! ## `Mod.pwr` -/

@[simp] theorem Mod.pwr_regs (m : Mod) (f : Power → Power) : (m.pwr f).regs = m.regs := rfl
@[simp] theorem Mod.pwr_live (m : Mod) (f : Power → Power) : (m.pwr f).live = m.live := rfl
@[simp] theorem Mod.pwr_gaps (m : Mod) (f : Power → Power) : (m.pwr f).gaps = m.gaps := rfl
@[simp] theorem Mod.pwr_resets (m : Mod) (f : Power → Power) : (m.pwr f).resets = m.resets := rfl
@[simp] theorem Mod.pwr_mem (m : Mod) (f : Power → Power) : (m.pwr f).mem = m.mem := rfl
@[simp] theorem Mod.pwr_heldWrites (m : Mod) (f : Power → Power) : (m.pwr f).heldWrites = m.heldWrites := rfl
@[simp] theorem Mod.pwr_accReq (m : Mod) (f : Power → Power) : (m.pwr f).accReq = m.accReq := rfl
@[simp] theorem Mod.pwr_arbs (m : Mod) (f : Power → Power) : (m.pwr f).arbs = m.arbs := rfl
@[simp] theorem Mod.pwr_flash (m : Mod) (f : Power → Power) : (m.pwr f).flash = m.flash := rfl
@[simp] theorem Mod.pwr_doms (m : Mod) (f : Power → Power) : (m.pwr f).doms = m.doms := rfl
@[simp] theorem Mod.pwr_recov (m : Mod) (f : Power → Power) : (m.pwr f).recov = m.recov := rfl
@[simp] theorem Mod.pwr_sp (m : Mod) (f : Power → Power) : (m.pwr f).sp = m.sp := rfl
@[simp] theorem Mod.pwr_power (m : Mod) (f : Power → Power) : (m.pwr f).power = f m.power := rfl
@[simp] theorem Mod.pwr_boot (m : Mod) (f : Power → Power) : (m.pwr f).boot = m.boot := rfl
@[simp] theorem Mod.pwr_mgmt (m : Mod) (f : Power → Power) : (m.pwr f).mgmt = m.mgmt := rfl
@[simp] theorem Mod.pwr_queues (m : Mod) (f : Power → Power) : (m.pwr f).queues = m.queues := rfl
@[simp] theorem Mod.pwr_reqs (m : Mod) (f : Power → Power) : (m.pwr f).reqs = m.reqs := rfl
@[simp] theorem Mod.pwr_arrs (m : Mod) (f : Power → Power) : (m.pwr f).arrs = m.arrs := rfl
@[simp] theorem Mod.pwr_fen (m : Mod) (f : Power → Power) : (m.pwr f).fen = m.fen := rfl
@[simp] theorem Mod.pwr_stalk (m : Mod) (f : Power → Power) : (m.pwr f).stalk = m.stalk := rfl
@[simp] theorem Mod.pwr_memside (m : Mod) (f : Power → Power) : (m.pwr f).memside = m.memside := rfl
@[simp] theorem Mod.pwr_health (m : Mod) (f : Power → Power) : (m.pwr f).health = m.health := rfl
@[simp] theorem Mod.pwr_upd (m : Mod) (f : Power → Power) : (m.pwr f).upd = m.upd := rfl
@[simp] theorem Mod.pwr_steps (m : Mod) (f : Power → Power) : (m.pwr f).steps = m.steps := rfl
@[simp] theorem Mod.pwr_ports (m : Mod) (f : Power → Power) : (m.pwr f).ports = m.ports := rfl
@[simp] theorem Mod.pwr_router (m : Mod) (f : Power → Power) : (m.pwr f).router = m.router := rfl
@[simp] theorem Mod.pwr_coll (m : Mod) (f : Power → Power) : (m.pwr f).coll = m.coll := rfl
@[simp] theorem Mod.pwr_vine (m : Mod) (f : Power → Power) : (m.pwr f).vine = m.vine := rfl
@[simp] theorem Mod.pwr_dup (m : Mod) (f : Power → Power) : (m.pwr f).dup = m.dup := rfl
@[simp] theorem Mod.pwr_ledger (m : Mod) (f : Power → Power) : (m.pwr f).ledger = m.ledger := rfl
@[simp] theorem Mod.pwr_ckpt (m : Mod) (f : Power → Power) : (m.pwr f).ckpt = m.ckpt := rfl
@[simp] theorem Mod.pwr_test (m : Mod) (f : Power → Power) : (m.pwr f).test = m.test := rfl
@[simp] theorem Mod.pwr_trace (m : Mod) (f : Power → Power) : (m.pwr f).trace = m.trace := rfl
@[simp] theorem Mod.pwr_free (m : Mod) (f : Power → Power) : (m.pwr f).free = m.free := rfl
@[simp] theorem Mod.pwr_rd (m : Mod) (f : Power → Power) (o : Nat) : (m.pwr f).rd o = m.rd o := rfl

/-! ## `Mod.recovOf` -/

@[simp] theorem Mod.recovOf_regs (m : Mod) (f : Recov → Recov) : (m.recovOf f).regs = m.regs := rfl
@[simp] theorem Mod.recovOf_live (m : Mod) (f : Recov → Recov) : (m.recovOf f).live = m.live := rfl
@[simp] theorem Mod.recovOf_gaps (m : Mod) (f : Recov → Recov) : (m.recovOf f).gaps = m.gaps := rfl
@[simp] theorem Mod.recovOf_resets (m : Mod) (f : Recov → Recov) : (m.recovOf f).resets = m.resets := rfl
@[simp] theorem Mod.recovOf_mem (m : Mod) (f : Recov → Recov) : (m.recovOf f).mem = m.mem := rfl
@[simp] theorem Mod.recovOf_heldWrites (m : Mod) (f : Recov → Recov) : (m.recovOf f).heldWrites = m.heldWrites := rfl
@[simp] theorem Mod.recovOf_accReq (m : Mod) (f : Recov → Recov) : (m.recovOf f).accReq = m.accReq := rfl
@[simp] theorem Mod.recovOf_arbs (m : Mod) (f : Recov → Recov) : (m.recovOf f).arbs = m.arbs := rfl
@[simp] theorem Mod.recovOf_flash (m : Mod) (f : Recov → Recov) : (m.recovOf f).flash = m.flash := rfl
@[simp] theorem Mod.recovOf_doms (m : Mod) (f : Recov → Recov) : (m.recovOf f).doms = m.doms := rfl
@[simp] theorem Mod.recovOf_recov (m : Mod) (f : Recov → Recov) : (m.recovOf f).recov = f m.recov := rfl
@[simp] theorem Mod.recovOf_sp (m : Mod) (f : Recov → Recov) : (m.recovOf f).sp = m.sp := rfl
@[simp] theorem Mod.recovOf_power (m : Mod) (f : Recov → Recov) : (m.recovOf f).power = m.power := rfl
@[simp] theorem Mod.recovOf_boot (m : Mod) (f : Recov → Recov) : (m.recovOf f).boot = m.boot := rfl
@[simp] theorem Mod.recovOf_mgmt (m : Mod) (f : Recov → Recov) : (m.recovOf f).mgmt = m.mgmt := rfl
@[simp] theorem Mod.recovOf_queues (m : Mod) (f : Recov → Recov) : (m.recovOf f).queues = m.queues := rfl
@[simp] theorem Mod.recovOf_reqs (m : Mod) (f : Recov → Recov) : (m.recovOf f).reqs = m.reqs := rfl
@[simp] theorem Mod.recovOf_arrs (m : Mod) (f : Recov → Recov) : (m.recovOf f).arrs = m.arrs := rfl
@[simp] theorem Mod.recovOf_fen (m : Mod) (f : Recov → Recov) : (m.recovOf f).fen = m.fen := rfl
@[simp] theorem Mod.recovOf_stalk (m : Mod) (f : Recov → Recov) : (m.recovOf f).stalk = m.stalk := rfl
@[simp] theorem Mod.recovOf_memside (m : Mod) (f : Recov → Recov) : (m.recovOf f).memside = m.memside := rfl
@[simp] theorem Mod.recovOf_health (m : Mod) (f : Recov → Recov) : (m.recovOf f).health = m.health := rfl
@[simp] theorem Mod.recovOf_upd (m : Mod) (f : Recov → Recov) : (m.recovOf f).upd = m.upd := rfl
@[simp] theorem Mod.recovOf_steps (m : Mod) (f : Recov → Recov) : (m.recovOf f).steps = m.steps := rfl
@[simp] theorem Mod.recovOf_ports (m : Mod) (f : Recov → Recov) : (m.recovOf f).ports = m.ports := rfl
@[simp] theorem Mod.recovOf_router (m : Mod) (f : Recov → Recov) : (m.recovOf f).router = m.router := rfl
@[simp] theorem Mod.recovOf_coll (m : Mod) (f : Recov → Recov) : (m.recovOf f).coll = m.coll := rfl
@[simp] theorem Mod.recovOf_vine (m : Mod) (f : Recov → Recov) : (m.recovOf f).vine = m.vine := rfl
@[simp] theorem Mod.recovOf_dup (m : Mod) (f : Recov → Recov) : (m.recovOf f).dup = m.dup := rfl
@[simp] theorem Mod.recovOf_ledger (m : Mod) (f : Recov → Recov) : (m.recovOf f).ledger = m.ledger := rfl
@[simp] theorem Mod.recovOf_ckpt (m : Mod) (f : Recov → Recov) : (m.recovOf f).ckpt = m.ckpt := rfl
@[simp] theorem Mod.recovOf_test (m : Mod) (f : Recov → Recov) : (m.recovOf f).test = m.test := rfl
@[simp] theorem Mod.recovOf_trace (m : Mod) (f : Recov → Recov) : (m.recovOf f).trace = m.trace := rfl
@[simp] theorem Mod.recovOf_free (m : Mod) (f : Recov → Recov) : (m.recovOf f).free = m.free := rfl
@[simp] theorem Mod.recovOf_rd (m : Mod) (f : Recov → Recov) (o : Nat) : (m.recovOf f).rd o = m.rd o := rfl

/-! ## `Mod.stepsOf` -/

@[simp] theorem Mod.stepsOf_regs (m : Mod) (f : Steps → Steps) : (m.stepsOf f).regs = m.regs := rfl
@[simp] theorem Mod.stepsOf_live (m : Mod) (f : Steps → Steps) : (m.stepsOf f).live = m.live := rfl
@[simp] theorem Mod.stepsOf_gaps (m : Mod) (f : Steps → Steps) : (m.stepsOf f).gaps = m.gaps := rfl
@[simp] theorem Mod.stepsOf_resets (m : Mod) (f : Steps → Steps) : (m.stepsOf f).resets = m.resets := rfl
@[simp] theorem Mod.stepsOf_mem (m : Mod) (f : Steps → Steps) : (m.stepsOf f).mem = m.mem := rfl
@[simp] theorem Mod.stepsOf_heldWrites (m : Mod) (f : Steps → Steps) : (m.stepsOf f).heldWrites = m.heldWrites := rfl
@[simp] theorem Mod.stepsOf_accReq (m : Mod) (f : Steps → Steps) : (m.stepsOf f).accReq = m.accReq := rfl
@[simp] theorem Mod.stepsOf_arbs (m : Mod) (f : Steps → Steps) : (m.stepsOf f).arbs = m.arbs := rfl
@[simp] theorem Mod.stepsOf_flash (m : Mod) (f : Steps → Steps) : (m.stepsOf f).flash = m.flash := rfl
@[simp] theorem Mod.stepsOf_doms (m : Mod) (f : Steps → Steps) : (m.stepsOf f).doms = m.doms := rfl
@[simp] theorem Mod.stepsOf_recov (m : Mod) (f : Steps → Steps) : (m.stepsOf f).recov = m.recov := rfl
@[simp] theorem Mod.stepsOf_sp (m : Mod) (f : Steps → Steps) : (m.stepsOf f).sp = m.sp := rfl
@[simp] theorem Mod.stepsOf_power (m : Mod) (f : Steps → Steps) : (m.stepsOf f).power = m.power := rfl
@[simp] theorem Mod.stepsOf_boot (m : Mod) (f : Steps → Steps) : (m.stepsOf f).boot = m.boot := rfl
@[simp] theorem Mod.stepsOf_mgmt (m : Mod) (f : Steps → Steps) : (m.stepsOf f).mgmt = m.mgmt := rfl
@[simp] theorem Mod.stepsOf_queues (m : Mod) (f : Steps → Steps) : (m.stepsOf f).queues = m.queues := rfl
@[simp] theorem Mod.stepsOf_reqs (m : Mod) (f : Steps → Steps) : (m.stepsOf f).reqs = m.reqs := rfl
@[simp] theorem Mod.stepsOf_arrs (m : Mod) (f : Steps → Steps) : (m.stepsOf f).arrs = m.arrs := rfl
@[simp] theorem Mod.stepsOf_fen (m : Mod) (f : Steps → Steps) : (m.stepsOf f).fen = m.fen := rfl
@[simp] theorem Mod.stepsOf_stalk (m : Mod) (f : Steps → Steps) : (m.stepsOf f).stalk = m.stalk := rfl
@[simp] theorem Mod.stepsOf_memside (m : Mod) (f : Steps → Steps) : (m.stepsOf f).memside = m.memside := rfl
@[simp] theorem Mod.stepsOf_health (m : Mod) (f : Steps → Steps) : (m.stepsOf f).health = m.health := rfl
@[simp] theorem Mod.stepsOf_upd (m : Mod) (f : Steps → Steps) : (m.stepsOf f).upd = m.upd := rfl
@[simp] theorem Mod.stepsOf_steps (m : Mod) (f : Steps → Steps) : (m.stepsOf f).steps = f m.steps := rfl
@[simp] theorem Mod.stepsOf_ports (m : Mod) (f : Steps → Steps) : (m.stepsOf f).ports = m.ports := rfl
@[simp] theorem Mod.stepsOf_router (m : Mod) (f : Steps → Steps) : (m.stepsOf f).router = m.router := rfl
@[simp] theorem Mod.stepsOf_coll (m : Mod) (f : Steps → Steps) : (m.stepsOf f).coll = m.coll := rfl
@[simp] theorem Mod.stepsOf_vine (m : Mod) (f : Steps → Steps) : (m.stepsOf f).vine = m.vine := rfl
@[simp] theorem Mod.stepsOf_dup (m : Mod) (f : Steps → Steps) : (m.stepsOf f).dup = m.dup := rfl
@[simp] theorem Mod.stepsOf_ledger (m : Mod) (f : Steps → Steps) : (m.stepsOf f).ledger = m.ledger := rfl
@[simp] theorem Mod.stepsOf_ckpt (m : Mod) (f : Steps → Steps) : (m.stepsOf f).ckpt = m.ckpt := rfl
@[simp] theorem Mod.stepsOf_test (m : Mod) (f : Steps → Steps) : (m.stepsOf f).test = m.test := rfl
@[simp] theorem Mod.stepsOf_trace (m : Mod) (f : Steps → Steps) : (m.stepsOf f).trace = m.trace := rfl
@[simp] theorem Mod.stepsOf_free (m : Mod) (f : Steps → Steps) : (m.stepsOf f).free = m.free := rfl
@[simp] theorem Mod.stepsOf_rd (m : Mod) (f : Steps → Steps) (o : Nat) : (m.stepsOf f).rd o = m.rd o := rfl

/-! ## `Mod.updOf` -/

@[simp] theorem Mod.updOf_regs (m : Mod) (f : Upd → Upd) : (m.updOf f).regs = m.regs := rfl
@[simp] theorem Mod.updOf_live (m : Mod) (f : Upd → Upd) : (m.updOf f).live = m.live := rfl
@[simp] theorem Mod.updOf_gaps (m : Mod) (f : Upd → Upd) : (m.updOf f).gaps = m.gaps := rfl
@[simp] theorem Mod.updOf_resets (m : Mod) (f : Upd → Upd) : (m.updOf f).resets = m.resets := rfl
@[simp] theorem Mod.updOf_mem (m : Mod) (f : Upd → Upd) : (m.updOf f).mem = m.mem := rfl
@[simp] theorem Mod.updOf_heldWrites (m : Mod) (f : Upd → Upd) : (m.updOf f).heldWrites = m.heldWrites := rfl
@[simp] theorem Mod.updOf_accReq (m : Mod) (f : Upd → Upd) : (m.updOf f).accReq = m.accReq := rfl
@[simp] theorem Mod.updOf_arbs (m : Mod) (f : Upd → Upd) : (m.updOf f).arbs = m.arbs := rfl
@[simp] theorem Mod.updOf_flash (m : Mod) (f : Upd → Upd) : (m.updOf f).flash = m.flash := rfl
@[simp] theorem Mod.updOf_doms (m : Mod) (f : Upd → Upd) : (m.updOf f).doms = m.doms := rfl
@[simp] theorem Mod.updOf_recov (m : Mod) (f : Upd → Upd) : (m.updOf f).recov = m.recov := rfl
@[simp] theorem Mod.updOf_sp (m : Mod) (f : Upd → Upd) : (m.updOf f).sp = m.sp := rfl
@[simp] theorem Mod.updOf_power (m : Mod) (f : Upd → Upd) : (m.updOf f).power = m.power := rfl
@[simp] theorem Mod.updOf_boot (m : Mod) (f : Upd → Upd) : (m.updOf f).boot = m.boot := rfl
@[simp] theorem Mod.updOf_mgmt (m : Mod) (f : Upd → Upd) : (m.updOf f).mgmt = m.mgmt := rfl
@[simp] theorem Mod.updOf_queues (m : Mod) (f : Upd → Upd) : (m.updOf f).queues = m.queues := rfl
@[simp] theorem Mod.updOf_reqs (m : Mod) (f : Upd → Upd) : (m.updOf f).reqs = m.reqs := rfl
@[simp] theorem Mod.updOf_arrs (m : Mod) (f : Upd → Upd) : (m.updOf f).arrs = m.arrs := rfl
@[simp] theorem Mod.updOf_fen (m : Mod) (f : Upd → Upd) : (m.updOf f).fen = m.fen := rfl
@[simp] theorem Mod.updOf_stalk (m : Mod) (f : Upd → Upd) : (m.updOf f).stalk = m.stalk := rfl
@[simp] theorem Mod.updOf_memside (m : Mod) (f : Upd → Upd) : (m.updOf f).memside = m.memside := rfl
@[simp] theorem Mod.updOf_health (m : Mod) (f : Upd → Upd) : (m.updOf f).health = m.health := rfl
@[simp] theorem Mod.updOf_upd (m : Mod) (f : Upd → Upd) : (m.updOf f).upd = f m.upd := rfl
@[simp] theorem Mod.updOf_steps (m : Mod) (f : Upd → Upd) : (m.updOf f).steps = m.steps := rfl
@[simp] theorem Mod.updOf_ports (m : Mod) (f : Upd → Upd) : (m.updOf f).ports = m.ports := rfl
@[simp] theorem Mod.updOf_router (m : Mod) (f : Upd → Upd) : (m.updOf f).router = m.router := rfl
@[simp] theorem Mod.updOf_coll (m : Mod) (f : Upd → Upd) : (m.updOf f).coll = m.coll := rfl
@[simp] theorem Mod.updOf_vine (m : Mod) (f : Upd → Upd) : (m.updOf f).vine = m.vine := rfl
@[simp] theorem Mod.updOf_dup (m : Mod) (f : Upd → Upd) : (m.updOf f).dup = m.dup := rfl
@[simp] theorem Mod.updOf_ledger (m : Mod) (f : Upd → Upd) : (m.updOf f).ledger = m.ledger := rfl
@[simp] theorem Mod.updOf_ckpt (m : Mod) (f : Upd → Upd) : (m.updOf f).ckpt = m.ckpt := rfl
@[simp] theorem Mod.updOf_test (m : Mod) (f : Upd → Upd) : (m.updOf f).test = m.test := rfl
@[simp] theorem Mod.updOf_trace (m : Mod) (f : Upd → Upd) : (m.updOf f).trace = m.trace := rfl
@[simp] theorem Mod.updOf_free (m : Mod) (f : Upd → Upd) : (m.updOf f).free = m.free := rfl
@[simp] theorem Mod.updOf_rd (m : Mod) (f : Upd → Upd) (o : Nat) : (m.updOf f).rd o = m.rd o := rfl

/-! ## `Mod.hltOf` -/

@[simp] theorem Mod.hltOf_regs (m : Mod) (f : Health → Health) : (m.hltOf f).regs = m.regs := rfl
@[simp] theorem Mod.hltOf_live (m : Mod) (f : Health → Health) : (m.hltOf f).live = m.live := rfl
@[simp] theorem Mod.hltOf_gaps (m : Mod) (f : Health → Health) : (m.hltOf f).gaps = m.gaps := rfl
@[simp] theorem Mod.hltOf_resets (m : Mod) (f : Health → Health) : (m.hltOf f).resets = m.resets := rfl
@[simp] theorem Mod.hltOf_mem (m : Mod) (f : Health → Health) : (m.hltOf f).mem = m.mem := rfl
@[simp] theorem Mod.hltOf_heldWrites (m : Mod) (f : Health → Health) : (m.hltOf f).heldWrites = m.heldWrites := rfl
@[simp] theorem Mod.hltOf_accReq (m : Mod) (f : Health → Health) : (m.hltOf f).accReq = m.accReq := rfl
@[simp] theorem Mod.hltOf_arbs (m : Mod) (f : Health → Health) : (m.hltOf f).arbs = m.arbs := rfl
@[simp] theorem Mod.hltOf_flash (m : Mod) (f : Health → Health) : (m.hltOf f).flash = m.flash := rfl
@[simp] theorem Mod.hltOf_doms (m : Mod) (f : Health → Health) : (m.hltOf f).doms = m.doms := rfl
@[simp] theorem Mod.hltOf_recov (m : Mod) (f : Health → Health) : (m.hltOf f).recov = m.recov := rfl
@[simp] theorem Mod.hltOf_sp (m : Mod) (f : Health → Health) : (m.hltOf f).sp = m.sp := rfl
@[simp] theorem Mod.hltOf_power (m : Mod) (f : Health → Health) : (m.hltOf f).power = m.power := rfl
@[simp] theorem Mod.hltOf_boot (m : Mod) (f : Health → Health) : (m.hltOf f).boot = m.boot := rfl
@[simp] theorem Mod.hltOf_mgmt (m : Mod) (f : Health → Health) : (m.hltOf f).mgmt = m.mgmt := rfl
@[simp] theorem Mod.hltOf_queues (m : Mod) (f : Health → Health) : (m.hltOf f).queues = m.queues := rfl
@[simp] theorem Mod.hltOf_reqs (m : Mod) (f : Health → Health) : (m.hltOf f).reqs = m.reqs := rfl
@[simp] theorem Mod.hltOf_arrs (m : Mod) (f : Health → Health) : (m.hltOf f).arrs = m.arrs := rfl
@[simp] theorem Mod.hltOf_fen (m : Mod) (f : Health → Health) : (m.hltOf f).fen = m.fen := rfl
@[simp] theorem Mod.hltOf_stalk (m : Mod) (f : Health → Health) : (m.hltOf f).stalk = m.stalk := rfl
@[simp] theorem Mod.hltOf_memside (m : Mod) (f : Health → Health) : (m.hltOf f).memside = m.memside := rfl
@[simp] theorem Mod.hltOf_health (m : Mod) (f : Health → Health) : (m.hltOf f).health = f m.health := rfl
@[simp] theorem Mod.hltOf_upd (m : Mod) (f : Health → Health) : (m.hltOf f).upd = m.upd := rfl
@[simp] theorem Mod.hltOf_steps (m : Mod) (f : Health → Health) : (m.hltOf f).steps = m.steps := rfl
@[simp] theorem Mod.hltOf_ports (m : Mod) (f : Health → Health) : (m.hltOf f).ports = m.ports := rfl
@[simp] theorem Mod.hltOf_router (m : Mod) (f : Health → Health) : (m.hltOf f).router = m.router := rfl
@[simp] theorem Mod.hltOf_coll (m : Mod) (f : Health → Health) : (m.hltOf f).coll = m.coll := rfl
@[simp] theorem Mod.hltOf_vine (m : Mod) (f : Health → Health) : (m.hltOf f).vine = m.vine := rfl
@[simp] theorem Mod.hltOf_dup (m : Mod) (f : Health → Health) : (m.hltOf f).dup = m.dup := rfl
@[simp] theorem Mod.hltOf_ledger (m : Mod) (f : Health → Health) : (m.hltOf f).ledger = m.ledger := rfl
@[simp] theorem Mod.hltOf_ckpt (m : Mod) (f : Health → Health) : (m.hltOf f).ckpt = m.ckpt := rfl
@[simp] theorem Mod.hltOf_test (m : Mod) (f : Health → Health) : (m.hltOf f).test = m.test := rfl
@[simp] theorem Mod.hltOf_trace (m : Mod) (f : Health → Health) : (m.hltOf f).trace = m.trace := rfl
@[simp] theorem Mod.hltOf_free (m : Mod) (f : Health → Health) : (m.hltOf f).free = m.free := rfl
@[simp] theorem Mod.hltOf_rd (m : Mod) (f : Health → Health) (o : Nat) : (m.hltOf f).rd o = m.rd o := rfl

/-! ## `Mod.vineOf` -/

@[simp] theorem Mod.vineOf_regs (m : Mod) (f : Vine → Vine) : (m.vineOf f).regs = m.regs := rfl
@[simp] theorem Mod.vineOf_live (m : Mod) (f : Vine → Vine) : (m.vineOf f).live = m.live := rfl
@[simp] theorem Mod.vineOf_gaps (m : Mod) (f : Vine → Vine) : (m.vineOf f).gaps = m.gaps := rfl
@[simp] theorem Mod.vineOf_resets (m : Mod) (f : Vine → Vine) : (m.vineOf f).resets = m.resets := rfl
@[simp] theorem Mod.vineOf_mem (m : Mod) (f : Vine → Vine) : (m.vineOf f).mem = m.mem := rfl
@[simp] theorem Mod.vineOf_heldWrites (m : Mod) (f : Vine → Vine) : (m.vineOf f).heldWrites = m.heldWrites := rfl
@[simp] theorem Mod.vineOf_accReq (m : Mod) (f : Vine → Vine) : (m.vineOf f).accReq = m.accReq := rfl
@[simp] theorem Mod.vineOf_arbs (m : Mod) (f : Vine → Vine) : (m.vineOf f).arbs = m.arbs := rfl
@[simp] theorem Mod.vineOf_flash (m : Mod) (f : Vine → Vine) : (m.vineOf f).flash = m.flash := rfl
@[simp] theorem Mod.vineOf_doms (m : Mod) (f : Vine → Vine) : (m.vineOf f).doms = m.doms := rfl
@[simp] theorem Mod.vineOf_recov (m : Mod) (f : Vine → Vine) : (m.vineOf f).recov = m.recov := rfl
@[simp] theorem Mod.vineOf_sp (m : Mod) (f : Vine → Vine) : (m.vineOf f).sp = m.sp := rfl
@[simp] theorem Mod.vineOf_power (m : Mod) (f : Vine → Vine) : (m.vineOf f).power = m.power := rfl
@[simp] theorem Mod.vineOf_boot (m : Mod) (f : Vine → Vine) : (m.vineOf f).boot = m.boot := rfl
@[simp] theorem Mod.vineOf_mgmt (m : Mod) (f : Vine → Vine) : (m.vineOf f).mgmt = m.mgmt := rfl
@[simp] theorem Mod.vineOf_queues (m : Mod) (f : Vine → Vine) : (m.vineOf f).queues = m.queues := rfl
@[simp] theorem Mod.vineOf_reqs (m : Mod) (f : Vine → Vine) : (m.vineOf f).reqs = m.reqs := rfl
@[simp] theorem Mod.vineOf_arrs (m : Mod) (f : Vine → Vine) : (m.vineOf f).arrs = m.arrs := rfl
@[simp] theorem Mod.vineOf_fen (m : Mod) (f : Vine → Vine) : (m.vineOf f).fen = m.fen := rfl
@[simp] theorem Mod.vineOf_stalk (m : Mod) (f : Vine → Vine) : (m.vineOf f).stalk = m.stalk := rfl
@[simp] theorem Mod.vineOf_memside (m : Mod) (f : Vine → Vine) : (m.vineOf f).memside = m.memside := rfl
@[simp] theorem Mod.vineOf_health (m : Mod) (f : Vine → Vine) : (m.vineOf f).health = m.health := rfl
@[simp] theorem Mod.vineOf_upd (m : Mod) (f : Vine → Vine) : (m.vineOf f).upd = m.upd := rfl
@[simp] theorem Mod.vineOf_steps (m : Mod) (f : Vine → Vine) : (m.vineOf f).steps = m.steps := rfl
@[simp] theorem Mod.vineOf_ports (m : Mod) (f : Vine → Vine) : (m.vineOf f).ports = m.ports := rfl
@[simp] theorem Mod.vineOf_router (m : Mod) (f : Vine → Vine) : (m.vineOf f).router = m.router := rfl
@[simp] theorem Mod.vineOf_coll (m : Mod) (f : Vine → Vine) : (m.vineOf f).coll = m.coll := rfl
@[simp] theorem Mod.vineOf_vine (m : Mod) (f : Vine → Vine) : (m.vineOf f).vine = f m.vine := rfl
@[simp] theorem Mod.vineOf_dup (m : Mod) (f : Vine → Vine) : (m.vineOf f).dup = m.dup := rfl
@[simp] theorem Mod.vineOf_ledger (m : Mod) (f : Vine → Vine) : (m.vineOf f).ledger = m.ledger := rfl
@[simp] theorem Mod.vineOf_ckpt (m : Mod) (f : Vine → Vine) : (m.vineOf f).ckpt = m.ckpt := rfl
@[simp] theorem Mod.vineOf_test (m : Mod) (f : Vine → Vine) : (m.vineOf f).test = m.test := rfl
@[simp] theorem Mod.vineOf_trace (m : Mod) (f : Vine → Vine) : (m.vineOf f).trace = m.trace := rfl
@[simp] theorem Mod.vineOf_free (m : Mod) (f : Vine → Vine) : (m.vineOf f).free = m.free := rfl
@[simp] theorem Mod.vineOf_rd (m : Mod) (f : Vine → Vine) (o : Nat) : (m.vineOf f).rd o = m.rd o := rfl

/-! ## `Mod.wr` -/

@[simp] theorem Mod.wr_live (m : Mod) (o : Nat) (v : Word) : (m.wr o v).live = m.live := rfl
@[simp] theorem Mod.wr_gaps (m : Mod) (o : Nat) (v : Word) : (m.wr o v).gaps = m.gaps := rfl
@[simp] theorem Mod.wr_resets (m : Mod) (o : Nat) (v : Word) : (m.wr o v).resets = m.resets := rfl
@[simp] theorem Mod.wr_mem (m : Mod) (o : Nat) (v : Word) : (m.wr o v).mem = m.mem := rfl
@[simp] theorem Mod.wr_heldWrites (m : Mod) (o : Nat) (v : Word) : (m.wr o v).heldWrites = m.heldWrites := rfl
@[simp] theorem Mod.wr_accReq (m : Mod) (o : Nat) (v : Word) : (m.wr o v).accReq = m.accReq := rfl
@[simp] theorem Mod.wr_arbs (m : Mod) (o : Nat) (v : Word) : (m.wr o v).arbs = m.arbs := rfl
@[simp] theorem Mod.wr_flash (m : Mod) (o : Nat) (v : Word) : (m.wr o v).flash = m.flash := rfl
@[simp] theorem Mod.wr_doms (m : Mod) (o : Nat) (v : Word) : (m.wr o v).doms = m.doms := rfl
@[simp] theorem Mod.wr_recov (m : Mod) (o : Nat) (v : Word) : (m.wr o v).recov = m.recov := rfl
@[simp] theorem Mod.wr_sp (m : Mod) (o : Nat) (v : Word) : (m.wr o v).sp = m.sp := rfl
@[simp] theorem Mod.wr_power (m : Mod) (o : Nat) (v : Word) : (m.wr o v).power = m.power := rfl
@[simp] theorem Mod.wr_boot (m : Mod) (o : Nat) (v : Word) : (m.wr o v).boot = m.boot := rfl
@[simp] theorem Mod.wr_mgmt (m : Mod) (o : Nat) (v : Word) : (m.wr o v).mgmt = m.mgmt := rfl
@[simp] theorem Mod.wr_queues (m : Mod) (o : Nat) (v : Word) : (m.wr o v).queues = m.queues := rfl
@[simp] theorem Mod.wr_reqs (m : Mod) (o : Nat) (v : Word) : (m.wr o v).reqs = m.reqs := rfl
@[simp] theorem Mod.wr_arrs (m : Mod) (o : Nat) (v : Word) : (m.wr o v).arrs = m.arrs := rfl
@[simp] theorem Mod.wr_fen (m : Mod) (o : Nat) (v : Word) : (m.wr o v).fen = m.fen := rfl
@[simp] theorem Mod.wr_stalk (m : Mod) (o : Nat) (v : Word) : (m.wr o v).stalk = m.stalk := rfl
@[simp] theorem Mod.wr_memside (m : Mod) (o : Nat) (v : Word) : (m.wr o v).memside = m.memside := rfl
@[simp] theorem Mod.wr_health (m : Mod) (o : Nat) (v : Word) : (m.wr o v).health = m.health := rfl
@[simp] theorem Mod.wr_upd (m : Mod) (o : Nat) (v : Word) : (m.wr o v).upd = m.upd := rfl
@[simp] theorem Mod.wr_steps (m : Mod) (o : Nat) (v : Word) : (m.wr o v).steps = m.steps := rfl
@[simp] theorem Mod.wr_ports (m : Mod) (o : Nat) (v : Word) : (m.wr o v).ports = m.ports := rfl
@[simp] theorem Mod.wr_router (m : Mod) (o : Nat) (v : Word) : (m.wr o v).router = m.router := rfl
@[simp] theorem Mod.wr_coll (m : Mod) (o : Nat) (v : Word) : (m.wr o v).coll = m.coll := rfl
@[simp] theorem Mod.wr_vine (m : Mod) (o : Nat) (v : Word) : (m.wr o v).vine = m.vine := rfl
@[simp] theorem Mod.wr_dup (m : Mod) (o : Nat) (v : Word) : (m.wr o v).dup = m.dup := rfl
@[simp] theorem Mod.wr_ledger (m : Mod) (o : Nat) (v : Word) : (m.wr o v).ledger = m.ledger := rfl
@[simp] theorem Mod.wr_ckpt (m : Mod) (o : Nat) (v : Word) : (m.wr o v).ckpt = m.ckpt := rfl
@[simp] theorem Mod.wr_test (m : Mod) (o : Nat) (v : Word) : (m.wr o v).test = m.test := rfl
@[simp] theorem Mod.wr_trace (m : Mod) (o : Nat) (v : Word) : (m.wr o v).trace = m.trace := rfl
@[simp] theorem Mod.wr_free (m : Mod) (o : Nat) (v : Word) : (m.wr o v).free = m.free := rfl

/-! ## `Mod.set` -/

@[simp] theorem Mod.set_live (m : Mod) (f : Field) (n : Nat) : (m.set f n).live = m.live := rfl
@[simp] theorem Mod.set_gaps (m : Mod) (f : Field) (n : Nat) : (m.set f n).gaps = m.gaps := rfl
@[simp] theorem Mod.set_resets (m : Mod) (f : Field) (n : Nat) : (m.set f n).resets = m.resets := rfl
@[simp] theorem Mod.set_mem (m : Mod) (f : Field) (n : Nat) : (m.set f n).mem = m.mem := rfl
@[simp] theorem Mod.set_heldWrites (m : Mod) (f : Field) (n : Nat) : (m.set f n).heldWrites = m.heldWrites := rfl
@[simp] theorem Mod.set_accReq (m : Mod) (f : Field) (n : Nat) : (m.set f n).accReq = m.accReq := rfl
@[simp] theorem Mod.set_arbs (m : Mod) (f : Field) (n : Nat) : (m.set f n).arbs = m.arbs := rfl
@[simp] theorem Mod.set_flash (m : Mod) (f : Field) (n : Nat) : (m.set f n).flash = m.flash := rfl
@[simp] theorem Mod.set_doms (m : Mod) (f : Field) (n : Nat) : (m.set f n).doms = m.doms := rfl
@[simp] theorem Mod.set_recov (m : Mod) (f : Field) (n : Nat) : (m.set f n).recov = m.recov := rfl
@[simp] theorem Mod.set_sp (m : Mod) (f : Field) (n : Nat) : (m.set f n).sp = m.sp := rfl
@[simp] theorem Mod.set_power (m : Mod) (f : Field) (n : Nat) : (m.set f n).power = m.power := rfl
@[simp] theorem Mod.set_boot (m : Mod) (f : Field) (n : Nat) : (m.set f n).boot = m.boot := rfl
@[simp] theorem Mod.set_mgmt (m : Mod) (f : Field) (n : Nat) : (m.set f n).mgmt = m.mgmt := rfl
@[simp] theorem Mod.set_queues (m : Mod) (f : Field) (n : Nat) : (m.set f n).queues = m.queues := rfl
@[simp] theorem Mod.set_reqs (m : Mod) (f : Field) (n : Nat) : (m.set f n).reqs = m.reqs := rfl
@[simp] theorem Mod.set_arrs (m : Mod) (f : Field) (n : Nat) : (m.set f n).arrs = m.arrs := rfl
@[simp] theorem Mod.set_fen (m : Mod) (f : Field) (n : Nat) : (m.set f n).fen = m.fen := rfl
@[simp] theorem Mod.set_stalk (m : Mod) (f : Field) (n : Nat) : (m.set f n).stalk = m.stalk := rfl
@[simp] theorem Mod.set_memside (m : Mod) (f : Field) (n : Nat) : (m.set f n).memside = m.memside := rfl
@[simp] theorem Mod.set_health (m : Mod) (f : Field) (n : Nat) : (m.set f n).health = m.health := rfl
@[simp] theorem Mod.set_upd (m : Mod) (f : Field) (n : Nat) : (m.set f n).upd = m.upd := rfl
@[simp] theorem Mod.set_steps (m : Mod) (f : Field) (n : Nat) : (m.set f n).steps = m.steps := rfl
@[simp] theorem Mod.set_ports (m : Mod) (f : Field) (n : Nat) : (m.set f n).ports = m.ports := rfl
@[simp] theorem Mod.set_router (m : Mod) (f : Field) (n : Nat) : (m.set f n).router = m.router := rfl
@[simp] theorem Mod.set_coll (m : Mod) (f : Field) (n : Nat) : (m.set f n).coll = m.coll := rfl
@[simp] theorem Mod.set_vine (m : Mod) (f : Field) (n : Nat) : (m.set f n).vine = m.vine := rfl
@[simp] theorem Mod.set_dup (m : Mod) (f : Field) (n : Nat) : (m.set f n).dup = m.dup := rfl
@[simp] theorem Mod.set_ledger (m : Mod) (f : Field) (n : Nat) : (m.set f n).ledger = m.ledger := rfl
@[simp] theorem Mod.set_ckpt (m : Mod) (f : Field) (n : Nat) : (m.set f n).ckpt = m.ckpt := rfl
@[simp] theorem Mod.set_test (m : Mod) (f : Field) (n : Nat) : (m.set f n).test = m.test := rfl
@[simp] theorem Mod.set_trace (m : Mod) (f : Field) (n : Nat) : (m.set f n).trace = m.trace := rfl
@[simp] theorem Mod.set_free (m : Mod) (f : Field) (n : Nat) : (m.set f n).free = m.free := rfl

/-! ## `Mod.lset` -/

@[simp] theorem Mod.lset_regs (m : Mod) (o n : Nat) : (m.lset o n).regs = m.regs := rfl
@[simp] theorem Mod.lset_gaps (m : Mod) (o n : Nat) : (m.lset o n).gaps = m.gaps := rfl
@[simp] theorem Mod.lset_resets (m : Mod) (o n : Nat) : (m.lset o n).resets = m.resets := rfl
@[simp] theorem Mod.lset_mem (m : Mod) (o n : Nat) : (m.lset o n).mem = m.mem := rfl
@[simp] theorem Mod.lset_heldWrites (m : Mod) (o n : Nat) : (m.lset o n).heldWrites = m.heldWrites := rfl
@[simp] theorem Mod.lset_accReq (m : Mod) (o n : Nat) : (m.lset o n).accReq = m.accReq := rfl
@[simp] theorem Mod.lset_arbs (m : Mod) (o n : Nat) : (m.lset o n).arbs = m.arbs := rfl
@[simp] theorem Mod.lset_flash (m : Mod) (o n : Nat) : (m.lset o n).flash = m.flash := rfl
@[simp] theorem Mod.lset_doms (m : Mod) (o n : Nat) : (m.lset o n).doms = m.doms := rfl
@[simp] theorem Mod.lset_recov (m : Mod) (o n : Nat) : (m.lset o n).recov = m.recov := rfl
@[simp] theorem Mod.lset_sp (m : Mod) (o n : Nat) : (m.lset o n).sp = m.sp := rfl
@[simp] theorem Mod.lset_power (m : Mod) (o n : Nat) : (m.lset o n).power = m.power := rfl
@[simp] theorem Mod.lset_boot (m : Mod) (o n : Nat) : (m.lset o n).boot = m.boot := rfl
@[simp] theorem Mod.lset_mgmt (m : Mod) (o n : Nat) : (m.lset o n).mgmt = m.mgmt := rfl
@[simp] theorem Mod.lset_queues (m : Mod) (o n : Nat) : (m.lset o n).queues = m.queues := rfl
@[simp] theorem Mod.lset_reqs (m : Mod) (o n : Nat) : (m.lset o n).reqs = m.reqs := rfl
@[simp] theorem Mod.lset_arrs (m : Mod) (o n : Nat) : (m.lset o n).arrs = m.arrs := rfl
@[simp] theorem Mod.lset_fen (m : Mod) (o n : Nat) : (m.lset o n).fen = m.fen := rfl
@[simp] theorem Mod.lset_stalk (m : Mod) (o n : Nat) : (m.lset o n).stalk = m.stalk := rfl
@[simp] theorem Mod.lset_memside (m : Mod) (o n : Nat) : (m.lset o n).memside = m.memside := rfl
@[simp] theorem Mod.lset_health (m : Mod) (o n : Nat) : (m.lset o n).health = m.health := rfl
@[simp] theorem Mod.lset_upd (m : Mod) (o n : Nat) : (m.lset o n).upd = m.upd := rfl
@[simp] theorem Mod.lset_steps (m : Mod) (o n : Nat) : (m.lset o n).steps = m.steps := rfl
@[simp] theorem Mod.lset_ports (m : Mod) (o n : Nat) : (m.lset o n).ports = m.ports := rfl
@[simp] theorem Mod.lset_router (m : Mod) (o n : Nat) : (m.lset o n).router = m.router := rfl
@[simp] theorem Mod.lset_coll (m : Mod) (o n : Nat) : (m.lset o n).coll = m.coll := rfl
@[simp] theorem Mod.lset_vine (m : Mod) (o n : Nat) : (m.lset o n).vine = m.vine := rfl
@[simp] theorem Mod.lset_dup (m : Mod) (o n : Nat) : (m.lset o n).dup = m.dup := rfl
@[simp] theorem Mod.lset_ledger (m : Mod) (o n : Nat) : (m.lset o n).ledger = m.ledger := rfl
@[simp] theorem Mod.lset_ckpt (m : Mod) (o n : Nat) : (m.lset o n).ckpt = m.ckpt := rfl
@[simp] theorem Mod.lset_test (m : Mod) (o n : Nat) : (m.lset o n).test = m.test := rfl
@[simp] theorem Mod.lset_trace (m : Mod) (o n : Nat) : (m.lset o n).trace = m.trace := rfl
@[simp] theorem Mod.lset_free (m : Mod) (o n : Nat) : (m.lset o n).free = m.free := rfl
@[simp] theorem Mod.lset_rd (m : Mod) (o n : Nat) (o' : Nat) : (m.lset o n).rd o' = m.rd o' := rfl

/-! ## `Mod.count` -/

@[simp] theorem Mod.count_regs (m : Mod) (o n : Nat) : (m.count o n).regs = m.regs := rfl
@[simp] theorem Mod.count_gaps (m : Mod) (o n : Nat) : (m.count o n).gaps = m.gaps := rfl
@[simp] theorem Mod.count_resets (m : Mod) (o n : Nat) : (m.count o n).resets = m.resets := rfl
@[simp] theorem Mod.count_mem (m : Mod) (o n : Nat) : (m.count o n).mem = m.mem := rfl
@[simp] theorem Mod.count_heldWrites (m : Mod) (o n : Nat) : (m.count o n).heldWrites = m.heldWrites := rfl
@[simp] theorem Mod.count_accReq (m : Mod) (o n : Nat) : (m.count o n).accReq = m.accReq := rfl
@[simp] theorem Mod.count_arbs (m : Mod) (o n : Nat) : (m.count o n).arbs = m.arbs := rfl
@[simp] theorem Mod.count_flash (m : Mod) (o n : Nat) : (m.count o n).flash = m.flash := rfl
@[simp] theorem Mod.count_doms (m : Mod) (o n : Nat) : (m.count o n).doms = m.doms := rfl
@[simp] theorem Mod.count_recov (m : Mod) (o n : Nat) : (m.count o n).recov = m.recov := rfl
@[simp] theorem Mod.count_sp (m : Mod) (o n : Nat) : (m.count o n).sp = m.sp := rfl
@[simp] theorem Mod.count_power (m : Mod) (o n : Nat) : (m.count o n).power = m.power := rfl
@[simp] theorem Mod.count_boot (m : Mod) (o n : Nat) : (m.count o n).boot = m.boot := rfl
@[simp] theorem Mod.count_mgmt (m : Mod) (o n : Nat) : (m.count o n).mgmt = m.mgmt := rfl
@[simp] theorem Mod.count_queues (m : Mod) (o n : Nat) : (m.count o n).queues = m.queues := rfl
@[simp] theorem Mod.count_reqs (m : Mod) (o n : Nat) : (m.count o n).reqs = m.reqs := rfl
@[simp] theorem Mod.count_arrs (m : Mod) (o n : Nat) : (m.count o n).arrs = m.arrs := rfl
@[simp] theorem Mod.count_fen (m : Mod) (o n : Nat) : (m.count o n).fen = m.fen := rfl
@[simp] theorem Mod.count_stalk (m : Mod) (o n : Nat) : (m.count o n).stalk = m.stalk := rfl
@[simp] theorem Mod.count_memside (m : Mod) (o n : Nat) : (m.count o n).memside = m.memside := rfl
@[simp] theorem Mod.count_health (m : Mod) (o n : Nat) : (m.count o n).health = m.health := rfl
@[simp] theorem Mod.count_upd (m : Mod) (o n : Nat) : (m.count o n).upd = m.upd := rfl
@[simp] theorem Mod.count_steps (m : Mod) (o n : Nat) : (m.count o n).steps = m.steps := rfl
@[simp] theorem Mod.count_ports (m : Mod) (o n : Nat) : (m.count o n).ports = m.ports := rfl
@[simp] theorem Mod.count_router (m : Mod) (o n : Nat) : (m.count o n).router = m.router := rfl
@[simp] theorem Mod.count_coll (m : Mod) (o n : Nat) : (m.count o n).coll = m.coll := rfl
@[simp] theorem Mod.count_vine (m : Mod) (o n : Nat) : (m.count o n).vine = m.vine := rfl
@[simp] theorem Mod.count_dup (m : Mod) (o n : Nat) : (m.count o n).dup = m.dup := rfl
@[simp] theorem Mod.count_ledger (m : Mod) (o n : Nat) : (m.count o n).ledger = m.ledger := rfl
@[simp] theorem Mod.count_ckpt (m : Mod) (o n : Nat) : (m.count o n).ckpt = m.ckpt := rfl
@[simp] theorem Mod.count_test (m : Mod) (o n : Nat) : (m.count o n).test = m.test := rfl
@[simp] theorem Mod.count_trace (m : Mod) (o n : Nat) : (m.count o n).trace = m.trace := rfl
@[simp] theorem Mod.count_free (m : Mod) (o n : Nat) : (m.count o n).free = m.free := rfl
@[simp] theorem Mod.count_rd (m : Mod) (o n : Nat) (o' : Nat) : (m.count o n).rd o' = m.rd o' := rfl

/-! ## `Mod.setPort` -/

@[simp] theorem Mod.setPort_regs (m : Mod) (p : Nat) (x : Port) : (m.setPort p x).regs = m.regs := rfl
@[simp] theorem Mod.setPort_live (m : Mod) (p : Nat) (x : Port) : (m.setPort p x).live = m.live := rfl
@[simp] theorem Mod.setPort_gaps (m : Mod) (p : Nat) (x : Port) : (m.setPort p x).gaps = m.gaps := rfl
@[simp] theorem Mod.setPort_resets (m : Mod) (p : Nat) (x : Port) : (m.setPort p x).resets = m.resets := rfl
@[simp] theorem Mod.setPort_mem (m : Mod) (p : Nat) (x : Port) : (m.setPort p x).mem = m.mem := rfl
@[simp] theorem Mod.setPort_heldWrites (m : Mod) (p : Nat) (x : Port) : (m.setPort p x).heldWrites = m.heldWrites := rfl
@[simp] theorem Mod.setPort_accReq (m : Mod) (p : Nat) (x : Port) : (m.setPort p x).accReq = m.accReq := rfl
@[simp] theorem Mod.setPort_arbs (m : Mod) (p : Nat) (x : Port) : (m.setPort p x).arbs = m.arbs := rfl
@[simp] theorem Mod.setPort_flash (m : Mod) (p : Nat) (x : Port) : (m.setPort p x).flash = m.flash := rfl
@[simp] theorem Mod.setPort_doms (m : Mod) (p : Nat) (x : Port) : (m.setPort p x).doms = m.doms := rfl
@[simp] theorem Mod.setPort_recov (m : Mod) (p : Nat) (x : Port) : (m.setPort p x).recov = m.recov := rfl
@[simp] theorem Mod.setPort_sp (m : Mod) (p : Nat) (x : Port) : (m.setPort p x).sp = m.sp := rfl
@[simp] theorem Mod.setPort_power (m : Mod) (p : Nat) (x : Port) : (m.setPort p x).power = m.power := rfl
@[simp] theorem Mod.setPort_boot (m : Mod) (p : Nat) (x : Port) : (m.setPort p x).boot = m.boot := rfl
@[simp] theorem Mod.setPort_mgmt (m : Mod) (p : Nat) (x : Port) : (m.setPort p x).mgmt = m.mgmt := rfl
@[simp] theorem Mod.setPort_queues (m : Mod) (p : Nat) (x : Port) : (m.setPort p x).queues = m.queues := rfl
@[simp] theorem Mod.setPort_reqs (m : Mod) (p : Nat) (x : Port) : (m.setPort p x).reqs = m.reqs := rfl
@[simp] theorem Mod.setPort_arrs (m : Mod) (p : Nat) (x : Port) : (m.setPort p x).arrs = m.arrs := rfl
@[simp] theorem Mod.setPort_fen (m : Mod) (p : Nat) (x : Port) : (m.setPort p x).fen = m.fen := rfl
@[simp] theorem Mod.setPort_stalk (m : Mod) (p : Nat) (x : Port) : (m.setPort p x).stalk = m.stalk := rfl
@[simp] theorem Mod.setPort_memside (m : Mod) (p : Nat) (x : Port) : (m.setPort p x).memside = m.memside := rfl
@[simp] theorem Mod.setPort_health (m : Mod) (p : Nat) (x : Port) : (m.setPort p x).health = m.health := rfl
@[simp] theorem Mod.setPort_upd (m : Mod) (p : Nat) (x : Port) : (m.setPort p x).upd = m.upd := rfl
@[simp] theorem Mod.setPort_steps (m : Mod) (p : Nat) (x : Port) : (m.setPort p x).steps = m.steps := rfl
@[simp] theorem Mod.setPort_router (m : Mod) (p : Nat) (x : Port) : (m.setPort p x).router = m.router := rfl
@[simp] theorem Mod.setPort_coll (m : Mod) (p : Nat) (x : Port) : (m.setPort p x).coll = m.coll := rfl
@[simp] theorem Mod.setPort_vine (m : Mod) (p : Nat) (x : Port) : (m.setPort p x).vine = m.vine := rfl
@[simp] theorem Mod.setPort_dup (m : Mod) (p : Nat) (x : Port) : (m.setPort p x).dup = m.dup := rfl
@[simp] theorem Mod.setPort_ledger (m : Mod) (p : Nat) (x : Port) : (m.setPort p x).ledger = m.ledger := rfl
@[simp] theorem Mod.setPort_ckpt (m : Mod) (p : Nat) (x : Port) : (m.setPort p x).ckpt = m.ckpt := rfl
@[simp] theorem Mod.setPort_test (m : Mod) (p : Nat) (x : Port) : (m.setPort p x).test = m.test := rfl
@[simp] theorem Mod.setPort_trace (m : Mod) (p : Nat) (x : Port) : (m.setPort p x).trace = m.trace := rfl
@[simp] theorem Mod.setPort_free (m : Mod) (p : Nat) (x : Port) : (m.setPort p x).free = m.free := rfl
@[simp] theorem Mod.setPort_rd (m : Mod) (p : Nat) (x : Port) (o' : Nat) : (m.setPort p x).rd o' = m.rd o' := rfl

/-! ## `Mod.setQueue` -/

@[simp] theorem Mod.setQueue_regs (m : Mod) (n q : Nat) (x : Queue) : (m.setQueue n q x).regs = m.regs := rfl
@[simp] theorem Mod.setQueue_live (m : Mod) (n q : Nat) (x : Queue) : (m.setQueue n q x).live = m.live := rfl
@[simp] theorem Mod.setQueue_gaps (m : Mod) (n q : Nat) (x : Queue) : (m.setQueue n q x).gaps = m.gaps := rfl
@[simp] theorem Mod.setQueue_resets (m : Mod) (n q : Nat) (x : Queue) : (m.setQueue n q x).resets = m.resets := rfl
@[simp] theorem Mod.setQueue_mem (m : Mod) (n q : Nat) (x : Queue) : (m.setQueue n q x).mem = m.mem := rfl
@[simp] theorem Mod.setQueue_heldWrites (m : Mod) (n q : Nat) (x : Queue) : (m.setQueue n q x).heldWrites = m.heldWrites := rfl
@[simp] theorem Mod.setQueue_accReq (m : Mod) (n q : Nat) (x : Queue) : (m.setQueue n q x).accReq = m.accReq := rfl
@[simp] theorem Mod.setQueue_arbs (m : Mod) (n q : Nat) (x : Queue) : (m.setQueue n q x).arbs = m.arbs := rfl
@[simp] theorem Mod.setQueue_flash (m : Mod) (n q : Nat) (x : Queue) : (m.setQueue n q x).flash = m.flash := rfl
@[simp] theorem Mod.setQueue_doms (m : Mod) (n q : Nat) (x : Queue) : (m.setQueue n q x).doms = m.doms := rfl
@[simp] theorem Mod.setQueue_recov (m : Mod) (n q : Nat) (x : Queue) : (m.setQueue n q x).recov = m.recov := rfl
@[simp] theorem Mod.setQueue_sp (m : Mod) (n q : Nat) (x : Queue) : (m.setQueue n q x).sp = m.sp := rfl
@[simp] theorem Mod.setQueue_power (m : Mod) (n q : Nat) (x : Queue) : (m.setQueue n q x).power = m.power := rfl
@[simp] theorem Mod.setQueue_boot (m : Mod) (n q : Nat) (x : Queue) : (m.setQueue n q x).boot = m.boot := rfl
@[simp] theorem Mod.setQueue_mgmt (m : Mod) (n q : Nat) (x : Queue) : (m.setQueue n q x).mgmt = m.mgmt := rfl
@[simp] theorem Mod.setQueue_reqs (m : Mod) (n q : Nat) (x : Queue) : (m.setQueue n q x).reqs = m.reqs := rfl
@[simp] theorem Mod.setQueue_arrs (m : Mod) (n q : Nat) (x : Queue) : (m.setQueue n q x).arrs = m.arrs := rfl
@[simp] theorem Mod.setQueue_fen (m : Mod) (n q : Nat) (x : Queue) : (m.setQueue n q x).fen = m.fen := rfl
@[simp] theorem Mod.setQueue_stalk (m : Mod) (n q : Nat) (x : Queue) : (m.setQueue n q x).stalk = m.stalk := rfl
@[simp] theorem Mod.setQueue_memside (m : Mod) (n q : Nat) (x : Queue) : (m.setQueue n q x).memside = m.memside := rfl
@[simp] theorem Mod.setQueue_health (m : Mod) (n q : Nat) (x : Queue) : (m.setQueue n q x).health = m.health := rfl
@[simp] theorem Mod.setQueue_upd (m : Mod) (n q : Nat) (x : Queue) : (m.setQueue n q x).upd = m.upd := rfl
@[simp] theorem Mod.setQueue_steps (m : Mod) (n q : Nat) (x : Queue) : (m.setQueue n q x).steps = m.steps := rfl
@[simp] theorem Mod.setQueue_ports (m : Mod) (n q : Nat) (x : Queue) : (m.setQueue n q x).ports = m.ports := rfl
@[simp] theorem Mod.setQueue_router (m : Mod) (n q : Nat) (x : Queue) : (m.setQueue n q x).router = m.router := rfl
@[simp] theorem Mod.setQueue_coll (m : Mod) (n q : Nat) (x : Queue) : (m.setQueue n q x).coll = m.coll := rfl
@[simp] theorem Mod.setQueue_vine (m : Mod) (n q : Nat) (x : Queue) : (m.setQueue n q x).vine = m.vine := rfl
@[simp] theorem Mod.setQueue_dup (m : Mod) (n q : Nat) (x : Queue) : (m.setQueue n q x).dup = m.dup := rfl
@[simp] theorem Mod.setQueue_ledger (m : Mod) (n q : Nat) (x : Queue) : (m.setQueue n q x).ledger = m.ledger := rfl
@[simp] theorem Mod.setQueue_ckpt (m : Mod) (n q : Nat) (x : Queue) : (m.setQueue n q x).ckpt = m.ckpt := rfl
@[simp] theorem Mod.setQueue_test (m : Mod) (n q : Nat) (x : Queue) : (m.setQueue n q x).test = m.test := rfl
@[simp] theorem Mod.setQueue_trace (m : Mod) (n q : Nat) (x : Queue) : (m.setQueue n q x).trace = m.trace := rfl
@[simp] theorem Mod.setQueue_free (m : Mod) (n q : Nat) (x : Queue) : (m.setQueue n q x).free = m.free := rfl
@[simp] theorem Mod.setQueue_rd (m : Mod) (n q : Nat) (x : Queue) (o' : Nat) : (m.setQueue n q x).rd o' = m.rd o' := rfl

/-! ## `Mod.setArr` -/

@[simp] theorem Mod.setArr_regs (m : Mod) (n : Nat) (x : Arr) : (m.setArr n x).regs = m.regs := rfl
@[simp] theorem Mod.setArr_live (m : Mod) (n : Nat) (x : Arr) : (m.setArr n x).live = m.live := rfl
@[simp] theorem Mod.setArr_gaps (m : Mod) (n : Nat) (x : Arr) : (m.setArr n x).gaps = m.gaps := rfl
@[simp] theorem Mod.setArr_resets (m : Mod) (n : Nat) (x : Arr) : (m.setArr n x).resets = m.resets := rfl
@[simp] theorem Mod.setArr_mem (m : Mod) (n : Nat) (x : Arr) : (m.setArr n x).mem = m.mem := rfl
@[simp] theorem Mod.setArr_heldWrites (m : Mod) (n : Nat) (x : Arr) : (m.setArr n x).heldWrites = m.heldWrites := rfl
@[simp] theorem Mod.setArr_accReq (m : Mod) (n : Nat) (x : Arr) : (m.setArr n x).accReq = m.accReq := rfl
@[simp] theorem Mod.setArr_arbs (m : Mod) (n : Nat) (x : Arr) : (m.setArr n x).arbs = m.arbs := rfl
@[simp] theorem Mod.setArr_flash (m : Mod) (n : Nat) (x : Arr) : (m.setArr n x).flash = m.flash := rfl
@[simp] theorem Mod.setArr_doms (m : Mod) (n : Nat) (x : Arr) : (m.setArr n x).doms = m.doms := rfl
@[simp] theorem Mod.setArr_recov (m : Mod) (n : Nat) (x : Arr) : (m.setArr n x).recov = m.recov := rfl
@[simp] theorem Mod.setArr_sp (m : Mod) (n : Nat) (x : Arr) : (m.setArr n x).sp = m.sp := rfl
@[simp] theorem Mod.setArr_power (m : Mod) (n : Nat) (x : Arr) : (m.setArr n x).power = m.power := rfl
@[simp] theorem Mod.setArr_boot (m : Mod) (n : Nat) (x : Arr) : (m.setArr n x).boot = m.boot := rfl
@[simp] theorem Mod.setArr_mgmt (m : Mod) (n : Nat) (x : Arr) : (m.setArr n x).mgmt = m.mgmt := rfl
@[simp] theorem Mod.setArr_queues (m : Mod) (n : Nat) (x : Arr) : (m.setArr n x).queues = m.queues := rfl
@[simp] theorem Mod.setArr_reqs (m : Mod) (n : Nat) (x : Arr) : (m.setArr n x).reqs = m.reqs := rfl
@[simp] theorem Mod.setArr_fen (m : Mod) (n : Nat) (x : Arr) : (m.setArr n x).fen = m.fen := rfl
@[simp] theorem Mod.setArr_stalk (m : Mod) (n : Nat) (x : Arr) : (m.setArr n x).stalk = m.stalk := rfl
@[simp] theorem Mod.setArr_memside (m : Mod) (n : Nat) (x : Arr) : (m.setArr n x).memside = m.memside := rfl
@[simp] theorem Mod.setArr_health (m : Mod) (n : Nat) (x : Arr) : (m.setArr n x).health = m.health := rfl
@[simp] theorem Mod.setArr_upd (m : Mod) (n : Nat) (x : Arr) : (m.setArr n x).upd = m.upd := rfl
@[simp] theorem Mod.setArr_steps (m : Mod) (n : Nat) (x : Arr) : (m.setArr n x).steps = m.steps := rfl
@[simp] theorem Mod.setArr_ports (m : Mod) (n : Nat) (x : Arr) : (m.setArr n x).ports = m.ports := rfl
@[simp] theorem Mod.setArr_router (m : Mod) (n : Nat) (x : Arr) : (m.setArr n x).router = m.router := rfl
@[simp] theorem Mod.setArr_coll (m : Mod) (n : Nat) (x : Arr) : (m.setArr n x).coll = m.coll := rfl
@[simp] theorem Mod.setArr_vine (m : Mod) (n : Nat) (x : Arr) : (m.setArr n x).vine = m.vine := rfl
@[simp] theorem Mod.setArr_dup (m : Mod) (n : Nat) (x : Arr) : (m.setArr n x).dup = m.dup := rfl
@[simp] theorem Mod.setArr_ledger (m : Mod) (n : Nat) (x : Arr) : (m.setArr n x).ledger = m.ledger := rfl
@[simp] theorem Mod.setArr_ckpt (m : Mod) (n : Nat) (x : Arr) : (m.setArr n x).ckpt = m.ckpt := rfl
@[simp] theorem Mod.setArr_test (m : Mod) (n : Nat) (x : Arr) : (m.setArr n x).test = m.test := rfl
@[simp] theorem Mod.setArr_trace (m : Mod) (n : Nat) (x : Arr) : (m.setArr n x).trace = m.trace := rfl
@[simp] theorem Mod.setArr_free (m : Mod) (n : Nat) (x : Arr) : (m.setArr n x).free = m.free := rfl
@[simp] theorem Mod.setArr_rd (m : Mod) (n : Nat) (x : Arr) (o' : Nat) : (m.setArr n x).rd o' = m.rd o' := rfl

/-! ## `Mod.mapDescs` -/

@[simp] theorem Mod.mapDescs_regs (m : Mod) (n q : Nat) (f : Desc → Desc) : (m.mapDescs n q f).regs = m.regs := rfl
@[simp] theorem Mod.mapDescs_live (m : Mod) (n q : Nat) (f : Desc → Desc) : (m.mapDescs n q f).live = m.live := rfl
@[simp] theorem Mod.mapDescs_gaps (m : Mod) (n q : Nat) (f : Desc → Desc) : (m.mapDescs n q f).gaps = m.gaps := rfl
@[simp] theorem Mod.mapDescs_resets (m : Mod) (n q : Nat) (f : Desc → Desc) : (m.mapDescs n q f).resets = m.resets := rfl
@[simp] theorem Mod.mapDescs_mem (m : Mod) (n q : Nat) (f : Desc → Desc) : (m.mapDescs n q f).mem = m.mem := rfl
@[simp] theorem Mod.mapDescs_heldWrites (m : Mod) (n q : Nat) (f : Desc → Desc) : (m.mapDescs n q f).heldWrites = m.heldWrites := rfl
@[simp] theorem Mod.mapDescs_accReq (m : Mod) (n q : Nat) (f : Desc → Desc) : (m.mapDescs n q f).accReq = m.accReq := rfl
@[simp] theorem Mod.mapDescs_arbs (m : Mod) (n q : Nat) (f : Desc → Desc) : (m.mapDescs n q f).arbs = m.arbs := rfl
@[simp] theorem Mod.mapDescs_flash (m : Mod) (n q : Nat) (f : Desc → Desc) : (m.mapDescs n q f).flash = m.flash := rfl
@[simp] theorem Mod.mapDescs_doms (m : Mod) (n q : Nat) (f : Desc → Desc) : (m.mapDescs n q f).doms = m.doms := rfl
@[simp] theorem Mod.mapDescs_recov (m : Mod) (n q : Nat) (f : Desc → Desc) : (m.mapDescs n q f).recov = m.recov := rfl
@[simp] theorem Mod.mapDescs_sp (m : Mod) (n q : Nat) (f : Desc → Desc) : (m.mapDescs n q f).sp = m.sp := rfl
@[simp] theorem Mod.mapDescs_power (m : Mod) (n q : Nat) (f : Desc → Desc) : (m.mapDescs n q f).power = m.power := rfl
@[simp] theorem Mod.mapDescs_boot (m : Mod) (n q : Nat) (f : Desc → Desc) : (m.mapDescs n q f).boot = m.boot := rfl
@[simp] theorem Mod.mapDescs_mgmt (m : Mod) (n q : Nat) (f : Desc → Desc) : (m.mapDescs n q f).mgmt = m.mgmt := rfl
@[simp] theorem Mod.mapDescs_reqs (m : Mod) (n q : Nat) (f : Desc → Desc) : (m.mapDescs n q f).reqs = m.reqs := rfl
@[simp] theorem Mod.mapDescs_arrs (m : Mod) (n q : Nat) (f : Desc → Desc) : (m.mapDescs n q f).arrs = m.arrs := rfl
@[simp] theorem Mod.mapDescs_fen (m : Mod) (n q : Nat) (f : Desc → Desc) : (m.mapDescs n q f).fen = m.fen := rfl
@[simp] theorem Mod.mapDescs_stalk (m : Mod) (n q : Nat) (f : Desc → Desc) : (m.mapDescs n q f).stalk = m.stalk := rfl
@[simp] theorem Mod.mapDescs_memside (m : Mod) (n q : Nat) (f : Desc → Desc) : (m.mapDescs n q f).memside = m.memside := rfl
@[simp] theorem Mod.mapDescs_health (m : Mod) (n q : Nat) (f : Desc → Desc) : (m.mapDescs n q f).health = m.health := rfl
@[simp] theorem Mod.mapDescs_upd (m : Mod) (n q : Nat) (f : Desc → Desc) : (m.mapDescs n q f).upd = m.upd := rfl
@[simp] theorem Mod.mapDescs_steps (m : Mod) (n q : Nat) (f : Desc → Desc) : (m.mapDescs n q f).steps = m.steps := rfl
@[simp] theorem Mod.mapDescs_ports (m : Mod) (n q : Nat) (f : Desc → Desc) : (m.mapDescs n q f).ports = m.ports := rfl
@[simp] theorem Mod.mapDescs_router (m : Mod) (n q : Nat) (f : Desc → Desc) : (m.mapDescs n q f).router = m.router := rfl
@[simp] theorem Mod.mapDescs_coll (m : Mod) (n q : Nat) (f : Desc → Desc) : (m.mapDescs n q f).coll = m.coll := rfl
@[simp] theorem Mod.mapDescs_vine (m : Mod) (n q : Nat) (f : Desc → Desc) : (m.mapDescs n q f).vine = m.vine := rfl
@[simp] theorem Mod.mapDescs_dup (m : Mod) (n q : Nat) (f : Desc → Desc) : (m.mapDescs n q f).dup = m.dup := rfl
@[simp] theorem Mod.mapDescs_ledger (m : Mod) (n q : Nat) (f : Desc → Desc) : (m.mapDescs n q f).ledger = m.ledger := rfl
@[simp] theorem Mod.mapDescs_ckpt (m : Mod) (n q : Nat) (f : Desc → Desc) : (m.mapDescs n q f).ckpt = m.ckpt := rfl
@[simp] theorem Mod.mapDescs_test (m : Mod) (n q : Nat) (f : Desc → Desc) : (m.mapDescs n q f).test = m.test := rfl
@[simp] theorem Mod.mapDescs_trace (m : Mod) (n q : Nat) (f : Desc → Desc) : (m.mapDescs n q f).trace = m.trace := rfl
@[simp] theorem Mod.mapDescs_free (m : Mod) (n q : Nat) (f : Desc → Desc) : (m.mapDescs n q f).free = m.free := rfl
@[simp] theorem Mod.mapDescs_rd (m : Mod) (n q : Nat) (f : Desc → Desc) (o' : Nat) : (m.mapDescs n q f).rd o' = m.rd o' := rfl

/-! ## `Mod.mapDesc` -/

@[simp] theorem Mod.mapDesc_regs (m : Mod) (n q k : Nat) (f : Desc → Desc) : (m.mapDesc n q k f).regs = m.regs := rfl
@[simp] theorem Mod.mapDesc_live (m : Mod) (n q k : Nat) (f : Desc → Desc) : (m.mapDesc n q k f).live = m.live := rfl
@[simp] theorem Mod.mapDesc_gaps (m : Mod) (n q k : Nat) (f : Desc → Desc) : (m.mapDesc n q k f).gaps = m.gaps := rfl
@[simp] theorem Mod.mapDesc_resets (m : Mod) (n q k : Nat) (f : Desc → Desc) : (m.mapDesc n q k f).resets = m.resets := rfl
@[simp] theorem Mod.mapDesc_mem (m : Mod) (n q k : Nat) (f : Desc → Desc) : (m.mapDesc n q k f).mem = m.mem := rfl
@[simp] theorem Mod.mapDesc_heldWrites (m : Mod) (n q k : Nat) (f : Desc → Desc) : (m.mapDesc n q k f).heldWrites = m.heldWrites := rfl
@[simp] theorem Mod.mapDesc_accReq (m : Mod) (n q k : Nat) (f : Desc → Desc) : (m.mapDesc n q k f).accReq = m.accReq := rfl
@[simp] theorem Mod.mapDesc_arbs (m : Mod) (n q k : Nat) (f : Desc → Desc) : (m.mapDesc n q k f).arbs = m.arbs := rfl
@[simp] theorem Mod.mapDesc_flash (m : Mod) (n q k : Nat) (f : Desc → Desc) : (m.mapDesc n q k f).flash = m.flash := rfl
@[simp] theorem Mod.mapDesc_doms (m : Mod) (n q k : Nat) (f : Desc → Desc) : (m.mapDesc n q k f).doms = m.doms := rfl
@[simp] theorem Mod.mapDesc_recov (m : Mod) (n q k : Nat) (f : Desc → Desc) : (m.mapDesc n q k f).recov = m.recov := rfl
@[simp] theorem Mod.mapDesc_sp (m : Mod) (n q k : Nat) (f : Desc → Desc) : (m.mapDesc n q k f).sp = m.sp := rfl
@[simp] theorem Mod.mapDesc_power (m : Mod) (n q k : Nat) (f : Desc → Desc) : (m.mapDesc n q k f).power = m.power := rfl
@[simp] theorem Mod.mapDesc_boot (m : Mod) (n q k : Nat) (f : Desc → Desc) : (m.mapDesc n q k f).boot = m.boot := rfl
@[simp] theorem Mod.mapDesc_mgmt (m : Mod) (n q k : Nat) (f : Desc → Desc) : (m.mapDesc n q k f).mgmt = m.mgmt := rfl
@[simp] theorem Mod.mapDesc_reqs (m : Mod) (n q k : Nat) (f : Desc → Desc) : (m.mapDesc n q k f).reqs = m.reqs := rfl
@[simp] theorem Mod.mapDesc_arrs (m : Mod) (n q k : Nat) (f : Desc → Desc) : (m.mapDesc n q k f).arrs = m.arrs := rfl
@[simp] theorem Mod.mapDesc_fen (m : Mod) (n q k : Nat) (f : Desc → Desc) : (m.mapDesc n q k f).fen = m.fen := rfl
@[simp] theorem Mod.mapDesc_stalk (m : Mod) (n q k : Nat) (f : Desc → Desc) : (m.mapDesc n q k f).stalk = m.stalk := rfl
@[simp] theorem Mod.mapDesc_memside (m : Mod) (n q k : Nat) (f : Desc → Desc) : (m.mapDesc n q k f).memside = m.memside := rfl
@[simp] theorem Mod.mapDesc_health (m : Mod) (n q k : Nat) (f : Desc → Desc) : (m.mapDesc n q k f).health = m.health := rfl
@[simp] theorem Mod.mapDesc_upd (m : Mod) (n q k : Nat) (f : Desc → Desc) : (m.mapDesc n q k f).upd = m.upd := rfl
@[simp] theorem Mod.mapDesc_steps (m : Mod) (n q k : Nat) (f : Desc → Desc) : (m.mapDesc n q k f).steps = m.steps := rfl
@[simp] theorem Mod.mapDesc_ports (m : Mod) (n q k : Nat) (f : Desc → Desc) : (m.mapDesc n q k f).ports = m.ports := rfl
@[simp] theorem Mod.mapDesc_router (m : Mod) (n q k : Nat) (f : Desc → Desc) : (m.mapDesc n q k f).router = m.router := rfl
@[simp] theorem Mod.mapDesc_coll (m : Mod) (n q k : Nat) (f : Desc → Desc) : (m.mapDesc n q k f).coll = m.coll := rfl
@[simp] theorem Mod.mapDesc_vine (m : Mod) (n q k : Nat) (f : Desc → Desc) : (m.mapDesc n q k f).vine = m.vine := rfl
@[simp] theorem Mod.mapDesc_dup (m : Mod) (n q k : Nat) (f : Desc → Desc) : (m.mapDesc n q k f).dup = m.dup := rfl
@[simp] theorem Mod.mapDesc_ledger (m : Mod) (n q k : Nat) (f : Desc → Desc) : (m.mapDesc n q k f).ledger = m.ledger := rfl
@[simp] theorem Mod.mapDesc_ckpt (m : Mod) (n q k : Nat) (f : Desc → Desc) : (m.mapDesc n q k f).ckpt = m.ckpt := rfl
@[simp] theorem Mod.mapDesc_test (m : Mod) (n q k : Nat) (f : Desc → Desc) : (m.mapDesc n q k f).test = m.test := rfl
@[simp] theorem Mod.mapDesc_trace (m : Mod) (n q k : Nat) (f : Desc → Desc) : (m.mapDesc n q k f).trace = m.trace := rfl
@[simp] theorem Mod.mapDesc_free (m : Mod) (n q k : Nat) (f : Desc → Desc) : (m.mapDesc n q k f).free = m.free := rfl
@[simp] theorem Mod.mapDesc_rd (m : Mod) (n q k : Nat) (f : Desc → Desc) (o' : Nat) : (m.mapDesc n q k f).rd o' = m.rd o' := rfl

/-! ## `Mod.onPort` -/

@[simp] theorem Mod.onPort_regs (m : Mod) (p : Nat) (f : Port → Port) : (m.onPort p f).regs = m.regs := rfl
@[simp] theorem Mod.onPort_live (m : Mod) (p : Nat) (f : Port → Port) : (m.onPort p f).live = m.live := rfl
@[simp] theorem Mod.onPort_gaps (m : Mod) (p : Nat) (f : Port → Port) : (m.onPort p f).gaps = m.gaps := rfl
@[simp] theorem Mod.onPort_resets (m : Mod) (p : Nat) (f : Port → Port) : (m.onPort p f).resets = m.resets := rfl
@[simp] theorem Mod.onPort_mem (m : Mod) (p : Nat) (f : Port → Port) : (m.onPort p f).mem = m.mem := rfl
@[simp] theorem Mod.onPort_heldWrites (m : Mod) (p : Nat) (f : Port → Port) : (m.onPort p f).heldWrites = m.heldWrites := rfl
@[simp] theorem Mod.onPort_accReq (m : Mod) (p : Nat) (f : Port → Port) : (m.onPort p f).accReq = m.accReq := rfl
@[simp] theorem Mod.onPort_arbs (m : Mod) (p : Nat) (f : Port → Port) : (m.onPort p f).arbs = m.arbs := rfl
@[simp] theorem Mod.onPort_flash (m : Mod) (p : Nat) (f : Port → Port) : (m.onPort p f).flash = m.flash := rfl
@[simp] theorem Mod.onPort_doms (m : Mod) (p : Nat) (f : Port → Port) : (m.onPort p f).doms = m.doms := rfl
@[simp] theorem Mod.onPort_recov (m : Mod) (p : Nat) (f : Port → Port) : (m.onPort p f).recov = m.recov := rfl
@[simp] theorem Mod.onPort_sp (m : Mod) (p : Nat) (f : Port → Port) : (m.onPort p f).sp = m.sp := rfl
@[simp] theorem Mod.onPort_power (m : Mod) (p : Nat) (f : Port → Port) : (m.onPort p f).power = m.power := rfl
@[simp] theorem Mod.onPort_boot (m : Mod) (p : Nat) (f : Port → Port) : (m.onPort p f).boot = m.boot := rfl
@[simp] theorem Mod.onPort_mgmt (m : Mod) (p : Nat) (f : Port → Port) : (m.onPort p f).mgmt = m.mgmt := rfl
@[simp] theorem Mod.onPort_queues (m : Mod) (p : Nat) (f : Port → Port) : (m.onPort p f).queues = m.queues := rfl
@[simp] theorem Mod.onPort_reqs (m : Mod) (p : Nat) (f : Port → Port) : (m.onPort p f).reqs = m.reqs := rfl
@[simp] theorem Mod.onPort_arrs (m : Mod) (p : Nat) (f : Port → Port) : (m.onPort p f).arrs = m.arrs := rfl
@[simp] theorem Mod.onPort_fen (m : Mod) (p : Nat) (f : Port → Port) : (m.onPort p f).fen = m.fen := rfl
@[simp] theorem Mod.onPort_stalk (m : Mod) (p : Nat) (f : Port → Port) : (m.onPort p f).stalk = m.stalk := rfl
@[simp] theorem Mod.onPort_memside (m : Mod) (p : Nat) (f : Port → Port) : (m.onPort p f).memside = m.memside := rfl
@[simp] theorem Mod.onPort_health (m : Mod) (p : Nat) (f : Port → Port) : (m.onPort p f).health = m.health := rfl
@[simp] theorem Mod.onPort_upd (m : Mod) (p : Nat) (f : Port → Port) : (m.onPort p f).upd = m.upd := rfl
@[simp] theorem Mod.onPort_steps (m : Mod) (p : Nat) (f : Port → Port) : (m.onPort p f).steps = m.steps := rfl
@[simp] theorem Mod.onPort_router (m : Mod) (p : Nat) (f : Port → Port) : (m.onPort p f).router = m.router := rfl
@[simp] theorem Mod.onPort_coll (m : Mod) (p : Nat) (f : Port → Port) : (m.onPort p f).coll = m.coll := rfl
@[simp] theorem Mod.onPort_vine (m : Mod) (p : Nat) (f : Port → Port) : (m.onPort p f).vine = m.vine := rfl
@[simp] theorem Mod.onPort_dup (m : Mod) (p : Nat) (f : Port → Port) : (m.onPort p f).dup = m.dup := rfl
@[simp] theorem Mod.onPort_ledger (m : Mod) (p : Nat) (f : Port → Port) : (m.onPort p f).ledger = m.ledger := rfl
@[simp] theorem Mod.onPort_ckpt (m : Mod) (p : Nat) (f : Port → Port) : (m.onPort p f).ckpt = m.ckpt := rfl
@[simp] theorem Mod.onPort_test (m : Mod) (p : Nat) (f : Port → Port) : (m.onPort p f).test = m.test := rfl
@[simp] theorem Mod.onPort_trace (m : Mod) (p : Nat) (f : Port → Port) : (m.onPort p f).trace = m.trace := rfl
@[simp] theorem Mod.onPort_free (m : Mod) (p : Nat) (f : Port → Port) : (m.onPort p f).free = m.free := rfl
@[simp] theorem Mod.onPort_rd (m : Mod) (p : Nat) (f : Port → Port) (o' : Nat) : (m.onPort p f).rd o' = m.rd o' := rfl

/-! ## `Mod.progress` -/

@[simp] theorem Mod.progress_regs (m : Mod) (d : Nat) : (m.progress d).regs = m.regs := rfl
@[simp] theorem Mod.progress_live (m : Mod) (d : Nat) : (m.progress d).live = m.live := rfl
@[simp] theorem Mod.progress_gaps (m : Mod) (d : Nat) : (m.progress d).gaps = m.gaps := rfl
@[simp] theorem Mod.progress_resets (m : Mod) (d : Nat) : (m.progress d).resets = m.resets := rfl
@[simp] theorem Mod.progress_mem (m : Mod) (d : Nat) : (m.progress d).mem = m.mem := rfl
@[simp] theorem Mod.progress_heldWrites (m : Mod) (d : Nat) : (m.progress d).heldWrites = m.heldWrites := rfl
@[simp] theorem Mod.progress_accReq (m : Mod) (d : Nat) : (m.progress d).accReq = m.accReq := rfl
@[simp] theorem Mod.progress_arbs (m : Mod) (d : Nat) : (m.progress d).arbs = m.arbs := rfl
@[simp] theorem Mod.progress_flash (m : Mod) (d : Nat) : (m.progress d).flash = m.flash := rfl
@[simp] theorem Mod.progress_doms (m : Mod) (d : Nat) : (m.progress d).doms = m.doms := rfl
@[simp] theorem Mod.progress_recov (m : Mod) (d : Nat) : (m.progress d).recov = m.recov := rfl
@[simp] theorem Mod.progress_power (m : Mod) (d : Nat) : (m.progress d).power = m.power := rfl
@[simp] theorem Mod.progress_boot (m : Mod) (d : Nat) : (m.progress d).boot = m.boot := rfl
@[simp] theorem Mod.progress_mgmt (m : Mod) (d : Nat) : (m.progress d).mgmt = m.mgmt := rfl
@[simp] theorem Mod.progress_queues (m : Mod) (d : Nat) : (m.progress d).queues = m.queues := rfl
@[simp] theorem Mod.progress_reqs (m : Mod) (d : Nat) : (m.progress d).reqs = m.reqs := rfl
@[simp] theorem Mod.progress_arrs (m : Mod) (d : Nat) : (m.progress d).arrs = m.arrs := rfl
@[simp] theorem Mod.progress_fen (m : Mod) (d : Nat) : (m.progress d).fen = m.fen := rfl
@[simp] theorem Mod.progress_stalk (m : Mod) (d : Nat) : (m.progress d).stalk = m.stalk := rfl
@[simp] theorem Mod.progress_memside (m : Mod) (d : Nat) : (m.progress d).memside = m.memside := rfl
@[simp] theorem Mod.progress_health (m : Mod) (d : Nat) : (m.progress d).health = m.health := rfl
@[simp] theorem Mod.progress_upd (m : Mod) (d : Nat) : (m.progress d).upd = m.upd := rfl
@[simp] theorem Mod.progress_steps (m : Mod) (d : Nat) : (m.progress d).steps = m.steps := rfl
@[simp] theorem Mod.progress_ports (m : Mod) (d : Nat) : (m.progress d).ports = m.ports := rfl
@[simp] theorem Mod.progress_router (m : Mod) (d : Nat) : (m.progress d).router = m.router := rfl
@[simp] theorem Mod.progress_coll (m : Mod) (d : Nat) : (m.progress d).coll = m.coll := rfl
@[simp] theorem Mod.progress_vine (m : Mod) (d : Nat) : (m.progress d).vine = m.vine := rfl
@[simp] theorem Mod.progress_dup (m : Mod) (d : Nat) : (m.progress d).dup = m.dup := rfl
@[simp] theorem Mod.progress_ledger (m : Mod) (d : Nat) : (m.progress d).ledger = m.ledger := rfl
@[simp] theorem Mod.progress_ckpt (m : Mod) (d : Nat) : (m.progress d).ckpt = m.ckpt := rfl
@[simp] theorem Mod.progress_test (m : Mod) (d : Nat) : (m.progress d).test = m.test := rfl
@[simp] theorem Mod.progress_trace (m : Mod) (d : Nat) : (m.progress d).trace = m.trace := rfl
@[simp] theorem Mod.progress_free (m : Mod) (d : Nat) : (m.progress d).free = m.free := rfl
@[simp] theorem Mod.progress_rd (m : Mod) (d : Nat) (o' : Nat) : (m.progress d).rd o' = m.rd o' := rfl

/-! ## `Mod.fault` -/

@[simp] theorem Mod.fault_regs (m : Mod) (g : Option Nat) (r : Nat) : (m.fault g r).regs = m.regs := rfl
@[simp] theorem Mod.fault_live (m : Mod) (g : Option Nat) (r : Nat) : (m.fault g r).live = m.live := rfl
@[simp] theorem Mod.fault_gaps (m : Mod) (g : Option Nat) (r : Nat) : (m.fault g r).gaps = m.gaps := rfl
@[simp] theorem Mod.fault_resets (m : Mod) (g : Option Nat) (r : Nat) : (m.fault g r).resets = m.resets := rfl
@[simp] theorem Mod.fault_mem (m : Mod) (g : Option Nat) (r : Nat) : (m.fault g r).mem = m.mem := rfl
@[simp] theorem Mod.fault_heldWrites (m : Mod) (g : Option Nat) (r : Nat) : (m.fault g r).heldWrites = m.heldWrites := rfl
@[simp] theorem Mod.fault_accReq (m : Mod) (g : Option Nat) (r : Nat) : (m.fault g r).accReq = m.accReq := rfl
@[simp] theorem Mod.fault_arbs (m : Mod) (g : Option Nat) (r : Nat) : (m.fault g r).arbs = m.arbs := rfl
@[simp] theorem Mod.fault_flash (m : Mod) (g : Option Nat) (r : Nat) : (m.fault g r).flash = m.flash := rfl
@[simp] theorem Mod.fault_doms (m : Mod) (g : Option Nat) (r : Nat) : (m.fault g r).doms = m.doms := rfl
@[simp] theorem Mod.fault_recov (m : Mod) (g : Option Nat) (r : Nat) : (m.fault g r).recov = m.recov := rfl
@[simp] theorem Mod.fault_sp (m : Mod) (g : Option Nat) (r : Nat) : (m.fault g r).sp = m.sp := rfl
@[simp] theorem Mod.fault_power (m : Mod) (g : Option Nat) (r : Nat) : (m.fault g r).power = m.power := rfl
@[simp] theorem Mod.fault_boot (m : Mod) (g : Option Nat) (r : Nat) : (m.fault g r).boot = m.boot := rfl
@[simp] theorem Mod.fault_mgmt (m : Mod) (g : Option Nat) (r : Nat) : (m.fault g r).mgmt = m.mgmt := rfl
@[simp] theorem Mod.fault_queues (m : Mod) (g : Option Nat) (r : Nat) : (m.fault g r).queues = m.queues := rfl
@[simp] theorem Mod.fault_reqs (m : Mod) (g : Option Nat) (r : Nat) : (m.fault g r).reqs = m.reqs := rfl
@[simp] theorem Mod.fault_arrs (m : Mod) (g : Option Nat) (r : Nat) : (m.fault g r).arrs = m.arrs := rfl
@[simp] theorem Mod.fault_fen (m : Mod) (g : Option Nat) (r : Nat) : (m.fault g r).fen = m.fen := rfl
@[simp] theorem Mod.fault_stalk (m : Mod) (g : Option Nat) (r : Nat) : (m.fault g r).stalk = m.stalk := rfl
@[simp] theorem Mod.fault_memside (m : Mod) (g : Option Nat) (r : Nat) : (m.fault g r).memside = m.memside := rfl
@[simp] theorem Mod.fault_health (m : Mod) (g : Option Nat) (r : Nat) : (m.fault g r).health = m.health := rfl
@[simp] theorem Mod.fault_upd (m : Mod) (g : Option Nat) (r : Nat) : (m.fault g r).upd = m.upd := rfl
@[simp] theorem Mod.fault_ports (m : Mod) (g : Option Nat) (r : Nat) : (m.fault g r).ports = m.ports := rfl
@[simp] theorem Mod.fault_router (m : Mod) (g : Option Nat) (r : Nat) : (m.fault g r).router = m.router := rfl
@[simp] theorem Mod.fault_coll (m : Mod) (g : Option Nat) (r : Nat) : (m.fault g r).coll = m.coll := rfl
@[simp] theorem Mod.fault_vine (m : Mod) (g : Option Nat) (r : Nat) : (m.fault g r).vine = m.vine := rfl
@[simp] theorem Mod.fault_dup (m : Mod) (g : Option Nat) (r : Nat) : (m.fault g r).dup = m.dup := rfl
@[simp] theorem Mod.fault_ledger (m : Mod) (g : Option Nat) (r : Nat) : (m.fault g r).ledger = m.ledger := rfl
@[simp] theorem Mod.fault_ckpt (m : Mod) (g : Option Nat) (r : Nat) : (m.fault g r).ckpt = m.ckpt := rfl
@[simp] theorem Mod.fault_test (m : Mod) (g : Option Nat) (r : Nat) : (m.fault g r).test = m.test := rfl
@[simp] theorem Mod.fault_trace (m : Mod) (g : Option Nat) (r : Nat) : (m.fault g r).trace = m.trace := rfl
@[simp] theorem Mod.fault_free (m : Mod) (g : Option Nat) (r : Nat) : (m.fault g r).free = m.free := rfl
@[simp] theorem Mod.fault_rd (m : Mod) (g : Option Nat) (r : Nat) (o' : Nat) : (m.fault g r).rd o' = m.rd o' := rfl

/-! ## `Mod.driveOut` -/

@[simp] theorem Mod.driveOut_regs (m : Mod) (l : List Byte) : (m.driveOut l).regs = m.regs := rfl
@[simp] theorem Mod.driveOut_live (m : Mod) (l : List Byte) : (m.driveOut l).live = m.live := rfl
@[simp] theorem Mod.driveOut_gaps (m : Mod) (l : List Byte) : (m.driveOut l).gaps = m.gaps := rfl
@[simp] theorem Mod.driveOut_resets (m : Mod) (l : List Byte) : (m.driveOut l).resets = m.resets := rfl
@[simp] theorem Mod.driveOut_mem (m : Mod) (l : List Byte) : (m.driveOut l).mem = m.mem := rfl
@[simp] theorem Mod.driveOut_heldWrites (m : Mod) (l : List Byte) : (m.driveOut l).heldWrites = m.heldWrites := rfl
@[simp] theorem Mod.driveOut_accReq (m : Mod) (l : List Byte) : (m.driveOut l).accReq = m.accReq := rfl
@[simp] theorem Mod.driveOut_arbs (m : Mod) (l : List Byte) : (m.driveOut l).arbs = m.arbs := rfl
@[simp] theorem Mod.driveOut_flash (m : Mod) (l : List Byte) : (m.driveOut l).flash = m.flash := rfl
@[simp] theorem Mod.driveOut_doms (m : Mod) (l : List Byte) : (m.driveOut l).doms = m.doms := rfl
@[simp] theorem Mod.driveOut_recov (m : Mod) (l : List Byte) : (m.driveOut l).recov = m.recov := rfl
@[simp] theorem Mod.driveOut_sp (m : Mod) (l : List Byte) : (m.driveOut l).sp = m.sp := rfl
@[simp] theorem Mod.driveOut_power (m : Mod) (l : List Byte) : (m.driveOut l).power = m.power := rfl
@[simp] theorem Mod.driveOut_boot (m : Mod) (l : List Byte) : (m.driveOut l).boot = m.boot := rfl
@[simp] theorem Mod.driveOut_queues (m : Mod) (l : List Byte) : (m.driveOut l).queues = m.queues := rfl
@[simp] theorem Mod.driveOut_reqs (m : Mod) (l : List Byte) : (m.driveOut l).reqs = m.reqs := rfl
@[simp] theorem Mod.driveOut_arrs (m : Mod) (l : List Byte) : (m.driveOut l).arrs = m.arrs := rfl
@[simp] theorem Mod.driveOut_fen (m : Mod) (l : List Byte) : (m.driveOut l).fen = m.fen := rfl
@[simp] theorem Mod.driveOut_stalk (m : Mod) (l : List Byte) : (m.driveOut l).stalk = m.stalk := rfl
@[simp] theorem Mod.driveOut_memside (m : Mod) (l : List Byte) : (m.driveOut l).memside = m.memside := rfl
@[simp] theorem Mod.driveOut_health (m : Mod) (l : List Byte) : (m.driveOut l).health = m.health := rfl
@[simp] theorem Mod.driveOut_upd (m : Mod) (l : List Byte) : (m.driveOut l).upd = m.upd := rfl
@[simp] theorem Mod.driveOut_steps (m : Mod) (l : List Byte) : (m.driveOut l).steps = m.steps := rfl
@[simp] theorem Mod.driveOut_ports (m : Mod) (l : List Byte) : (m.driveOut l).ports = m.ports := rfl
@[simp] theorem Mod.driveOut_router (m : Mod) (l : List Byte) : (m.driveOut l).router = m.router := rfl
@[simp] theorem Mod.driveOut_coll (m : Mod) (l : List Byte) : (m.driveOut l).coll = m.coll := rfl
@[simp] theorem Mod.driveOut_vine (m : Mod) (l : List Byte) : (m.driveOut l).vine = m.vine := rfl
@[simp] theorem Mod.driveOut_dup (m : Mod) (l : List Byte) : (m.driveOut l).dup = m.dup := rfl
@[simp] theorem Mod.driveOut_ledger (m : Mod) (l : List Byte) : (m.driveOut l).ledger = m.ledger := rfl
@[simp] theorem Mod.driveOut_ckpt (m : Mod) (l : List Byte) : (m.driveOut l).ckpt = m.ckpt := rfl
@[simp] theorem Mod.driveOut_test (m : Mod) (l : List Byte) : (m.driveOut l).test = m.test := rfl
@[simp] theorem Mod.driveOut_trace (m : Mod) (l : List Byte) : (m.driveOut l).trace = m.trace := rfl
@[simp] theorem Mod.driveOut_free (m : Mod) (l : List Byte) : (m.driveOut l).free = m.free := rfl
@[simp] theorem Mod.driveOut_rd (m : Mod) (l : List Byte) (o' : Nat) : (m.driveOut l).rd o' = m.rd o' := rfl

/-! ## `Mod.silent` -/

@[simp] theorem Mod.silent_regs (m : Mod) : (m.silent).regs = m.regs := rfl
@[simp] theorem Mod.silent_live (m : Mod) : (m.silent).live = m.live := rfl
@[simp] theorem Mod.silent_gaps (m : Mod) : (m.silent).gaps = m.gaps := rfl
@[simp] theorem Mod.silent_resets (m : Mod) : (m.silent).resets = m.resets := rfl
@[simp] theorem Mod.silent_mem (m : Mod) : (m.silent).mem = m.mem := rfl
@[simp] theorem Mod.silent_heldWrites (m : Mod) : (m.silent).heldWrites = m.heldWrites := rfl
@[simp] theorem Mod.silent_accReq (m : Mod) : (m.silent).accReq = m.accReq := rfl
@[simp] theorem Mod.silent_arbs (m : Mod) : (m.silent).arbs = m.arbs := rfl
@[simp] theorem Mod.silent_flash (m : Mod) : (m.silent).flash = m.flash := rfl
@[simp] theorem Mod.silent_doms (m : Mod) : (m.silent).doms = m.doms := rfl
@[simp] theorem Mod.silent_recov (m : Mod) : (m.silent).recov = m.recov := rfl
@[simp] theorem Mod.silent_sp (m : Mod) : (m.silent).sp = m.sp := rfl
@[simp] theorem Mod.silent_power (m : Mod) : (m.silent).power = m.power := rfl
@[simp] theorem Mod.silent_boot (m : Mod) : (m.silent).boot = m.boot := rfl
@[simp] theorem Mod.silent_queues (m : Mod) : (m.silent).queues = m.queues := rfl
@[simp] theorem Mod.silent_reqs (m : Mod) : (m.silent).reqs = m.reqs := rfl
@[simp] theorem Mod.silent_arrs (m : Mod) : (m.silent).arrs = m.arrs := rfl
@[simp] theorem Mod.silent_fen (m : Mod) : (m.silent).fen = m.fen := rfl
@[simp] theorem Mod.silent_stalk (m : Mod) : (m.silent).stalk = m.stalk := rfl
@[simp] theorem Mod.silent_memside (m : Mod) : (m.silent).memside = m.memside := rfl
@[simp] theorem Mod.silent_health (m : Mod) : (m.silent).health = m.health := rfl
@[simp] theorem Mod.silent_upd (m : Mod) : (m.silent).upd = m.upd := rfl
@[simp] theorem Mod.silent_steps (m : Mod) : (m.silent).steps = m.steps := rfl
@[simp] theorem Mod.silent_ports (m : Mod) : (m.silent).ports = m.ports := rfl
@[simp] theorem Mod.silent_router (m : Mod) : (m.silent).router = m.router := rfl
@[simp] theorem Mod.silent_coll (m : Mod) : (m.silent).coll = m.coll := rfl
@[simp] theorem Mod.silent_vine (m : Mod) : (m.silent).vine = m.vine := rfl
@[simp] theorem Mod.silent_dup (m : Mod) : (m.silent).dup = m.dup := rfl
@[simp] theorem Mod.silent_ledger (m : Mod) : (m.silent).ledger = m.ledger := rfl
@[simp] theorem Mod.silent_ckpt (m : Mod) : (m.silent).ckpt = m.ckpt := rfl
@[simp] theorem Mod.silent_test (m : Mod) : (m.silent).test = m.test := rfl
@[simp] theorem Mod.silent_trace (m : Mod) : (m.silent).trace = m.trace := rfl
@[simp] theorem Mod.silent_free (m : Mod) : (m.silent).free = m.free := rfl
@[simp] theorem Mod.silent_rd (m : Mod) (o' : Nat) : (m.silent).rd o' = m.rd o' := rfl

/-! ## Registers -/

theorem Mod.rd_wr (m : Mod) (o o' : Nat) (v : Word) : (m.wr o v).rd o' = if o' = o then v else m.rd o' := by
  simp only [Mod.rd, Mod.wr, tget_tset]

@[simp] theorem Mod.rd_wr_same (m : Mod) (o : Nat) (v : Word) : (m.wr o v).rd o = v := by simp [Mod.rd_wr]

theorem Mod.rd_wr_other (m : Mod) {o o' : Nat} (v : Word) (h : o' ≠ o) : (m.wr o v).rd o' = m.rd o' := by simp [Mod.rd_wr, h]

theorem Mod.rd_set (m : Mod) (f : Field) (n o : Nat) : (m.set f n).rd o = if o = f.off then f.put (m.rd f.off) n else m.rd o := by
  simp only [Mod.set, Mod.rd_wr]

theorem Mod.lv_lset (m : Mod) (o n o' : Nat) : (m.lset o n).lv o' = if o' = o then n % 2 ^ 32 else m.lv o' := by
  simp only [Mod.lv, Mod.lset, tget_tset]
  split <;> simp

theorem Field.put_nat (x lo w n : Nat) : x - x / 2 ^ lo % 2 ^ w * 2 ^ lo + n % 2 ^ w * 2 ^ lo =
   x % 2 ^ lo + 2 ^ lo * (n % 2 ^ w + 2 ^ w * (x / 2 ^ (lo + w))) := by
  have h1 := Nat.mod_add_div x (2 ^ lo)
  have h2 := Nat.mod_add_div (x / 2 ^ lo) (2 ^ w)
  rw [Nat.pow_add, ← Nat.div_div_eq_div_mul]
  generalize x / 2 ^ lo / 2 ^ w = c at *
  generalize x / 2 ^ lo % 2 ^ w = b at *
  generalize x % 2 ^ lo = a at *
  rw [← h2] at h1
  generalize 2 ^ lo = p at *
  generalize 2 ^ w = r at *
  generalize n % r = k at *
  subst h1
  have e1 : p * (b + r * c) = b * p + p * (r * c) := by ring
  have e2 : p * (k + r * c) = k * p + p * (r * c) := by ring
  omega

/-- Bit by bit, what storing a field leaves in the word. -/
theorem Field.put_testBit (f : Field) (h : f.lo + f.w ≤ 32) (x : Word) (n i : Nat) :
    (f.put x n).getLsbD i = if f.lo ≤ i ∧ i < f.lo + f.w then n.testBit (i - f.lo) else x.getLsbD i := by
  simp only [Field.put, Field.get, BitVec.getLsbD_ofNat, Field.put_nat]
  have e : x.toNat % 2 ^ f.lo + 2 ^ f.lo * (n % 2 ^ f.w + 2 ^ f.w * (x.toNat / 2 ^ (f.lo + f.w))) =
    2 ^ f.lo * (2 ^ f.w * (x.toNat / 2 ^ (f.lo + f.w)) + n % 2 ^ f.w) + x.toNat % 2 ^ f.lo := by ring
  have hp : x.toNat % 2 ^ f.lo < 2 ^ f.lo := Nat.mod_lt _ (by positivity)
  have hq : n % 2 ^ f.w < 2 ^ f.w := Nat.mod_lt _ (by positivity)
  rw [e, Nat.testBit_two_pow_mul_add _ hp]
  by_cases h1 : i < f.lo
  · have : ¬ (f.lo ≤ i ∧ i < f.lo + f.w) := by omega
    simp only [h1, this, if_true, if_false]
    rw [Nat.testBit_mod_two_pow, ← BitVec.getLsbD]
    have : i < 32 := by omega
    simp [h1, this, BitVec.getLsbD]
  · simp only [h1, if_false]
    rw [Nat.testBit_two_pow_mul_add _ hq]
    by_cases h2 : i < f.lo + f.w
    · have h3 : f.lo ≤ i ∧ i < f.lo + f.w := by omega
      have h4 : i - f.lo < f.w := by omega
      have h5 : i < 32 := by omega
      simp [h3, h4, h5, Nat.testBit_mod_two_pow]
    · have h3 : ¬(f.lo ≤ i ∧ i < f.lo + f.w) := by omega
      have h4 : ¬(i - f.lo < f.w) := by omega
      simp only [h3, h4, if_false, Nat.testBit_div_two_pow]
      have : i - f.lo - f.w + (f.lo + f.w) = i := by omega
      rw [this]
      by_cases h5 : i < 32
      · simp [h5, BitVec.getLsbD]
      · simp [h5]; exact (BitVec.getLsbD_of_ge x i (by omega)).symm ▸ rfl

theorem Field.get_testBit (f : Field) (x : Word) (i : Nat) : (f.get x).testBit i = (decide (i < f.w) && x.getLsbD (f.lo + i)) := by
  simp [Field.get, Nat.testBit_mod_two_pow, Nat.testBit_div_two_pow, BitVec.getLsbD, Nat.add_comm]

/-- A field that fits its register takes the value written, modulo its width. -/
theorem Field.get_put (f : Field) (h : f.lo + f.w ≤ 32) (x : Word) (n : Nat) : f.get (f.put x n) = n % 2 ^ f.w := by
  apply Nat.eq_of_testBit_eq; intro i
  rw [Field.get_testBit, Field.put_testBit f h, Nat.testBit_mod_two_pow]
  by_cases hi : i < f.w
  · have : f.lo ≤ f.lo + i ∧ f.lo + i < f.lo + f.w := by omega
    simp [hi, this]
  · simp [hi]

/-- A field is not touched by storing one that shares no bit with it. -/
theorem Field.get_put_other (f g : Field) (h : g.lo + g.w ≤ 32) (hd : f.lo + f.w ≤ g.lo ∨ g.lo + g.w ≤ f.lo) (x : Word) (n : Nat) :
    f.get (g.put x n) = f.get x := by
  apply Nat.eq_of_testBit_eq; intro i
  rw [Field.get_testBit, Field.get_testBit, Field.put_testBit g h]
  by_cases hi : i < f.w
  · have : ¬(g.lo ≤ f.lo + i ∧ f.lo + i < g.lo + g.w) := by omega
    simp [this]
  · simp [hi]
theorem Mod.f_set_same (m : Mod) (f : Field) (h : f.lo + f.w ≤ 32) (n : Nat) : (m.set f n).f f = n % 2 ^ f.w := by
  simp only [Mod.f, Mod.rd_set, if_true]; exact Field.get_put f h _ n

theorem Mod.f_set_other (m : Mod) (f g : Field) (h : g.off ≠ f.off) (n : Nat) : (m.set f n).f g = m.f g := by
  simp only [Mod.f, Mod.rd_set, if_neg h]

theorem Mod.f_set_apart (m : Mod) (f g : Field) (hf : f.lo + f.w ≤ 32) (hd : g.lo + g.w ≤ f.lo ∨ f.lo + f.w ≤ g.lo) (n : Nat) :
    (m.set f n).f g = m.f g := by
  simp only [Mod.f, Mod.rd_set]
  split
  · rename_i h; rw [Field.get_put_other g f hf hd, h]
  · rfl

/-! ## The state -/

@[simp] theorem State.after_toMod (s : State) (m : Mod) : (s.after m).toMod = s.toMod.waitsPhy m.settle := rfl
@[simp] theorem State.now_toMod (s : State) (m : Mod) : (s.now m).toMod = s.toMod.leaves m.settle := rfl
@[simp] theorem State.now_pending (s : State) (m : Mod) : (s.now m).pending = s.pending := rfl
@[simp] theorem State.after_pending (s : State) (m : Mod) : (s.after m).pending = s.pending := rfl
@[simp] theorem State.become_toMod (s : State) (m : Mod) : (s.become m).toMod = m := rfl
@[simp] theorem State.become_pending (s : State) (m : Mod) : (s.become m).pending = s.pending := rfl

end Sys2Proof.Machine
end

