-- ==== Sys2Proof/Laws/Exec.lean ====
section
/-! SUPPORT. What every command has in common: its answer is a next state, and what follows its own effect. -/

namespace Sys2Proof.Machine

theorem settle_calm {m : Mod} (h : m.calm = true) : m.settle = m := by
  have ht : m.steps.todo = [] := by
    simp only [Mod.calm, Bool.and_eq_true, List.isEmpty_iff] at h
    exact h.1.1.1.1.1.1.1
  simp [Mod.settle, Mod.settleN, h, Mod.chargeFaults, ht]

theorem run_next (f : Mod → Mod) (s : State) : run f s = .next (s.after (f s.toMod)) := rfl

theorem runNow_next (f : Mod → Mod) (s : State) : runNow f s = .next (s.now (f s.toMod)) := rfl

/-- A command that neither asked for a window read before nor met a stopped PHY leaves what its effect and its consequences made. -/
theorem waitsPhy_same {m t : Mod} (hp : t.power.phyWait = false) (hw : m.health.winDue = false) : m.waitsPhy t = t := by
  simp [Mod.waitsPhy, Mod.leaves, hp, hw]

theorem leaves_same {m t : Mod} (hp : t.power.phyWait = false) (hw : m.health.winDue = false) : m.leaves t = t := by
  simp [Mod.leaves, hp, hw]

/-- A command whose work met a stopped PHY leaves the module as it was (R17). -/
theorem waitsPhy_waits {m t : Mod} (h : t.power.phyWait = true) : m.waitsPhy t = m := by
  simp [Mod.waitsPhy, h]

/-- Every command answers a next state, with the queue as it was. -/
theorem exec_next (c : Instr) (s : State) : ∃ m, exec c s = .next (s.become m) := by
  cases c <;> exact ⟨_, rfl⟩

theorem exec_pending {c : Instr} {s t : State} (h : exec c s = .next t) : t.pending = s.pending := by
  obtain ⟨m, hm⟩ := exec_next c s
  rw [hm] at h
  cases h
  rfl

theorem write_next {s : State} {a : Agent} {off : Nat} {v : Word} (h : s.accepts a off v = true) :
    runNow (fun m => m.writeFrom a off v) s = .next (s.now (s.toMod.regApply a off v)) := by
  unfold Mod.accepts at h
  rw [Bool.and_eq_true, Option.isNone_iff_eq_none] at h
  cases a <;> simp_all [runNow_next, Mod.writeFrom, Mod.regWrite]

end Sys2Proof.Machine
end

