-- ==== Sys2Proof/Laws/Hbm.lean ====
section
/-! SUPPORT. Reads of memory without errors: every byte can be read. -/

namespace Sys2Proof.Machine

/-- What an access counts leaves the memory's content and errors as they are. -/
theorem traffic_keeps (m : Mod) (b : By) (u c n : Nat) :
    (m.traffic b u c n).mem = m.mem ∧ (m.traffic b u c n).memside.hbmErr = m.memside.hbmErr ∧
      (m.traffic b u c n).memside.bus = m.memside.bus ∧ (m.traffic b u c n).memside.remaps = m.memside.remaps ∧
      (m.traffic b u c n).memside.paths = m.memside.paths := by
  unfold Mod.traffic Mod.activate Mod.mside Mod.phy
  dsimp only
  split <;> split <;> split <;> exact ⟨rfl, rfl, rfl, rfl, rfl⟩

/-- In clean memory a unit reads as what it holds. -/
theorem readUnit_clean {m : Mod} (h : m.memClean) (b : By) (u : Nat) :
    (m.readUnit b u).2 = some (m.unitBytes u) ∧ (m.readUnit b u).1.memClean := by
  obtain ⟨he, hb, hr, hp⟩ := h
  obtain ⟨tm, te, tb, tr, tp⟩ := traffic_keeps m b u MEM.SN_RD_BYTES_LO.o 64
  have hw : m.awaitSlot u = m := by simp [Mod.awaitSlot, hr]
  have hs : (m.traffic b u MEM.SN_RD_BYTES_LO.o 64).senseUnit u =
      (m.traffic b u MEM.SN_RD_BYTES_LO.o 64, some (m.unitBytes u), false) := by
    simp [Mod.senseUnit, Mod.busMeets, tb, hb, Mod.decodeUnit, Mod.outcome, Mod.unitErr, te, he, tget, Mod.unitBytes, tm]
  simp only [Mod.readUnit, hw, hs]
  exact ⟨trivial, te.trans he, tb.trans hb, tr.trans hr, tp.trans hp⟩

/-- In clean memory every HBM range can be read. -/
theorem getHbm_clean {m : Mod} (h : m.memClean) (b : By) (fuel a n : Nat) : (m.getHbm b fuel a n).2.isSome = true := by
  induction fuel generalizing m a n with
  | zero => rfl
  | succ fuel ih =>
    unfold Mod.getHbm
    split
    · rfl
    · obtain ⟨h1, h2⟩ := readUnit_clean h b (m.viewed (a - a % 64) / 64)
      have := ih h2 (a + min n (64 - a % 64)) (n - min n (64 - a % 64))
      obtain ⟨y, hy⟩ := Option.isSome_iff_exists.1 this
      simp only [h1, hy]
      rfl

/-- With no parity error to come, data crosses every datapath and changes nothing there. -/
theorem crossing_clean {m : Mod} (h : m.memside.paths = []) (b : By) (f : Nat → Bool) : m.crossing b f = (m, false) := by
  simp [Mod.crossing, h]

/-- Without errors every read answers its bytes. -/
theorem load_clean {m : Mod} (h : m.memClean) (hl : m.memside.lsErr = []) (b : By) (a n : Nat) : (m.load b a n).2.isSome = true := by
  unfold Mod.load
  rw [crossing_clean h.2.2.2]
  simp only [Mod.fetchBytes]
  split
  · exact getHbm_clean h b _ a n
  · simp only [Mod.phy]
    split <;> simp [hl]

theorem load_answers {m : Mod} (h : m.memClean) (hl : m.memside.lsErr = []) (b : By) (a n : Nat) :
    ∃ m' bs, m.load b a n = (m', some bs) := by
  obtain ⟨bs, hb⟩ := Option.isSome_iff_exists.1 (load_clean h hl b a n)
  exact ⟨(m.load b a n).1, bs, Prod.ext rfl hb⟩

/-- A read whose first unit is uncorrectable gives no bytes. -/
theorem load_first_bad {m : Mod} {b : By} {a n : Nat} (hp : m.memside.paths = []) (ha : a < hbmTop) (hn : n ≠ 0)
    (h : (m.readUnit b (m.viewed (a - a % 64) / 64)).2 = none) : (m.load b a n).2 = none := by
  simp only [Mod.load, crossing_clean hp, Mod.fetchBytes, if_pos ha, Mod.getHbm, if_neg hn, h]

end Sys2Proof.Machine
end

