-- ==== Sys2Proof/Laws/Packet.lean ====
section
/-! SUPPORT. A packet that passes every check reaches its unit; the frame checks and the packet checks then need no more unfolding. -/

namespace Sys2Proof.Machine

/-- A packet that is handed on is taken by its unit and by nothing else. -/
theorem receivePkt_handsOn {m m' : Mod} {port : Nat} {q : Pkt} (h : m.handsOn port q m') : m.receivePkt port q = m'.handPacket port q := by
  obtain ⟨hup, hf, hok, hc, hh, hfo, hl, ht, hpt, hta, hpa, hsq, hli, hs, htr⟩ := h
  have hc' : q.cls.toNat ≠ 0 := fun e => hc (BitVec.eq_of_toNat_eq e)
  have ht' : ¬(m.is TST.CFG.MODE = true ∧ (!testCarries q) = true) := by
    rintro ⟨a, b⟩
    rcases ht with ht | ht
    · rw [a] at ht; cases ht
    · rw [ht] at b; cases b
  have hsq' : ¬(q.cls.toNat = clsSQ ∧ (!m.tagCurrent (tagOf q)) = true) := by
    rintro ⟨a, b⟩
    rw [hsq a] at b; cases b
  unfold Mod.receivePkt Mod.portPacket
  rw [if_neg (not_not.2 hup), if_neg (by simp [hf]), if_neg (by simp [hok]), if_neg (by simp [hl]), if_neg ht', if_neg (by rw [hpt]; decide),
    if_neg hc', if_neg (by simp [hh]), if_neg hs, if_neg (by simp [hfo])]
  unfold Mod.takeSlice Mod.takeTagged
  rw [if_neg (by simp [hl]), if_neg (by simp [hta]), if_neg (by simp [hpa])]
  dsimp only
  rw [if_neg hsq', if_pos hli]
  simp [Mod.takeMarked, htr]

/-- A control packet that passes the header checks is taken by its port, outside field test and without a parity error on the way. -/
theorem receivePkt_control {m : Mod} {port : Nat} {q : Pkt} (hup : m.pstate port = pUP) (hf : m.fetching_ = false) (hok : pktOk q = true)
    (ht : m.is TST.CFG.MODE = false) (hpt : m.memside.paths.contains (136 + port) = false) (hc : q.cls.toNat = 0) :
    m.receivePkt port q = m.takeControl port q := by
  unfold Mod.receivePkt Mod.portPacket
  rw [if_neg (not_not.2 hup), if_neg (by simp [hf]), if_neg (by simp [hok]), if_neg (by simp [hc]), if_neg (by simp [ht]),
    if_neg (by rw [hpt]; decide), if_pos hc]

/-- A packet's row whose packet is handed on has its unit's effect. -/
theorem row_handsOn {s : State} {port : Fin 8} {p : Pkt} {cls typ : Nat} {m : Mod} (h : s.handsOn port.val (asRow p cls typ) m) :
    run (fun m => m.rowPacket port p cls typ) s = .next (s.after (m.handPacket port.val (asRow p cls typ))) := by
  rw [run_next]
  exact congrArg (fun m => Host.Outcome.next (s.after m)) (receivePkt_handsOn h)

variable {s : State} {port : Fin 8} {p : Pkt} {m : Mod}

theorem exec_write (h : s.handsOn port.val (asRow p 1 0) m) :
    exec (.write port p) s = .next (s.after (m.doWrite (asRow p 1 0) (.fabric (asRow p 1 0).src (Fin.ofNat 9 port.val)) (overRouter (asRow p 1 0)))) := row_handsOn h

theorem exec_read (h : s.handsOn port.val (asRow p 1 1) m) :
    exec (.read port p) s = .next (s.after (m.doRead (asRow p 1 1) (overRouter (asRow p 1 1)))) := row_handsOn h

theorem exec_ack (h : s.handsOn port.val (asRow p 2 0) m) :
    exec (.ack port p) s = .next (s.after (m.takeResponse (asRow p 2 0))) := row_handsOn h

theorem exec_readData (h : s.handsOn port.val (asRow p 2 1) m) :
    exec (.readData port p) s = .next (s.after (m.takeResponse (asRow p 2 1))) := row_handsOn h

theorem exec_refused (h : s.handsOn port.val (asRow p 2 2) m) :
    exec (.refused port p) s = .next (s.after (m.takeResponse (asRow p 2 2))) := row_handsOn h

theorem exec_rs (h : s.handsOn port.val (asRow p 3 0) m) :
    exec (.rs port p) s = .next (s.after (m.takeColl port.val (asRow p 3 0))) := row_handsOn h

theorem exec_ag (h : s.handsOn port.val (asRow p 3 1) m) :
    exec (.ag port p) s = .next (s.after (m.takeColl port.val (asRow p 3 1))) := row_handsOn h

theorem exec_small (h : s.handsOn port.val (asRow p 3 2) m) :
    exec (.small port p) s = .next (s.after (m.takeSmall (asRow p 3 2))) := row_handsOn h

theorem exec_vineUp (h : s.handsOn port.val (asRow p 3 4) m) :
    exec (.vineUp port p) s = .next (s.after (m.takeUp port.val (asRow p 3 4))) := row_handsOn h

theorem exec_vineAnn (h : s.handsOn port.val (asRow p 3 5) m) :
    exec (.vineAnn port p) s = .next (s.after (m.takeAnn port.val (asRow p 3 5))) := row_handsOn h

theorem exec_row (h : s.handsOn port.val (asRow p 4 0) m) :
    exec (.row port p) s = .next (s.after (m.takeRow port.val (asRow p 4 0))) := row_handsOn h

theorem exec_add (h : s.handsOn port.val (asRow p 5 0) m) :
    exec (.add port p) s = .next (s.after (m.takeAdd port.val (asRow p 5 0))) := row_handsOn h

theorem exec_pair (h : s.handsOn port.val (asRow p 6 0) m) :
    exec (.pair port p) s = .next (s.after (m.takePair port.val (asRow p 6 0))) := row_handsOn h

theorem exec_shard (h : s.handsOn port.val (asRow p 6 1) m) :
    exec (.shard port p) s = .next (s.after (m.takeShard (asRow p 6 1))) := row_handsOn h

theorem exec_digest (h : s.handsOn port.val (asRow p 6 2) m) :
    exec (.digest port p) s = .next (s.after (m.takeDigest (asRow p 6 2))) := row_handsOn h

theorem exec_tw (h : s.handsOn port.val (asRow p 6 3) m) :
    exec (.tw port p) s = .next (s.after (m.takeTw (asRow p 6 3))) := row_handsOn h

theorem exec_dupAck (h : s.handsOn port.val (asRow p 6 4) m) :
    exec (.dupAck port p) s = .next (s.after (m.takeDupAck (asRow p 6 4))) := row_handsOn h

theorem exec_podCopy (h : s.handsOn port.val (asRow p 6 5) m) :
    exec (.podCopy port p) s = .next (s.after (m.takePodCopy (asRow p 6 5))) := row_handsOn h

theorem exec_rmData (h : s.handsOn port.val (asRow p 6 6) m) :
    exec (.rmData port p) s = .next (s.after (m.takeRmData (asRow p 6 6))) := row_handsOn h

theorem exec_rmReq (h : s.handsOn port.val (asRow p 6 7) m) :
    exec (.rmReq port p) s = .next (s.after (m.takeRmReq (asRow p 6 7))) := row_handsOn h

theorem exec_probe (h : s.handsOn port.val (asRow p 6 8) m) :
    exec (.probe port p) s = .next (s.after (m.takeProbe (asRow p 6 8))) := row_handsOn h

theorem exec_probeReply (h : s.handsOn port.val (asRow p 6 9) m) :
    exec (.probeReply port p) s = .next (s.after (m.takeProbeReply (asRow p 6 9))) := row_handsOn h

theorem exec_pull (h : s.handsOn port.val (asRow p 7 0) m) :
    exec (.pull port p) s = .next (s.after (m.takePull (asRow p 7 0))) := row_handsOn h

theorem exec_part (h : s.handsOn port.val (asRow p 7 1) m) :
    exec (.part port p) s = .next (s.after (m.takePart (asRow p 7 1))) := row_handsOn h

theorem exec_zero (h : s.handsOn port.val (asRow p 7 2) m) :
    exec (.zero port p) s = .next (s.after (m.takeZero (asRow p 7 2))) := row_handsOn h

theorem exec_notReady (h : s.handsOn port.val (asRow p 7 3) m) :
    exec (.notReady port p) s = .next (s.after (m.takeNotReady (asRow p 7 3))) := row_handsOn h

theorem exec_sha (h : s.handsOn port.val (asRow p 7 4) m) :
    exec (.sha port p) s = .next (s.after (m.takeSha (asRow p 7 4))) := row_handsOn h

theorem exec_exportPkt (h : s.handsOn port.val (asRow p 7 5) m) :
    exec (.exportPkt port p) s = .next (s.after (m.takeExport (asRow p 7 5))) := row_handsOn h

theorem exec_importPkt (h : s.handsOn port.val (asRow p 7 6) m) :
    exec (.importPkt port p) s = .next (s.after (m.takeImport port.val (asRow p 7 6))) := row_handsOn h

end Sys2Proof.Machine
end

