-- ==== Sys2Proof/Laws/RegWrite.lean ====
section
/-! SUPPORT. An accepted register write, block by block, and what its word says of a field. -/

namespace Sys2Proof.Machine

@[simp] theorem regW_off (m : Mod) (a : Agent) (off : Nat) (v : Word) : (m.regW a off v).off = off := rfl
@[simp] theorem regW_old (m : Mod) (a : Agent) (off : Nat) (v : Word) : (m.regW a off v).old = m.rd off := rfl
@[simp] theorem regW_new (m : Mod) (a : Agent) (off : Nat) (v : Word) : (m.regW a off v).new = v := rfl

@[simp] theorem regW_one (m : Mod) (a : Agent) (off : Nat) (v : Word) (f : Field) :
    (m.regW a off v).one f = (decide (off = f.off) && decide (f.get v ≠ 0)) := by
  simp only [RegW.one, regW_off, regW_new, bne, decide_not, Bool.beq_eq_decide_eq]

@[simp] theorem regW_sets (m : Mod) (a : Agent) (off : Nat) (v : Word) (f : Field) :
    (m.regW a off v).sets f = (decide (off = f.off) && decide (m.f f = 0) && decide (f.get v ≠ 0)) := by
  by_cases h : off = f.off
  · subst h
    by_cases h0 : m.f f = 0 <;> by_cases h1 : f.get v = 0 <;> simp_all [RegW.sets, RegW.chg, Mod.f] <;> omega
  · simp [RegW.sets, RegW.chg, h]

@[simp] theorem regW_clears (m : Mod) (a : Agent) (off : Nat) (v : Word) (f : Field) :
    (m.regW a off v).clears f = (decide (off = f.off) && decide (m.f f ≠ 0) && decide (f.get v = 0)) := by
  by_cases h : off = f.off
  · subst h
    by_cases h0 : m.f f = 0 <;> by_cases h1 : f.get v = 0 <;> simp_all [RegW.clears, RegW.chg, Mod.f]
  · simp [RegW.clears, RegW.chg, h]

theorem is_false {m : Mod} {f : Field} : m.is f = false ↔ m.f f = 0 := by simp [Mod.is]
theorem is_true {m : Mod} {f : Field} : m.is f = true ↔ m.f f ≠ 0 := by simp [Mod.is]

/-- A write of a register that is no EVT: the word, then the effect of its block. -/
theorem regApply_of {m : Mod} {a : Agent} {off : Nat} {v : Word} (h : isEvt off = false) :
    m.regApply a off v = (m.withWord a off v).regAct (m.regW a off v) a (m.roleAsked (m.regW a off v)) := by
  simp [Mod.regApply, Mod.withWord, h]

theorem regAct_core {m : Mod} {w : RegW} {a : Agent} {r : Option Nat} {n : Nat} (h : w.off / 0x1000 = 256 + n) :
    m.regAct w a r = actCORE m w n := by
  simp [Mod.regAct, h]

theorem regAct_RST {m : Mod} {w : RegW} {a : Agent} {r : Option Nat} (h : w.off / 0x1000 = 3) : m.regAct w a r = actRST m w := by
  simp [Mod.regAct, h]

theorem regAct_SEC {m : Mod} {w : RegW} {a : Agent} {r : Option Nat} (h : w.off / 0x1000 = 5) : m.regAct w a r = actSEC m w a := by
  simp [Mod.regAct, h]

theorem regAct_TST {m : Mod} {w : RegW} {a : Agent} {r : Option Nat} (h : w.off / 0x1000 = 6) : m.regAct w a r = actTST m w := by
  simp [Mod.regAct, h]

theorem regAct_DBG {m : Mod} {w : RegW} {a : Agent} {r : Option Nat} (h : w.off / 0x1000 = 7) : m.regAct w a r = actDBG m w := by
  simp [Mod.regAct, h]

theorem regAct_TOR {m : Mod} {w : RegW} {a : Agent} {r : Option Nat} (h : w.off / 0x1000 = 9) : m.regAct w a r = actTOR m w := by
  simp [Mod.regAct, h]

theorem regAct_LNK {m : Mod} {w : RegW} {a : Agent} {r : Option Nat} (h : w.off / 0x1000 = 10) : m.regAct w a r = actLNK m w := by
  simp [Mod.regAct, h]

theorem regAct_DUP {m : Mod} {w : RegW} {a : Agent} {r : Option Nat} (h : w.off / 0x1000 = 11) : m.regAct w a r = actDUP m w r := by
  simp [Mod.regAct, h]

theorem regAct_BLB {m : Mod} {w : RegW} {a : Agent} {r : Option Nat} (h : w.off / 0x1000 = 13) : m.regAct w a r = actBLB m w := by
  simp [Mod.regAct, h]

theorem regAct_UPD {m : Mod} {w : RegW} {a : Agent} {r : Option Nat} (h : w.off / 0x1000 = 15) : m.regAct w a r = actUPD m w := by
  simp [Mod.regAct, h]

theorem regAct_MEM {m : Mod} {w : RegW} {a : Agent} {r : Option Nat} (h : w.off / 0x1000 = 17) : m.regAct w a r = actMEM m w := by
  simp [Mod.regAct, h]

theorem regAct_MPR {m : Mod} {w : RegW} {a : Agent} {r : Option Nat} (h : w.off / 0x1000 = 18) : m.regAct w a r = actMPR m w := by
  simp [Mod.regAct, h]

theorem regAct_SNAP {m : Mod} {w : RegW} {a : Agent} {r : Option Nat} (h : w.off / 0x1000 = 2) :
    m.regAct w a r = if w.one SNAP.CTL.TAKE then m.snapTake else m := by
  simp [Mod.regAct, h]

theorem regAct_HLT {m : Mod} {w : RegW} {a : Agent} {r : Option Nat} (h : w.off / 0x1000 = 16) :
    m.regAct w a r = if w.one HLT.WIN_SEL.GO then m.windowGo else m := by
  simp [Mod.regAct, h]

/-- Blocks whose writes do nothing beyond the word. -/
theorem regAct_plain {m : Mod} {w : RegW} {a : Agent} {r : Option Nat} (h : w.off / 0x1000 ∈ [0, 1, 4, 8, 12, 14]) : m.regAct w a r = m := by
  simp only [List.mem_cons, List.not_mem_nil, or_false] at h
  rcases h with h | h | h | h | h | h <;> simp [Mod.regAct, h]

theorem evtOff_core {n : Nat} (hn : n < 128) : evtOff (256 + n) = some (CORE.EVT.o n) := by
  have h : 256 + n < 384 := by omega
  unfold evtOff
  split <;> first | (exfalso; omega) | skip
  rw [if_pos ⟨by omega, h⟩, Nat.add_sub_cancel_left]

/-- A register of core `n` is an EVT only where it is that core's. -/
theorem isEvt_core {off n : Nat} (h : off / 0x1000 = 256 + n) (hn : n < 128) : isEvt off = decide (off = CORE.EVT.o n) := by
  rw [isEvt, h, evtOff_core hn, Bool.eq_iff_iff]
  simp only [beq_iff_eq, Option.some.injEq, decide_eq_true_eq]
  exact eq_comm

/-- What an accepted write of a queue's register does. -/
theorem actCORE_queue {m : Mod} {w : RegW} {n q : Nat} (h1 : 0x100 ≤ w.off % 0x1000) (h2 : w.off % 0x1000 < 0x200)
    (h3 : (w.off % 0x1000 - 0x100) / 0x40 = q) :
    actCORE m w n =
      (let m := if w.sets (CORE.Q_CTL.ENABLE n q) then m.enableQueue n q
        else if w.clears (CORE.Q_CTL.ENABLE n q) then m.disableQueue n q else m
       let m := if w.one (CORE.Q_CTL.RESUME n q) then m.resumeQueue n q else m
       if w.off = CORE.Q_TAIL.o n q then m.take n q else m) := by
  subst h3
  rw [actCORE, if_pos ⟨h1, h2⟩]

/-- What an accepted write of a context's register does. -/
theorem actCORE_ctx {m : Mod} {w : RegW} {n c : Nat} (h1 : 0x300 ≤ w.off % 0x1000) (h2 : w.off % 0x1000 < 0x400)
    (h3 : (w.off % 0x1000 - 0x300) / 0x10 = c) :
    actCORE m w n =
      if w.one (CORE.CTX_CTL.OPEN n c) then m.set (CORE.CTX_STAT.STATE n c) 1
      else if w.one (CORE.CTX_CTL.TEARDOWN n c) then m.teardownCtx n c else m := by
  subst h3
  rw [actCORE, if_neg (by omega), if_pos ⟨h1, h2⟩]

/-- What an accepted write of a port's register does. -/
theorem actLNK_port {m : Mod} {w : RegW} {p : Nat} (h1 : 0x100 ≤ w.off % 0x1000) (h2 : w.off % 0x1000 < 0x500)
    (h3 : (w.off % 0x1000 - 0x100) / 0x80 = p) :
    actLNK m w =
      (let m := if w.sets (LNK.PORT_CTL.ENABLE p) then m.enablePort p
        else if w.clears (LNK.PORT_CTL.ENABLE p) then m.disablePort p else m
       let m := if w.one (LNK.PORT_CTL.RETRAIN p) then m.retrainPort p else m
       let m := if w.one (LNK.PORT_CTL.FENCE p) then m.fencePort p else m
       if w.one (LNK.PORT_CTL.UNFENCE p) then m.unfencePort p else m) := by
  subst h3
  rw [actLNK, if_pos ⟨h1, h2⟩]

/-- What an accepted write of a window's register does. -/
theorem actMEM_window {m : Mod} {w : RegW} {v : Nat} (h1 : 0x100 ≤ w.off % 0x1000) (h2 : w.off % 0x1000 < 0x300)
    (h3 : (w.off % 0x1000 - 0x100) / 0x20 = v) :
    actMEM m w = if w.one (MEM.WIN_CTL.CLEAR v) then m.clearWindow v else m := by
  subst h3
  rw [actMEM, if_pos ⟨h1, h2⟩]

theorem tail_ctl (n q : Nat) : CORE.Q_TAIL.o n q ≠ CORE.Q_CTL.o n q := by simp only [CORE.Q_TAIL.o, CORE.Q_CTL.o]; omega

/-- `Q_TAIL`: the descriptors up to the new tail are taken (R163). -/
theorem regApply_tail {m : Mod} {a : Agent} {n q : Nat} {v : Word} (hn : n < 128) (hq : q < 4) :
    m.regApply a (CORE.Q_TAIL.o n q) v = (m.withWord a (CORE.Q_TAIL.o n q) v).take n q := by
  have h1 : CORE.Q_TAIL.o n q / 0x1000 = 256 + n := by simp only [CORE.Q_TAIL.o]; omega
  have h2 : 0x100 ≤ CORE.Q_TAIL.o n q % 0x1000 ∧ CORE.Q_TAIL.o n q % 0x1000 < 0x200 := by simp only [CORE.Q_TAIL.o]; omega
  have h3 : (CORE.Q_TAIL.o n q % 0x1000 - 0x100) / 0x40 = q := by simp only [CORE.Q_TAIL.o]; omega
  have h4 : isEvt (CORE.Q_TAIL.o n q) = false := by
    rw [isEvt_core h1 hn]; simp only [CORE.Q_TAIL.o, CORE.EVT.o, decide_eq_false_iff_not]; omega
  have h5 : CORE.Q_TAIL.o n q ≠ (CORE.Q_CTL.ENABLE n q).off := tail_ctl n q
  have h6 : CORE.Q_TAIL.o n q ≠ (CORE.Q_CTL.RESUME n q).off := tail_ctl n q
  rw [regApply_of h4, regAct_core (n := n) h1, actCORE_queue (w := m.regW a (CORE.Q_TAIL.o n q) v) h2.1 h2.2 h3]
  generalize CORE.Q_TAIL.o n q = o at *
  simp [h5, h6]

end Sys2Proof.Machine
end

