-- ==== Sys2Proof/WellFormed.lean ====
section
/-! DEFINITION. Well-formed commands: what the carrier of a command already guarantees of its operands, checked here
once. A meaning is total and does not rest on it. -/

namespace Sys2Proof

/-- A packet occupies LEN payload units of 16 bytes, LEN at most 16 (R300). -/
def Pkt.wf (p : Pkt) : Bool := decide (p.len.toNat ≤ 16) && decide (p.payload.length = 16 * p.len.toNat)

/-- Upsets name pins of the 70 that an access unit uses (R262) and at least one of the 13 bits of a local-store byte with its check bits
(R159). -/
def Noise.wf (n : Noise) : Bool :=
  n.hbm.all (fun e => e.2.all (fun p => decide (p < 70))) && n.ls.all (fun e => decide (e.2 < 8192))

/-- A frame carries 255 units after its link control unit (R291). -/
def frameWf (units : List Unit16) : Bool := decide (units.length = 255)

/-- A domain of R413. -/
def domainWf (d : Nat) : Bool := decide (d < 156)

/-- Whether a command is well formed. -/
def Instr.wf : Instr → Bool
  | .sprout d | .quiesceAck d => domainWf d
  | .copy _ _ z | .scrubSlice z _ => z.wf
  | .frameReceive _ _ us _ _ _ => frameWf us
  | .caps _ _ b => decide (b.length = 16)
  | .blockFetchDone b => decide (b.length ≤ 2048)
  | .row _ p | .add _ p | .write _ p | .read _ p | .ack _ p | .readData _ p | .refused _ p | .heartbeat _ p | .aliasPkt _ p | .fence _ p
  | .fenceAck _ p | .fault _ p | .rs _ p | .ag _ p | .small _ p | .vineSyncReq _ p _ _ | .vineSyncResp _ p _ | .vineUp _ p
  | .vineAnn _ p | .pair _ p | .digest _ p | .shard _ p | .tw _ p | .dupAck _ p | .podCopy _ p | .rmData _ p | .rmReq _ p | .probe _ p
  | .probeReply _ p | .sha _ p | .pull _ p | .part _ p | .zero _ p | .notReady _ p | .exportPkt _ p | .importPkt _ p => p.wf
  | .powerOnStart | .idReconstructDone .. | .imageVerifyDone | .powerInputsReady .. | .railRampDone | .dieLinkTrainDone
  | .hbmTrainDone .. | .seedSetVerify .. | .inLow .. | .pwrEnFall | .auxLost | .inrushDone .. | .inputOvervoltage ..
  | .unmateSwitchOpen .. | .resetNLow | .thermtrip .. | .dieCooled | .resonatorFail | .railLow .. | .dieLinkFail .. | .powerTrimStep ..
  | .powerTrimRestore .. | .railSet .. | .railSetStep .. | .smbBlockWrite .. | .smbBlockRead .. | .smbAlertResponse | .page ..
  | .clearFaults .. | .statusWord | .readVin | .readIin | .readVout | .readIout | .readTemperature1 | .readPin | .pmbusNack .. | .idcode
  | .bypass | .scanInstruction .. | .registerWrite .. | .evtClear .. | .lockSet .. | .take .. | .snapshotDone .. | .rstWarm ..
  | .rstCold .. | .spSel .. | .quiesceWaitExpiry | .selfRefreshEntered | .resetHoldEnd | .warmDone | .recovStall
  | .parsnipKeepaliveTimeout | .arrayPass .. | .weightLoadDone .. | .arrayPassComplete .. | .arrayDrainDone .. | .arrData ..
  | .rampDownDone .. | .accSelGo .. | .accReadTaken .. | .qTailWrite .. | .qEnable .. | .resume .. | .descriptorStart ..
  | .descriptorComplete .. | .nop .. | .sync .. | .syncPoll .. | .enqueue .. | .enqueueSpace .. | .stepMark .. | .skew .. | .weight ..
  | .scatterAdd .. | .elt .. | .quant .. | .amax .. | .ranksum .. | .rowred .. | .ctxOpen .. | .ctxTeardown .. | .ctxDone ..
  | .requestReply .. | .dispatch .. | .fennelScanResult .. | .combine .. | .dispatchBwd .. | .combineBwd .. | .fenOpOpen ..
  | .fenEnable .. | .stalkWriteRelease .. | .stkClear .. | .updEnable .. | .twGo .. | .updateStageStart | .precheckEnd | .vote1Result ..
  | .ownPassEnd | .vote2Result .. | .mirrorPassEnd | .lossResult .. | .tileCheckDone .. | .winSelGo .. | .waitingAddRelease ..
  | .sqEnClear .. | .winClear .. | .hbmRefresh .. | .hbmTempRead .. | .remapCopyDone .. | .remapReqGo .. | .scrubGo .. | .scrubAbort ..
  | .portEnable .. | .baseTrainingEnd .. | .candidateQualifyEnd .. | .negotiationRestart .. | .lcu .. | .packetSend .. | .lcuTimeout ..
  | .linkLost .. | .retrain .. | .portFence .. | .unfence .. | .heartbeatSend | .hbMiss .. | .collEnable .. | .collResume ..
  | .collWaitPoll | .collEntryDone | .vineSyncTimer .. | .holdover | .vineUpTimer | .stepBoundary | .recheckDone | .rmSend
  | .probeWaitExpiry | .fenceAckWaitExpiry | .arm .. | .disarm .. | .confirm .. | .reverse .. | .swapGo .. | .mfillGo .. | .roleReq ..
  | .ckptNow .. | .ckptStartResult .. | .ckptCopyStart | .ckptCopyDone | .paritySlice .. | .commitResult .. | .restoreGo ..
  | .restoreRoundResult .. | .restoreCopyDone .. | .drGo .. | .drainSend | .drAbort .. | .imBegin .. | .imDone .. | .imAbort ..
  | .tstMode .. | .runGo .. | .runAbort .. | .heatTargetReached | .noHeat | .heaterTrip .. | .pointEnd .. | .classWindowExpiry ..
  | .clsSelGo .. | .clsClear .. | .histSelGo .. | .historyRetry .. | .debugEnter .. | .debugLeave .. | .traceEnable .. | .flushItem ..
  | .trTailWrite .. | .stageD .. | .stageDone .. | .stageAbort .. | .serve .. | .attGo .. | .attestationDone | .frameSend .. | .keepAlive
  | .replayOrder => true

end Sys2Proof
end

