-- ==== Sys2Proof/Tests/Slice0.lean ====
section
/-! SUPPORT. Tests: a term that each check of well-formedness refuses, commands on small states with results taken from the manual, and for
each statement states and operands that meet its hypotheses. -/

namespace Sys2Proof.Tests

open Sys2Proof.Machine

-- one theorem is checked after another: the threads of many checks at once would exceed the memory limit
set_option Elab.async false

/-! ## States -/

/-- A state with its module changed. -/
def on (s : State) (f : Mod → Mod) : State := { s with toMod := f s.toMod }

/-- A state with fields set. -/
def fld (s : State) (l : List (Field × Nat)) : State := on s fun m => m.sets l

/-- A module that is READY: its auxiliary input holds and every domain runs. -/
def up : State := fld (on State.reset fun m => { m with doms := ⟨false, [], [], false, false⟩ }) [(PWR.STAT.AUX_OK, 1), (SEC.STAT.BOOT, 5)]

/-- A write of the management connector that is accepted, with fields that it must find or hand on nonzero or zero. -/
def takes (s : State) (o : Nat) (v : Word) (one zero : List Field) (was0 was1 : List Field) : Bool :=
  s.accepts .mgmt o v && one.all (fun f => f.get v != 0) && zero.all (fun f => f.get v == 0) && was0.all (fun f => !s.is f) &&
    was1.all s.is

/-! ## Builders -/

/-- A number's bytes from offset and value, little-endian. -/
def desc (n : Nat) (l : List (Nat × Nat)) : List Byte := leBytes n (l.map fun e => e.2 * 256 ^ e.1).sum

/-- A packet from module 1 to module 0 with tag 0. -/
def pk (cls typ len info : Nat) (l : List (Nat × Nat)) : Pkt :=
  { dest := 0, src := 1, gen := 0, seq := 0, len := BitVec.ofNat 5 len, cls := BitVec.ofNat 3 cls, typ := BitVec.ofNat 4 typ,
    replay := false, marked := false, info := BitVec.ofNat 48 info, payload := desc (16 * len) l }

/-- The state after a command. -/
def done (c : Instr) (s : State) : State := match exec c s with | .next t => t | _ => s

/-! ## Well-formed commands: a term that each check refuses -/

theorem test_wf_packet_len : Instr.wf (.write 0 { pk 1 0 1 0 [] with len := 17, payload := List.replicate 272 0 }) = false := by decide
theorem test_wf_packet_payload : Instr.wf (.read 0 { pk 1 1 1 0 [] with payload := [] }) = false := by decide
theorem test_wf_pin : Instr.wf (.copy 0 0 ⟨[(0, [70])], [], [], none⟩) = false := by decide
theorem test_wf_store_bits : Instr.wf (.scrubSlice ⟨[], [(0, 8192)], [], none⟩ false) = false := by decide
theorem test_wf_frame : Instr.wf (.frameReceive 0 0 (List.replicate 254 0) 0 0 0) = false := by decide +kernel
theorem test_wf_domain : Instr.wf (.sprout 156) = false := by decide
theorem test_wf_caps : Instr.wf (.caps 0 0 (List.replicate 15 0)) = false := by decide
theorem test_wf_block : Instr.wf (.blockFetchDone (List.replicate 2049 0)) = false := by decide +kernel
theorem test_wf_passes : Instr.wf (.write 0 (pk 1 0 16 0 [])) && Instr.wf (.sprout 155) && Instr.wf .railRampDone = true := by decide +kernel

/-! ## The table gives no bits -/

theorem test_no_word_spells_a_command : decodeTableWord 32 0xFFFFFFFF = none := by decide

/-! ## Results from the manual -/

/-- R9: core 5 of the module at (3, 5, 9). -/
theorem test_fabric_address : fabMod 0x12A3010005000000 = 4771 ∧ fabLocal 0x12A3010005000000 = lsAddr 5 0 := by decide

/-- R241's example lies in stack 1, channel 1, bank 0, row 2048, column 0; its remap words are those of the example of chapter 11. -/
theorem test_remap_words : entryLo (placeOf 0x000400000940) 0 0 = 0x08000011 ∧ entryHi (placeOf 0x000400000940) 0 = 8 := by decide

/-- The activation block of chapter 4: 3.9 saturates, 3.2, −0.0123, 0.00002 and 0.000005, as FP32 words. -/
theorem test_mx_block : (mxBlock fmtE4M3 ([0x4079999A, 0x404CCCCD, 0xBC4985F0, 0x37A7C5AC, 0x36A7C5AC].map num32)).codes =
    [0x7E, 0x7D, 0xBD, 0x01, 0x00] ∧
    (mxBlock fmtE4M3 ([0x4079999A, 0x404CCCCD, 0xBC4985F0, 0x37A7C5AC, 0x36A7C5AC].map num32)).scale = 0x78 := by decide +kernel

/-- The weight tile of chapter 4: 0.021 and −0.0049 give the E2M1 codes 0x7 and 0xB. -/
theorem test_mxfp4 : (mxBlock fmtE2M1 ([0x3CAC0831, 0xBBA0902E].map num32)).codes = [0x7, 0xB] := by decide +kernel

/-- The street gradients of chapter 10: three addends, in this order and another, resolve to 0x3EBF_FFD0. -/
theorem test_squash : floatValue (-60) 0x05FFFE8000002000 = 0x3EBFFFD0 ∧
    (addFloat (-60) (addFloat (-60) (addFloat (-60) 0 (.fin false 3 (-3))).1 (.fin true 3 (-21))).1 (.fin false 0x800001 (-70))).1 =
      0x05FFFE8000002000 := by decide +kernel

/-- Expert layer 40 of chapter 6: slot 8070 of host index 0. -/
theorem test_fennel_slot : (fenDesc (desc 128 [(16, 8192 + 128 * 2 ^ 16), (20, 8192), (72, 0x002000000000), (88, 0x100000), (92, 16384)])).slotAddr 0 8070 =
    0x0020006FC000 := by decide +kernel

/-- The snapshot of chapter 18: the copy of core 5's queue 0 is read with status 0 and 0xC0. -/
theorem test_smbus_read : ((done (.smbBlockRead 0x2850) (fld up [(SNAP.L_Q_DONE.COUNT 20, 192)])).mgmt.out.drop 1).take 5 =
    [0, 0xC0, 0, 0, 0] := by decide +kernel

/-- R352: attempt 2 of step 4097. -/
theorem test_tag : (on up fun m => m.stepsOf fun x => { x with oldest := 4097, attempts := [(4097, 2)] }).tagFor 4097 = 18 := by decide +kernel

/-- R469: a write that no table defines is rejected with code 5, and its first `SEQ` is 1. -/
theorem test_rejection : (done (.registerWrite .mgmt 0xFFFFFC 1) up).f GEN.WERR.CODE = 5 ∧
    (done (.registerWrite .mgmt 0xFFFFFC 1) up).f GEN.WERR.SEQ = 1 := by decide +kernel

/-- R473: lock bits join. -/
theorem test_lock_bits : (done (.lockSet .mgmt 4) (fld up [(GEN.LOCK.BITS, 1)])).f GEN.LOCK.BITS = 5 := by decide +kernel

/-- A step takes the front command and leaves the rest. -/
theorem test_step_takes_front : (match step { up with pending := [.lockSet .mgmt 1, .bypass] } with
    | .next t => t.pending == [.bypass] && t.f GEN.LOCK.BITS == 1 | _ => false) = true := by decide +kernel

/-! ## States and operands that meet the hypotheses of the statements -/

/-- A step on a waiting command: the hypothesis of StepRunsFrontCommand, StepTakesExactlyTheFront and QueueIsServedInOrder. -/
theorem witness_waiting : ({ up with pending := [.bypass, .idcode] } : State).pending = .bypass :: [.idcode] := by decide

/-- The hypothesis of IdleStepIsOneNanosecond. -/
theorem witness_idle : State.reset.pending = [] := by decide

/-- The hypotheses of NoStepLeavesAFault. -/
theorem witness_NoStepLeavesAFault : up.noFaultLeft ∧ ∃ t, step up = .next t := ⟨by unfold Mod.noFaultLeft; decide +kernel, _, rfl⟩

/-- Hypotheses of PlainRegisterWritesComplete, clause by clause. -/
theorem witness_PlainRegisterWritesComplete : (
  let s := on up fun m => m.raiseRST 4 0 0
  [ takes up TOR.SIZE.o 0x010101 [] [] [] [] && !isEvt TOR.SIZE.o,
    evtOff 3 == some RST.EVT.o && s.accepts .mgmt RST.EVT.o 1 && 1 == (s.rd RST.EVT.o).toNat % 0x10000 && (s.rd RST.EVT.o).toNat / 0x10000 % 256 == 4,
    takes up GEN.LOCK.o 1 [] [] [] [], takes up (PWR.RAIL_SET.o 0) 900 [] [] [] [], takes up (PWR.RAIL_SET.o 2) 600 [] [] [] [],
    takes up FEN.CFG.o 1 [] [] [] [], takes up UPD.CFG.o 0 [] [] [] [], takes up DBG.TR_TAIL.o 0 [] [] [] [],
    takes up TST.CFG.o 1 [TST.CFG.MODE] [] [TST.CFG.MODE] [],
    takes (fld up [(TST.CFG.MODE, 1)]) TST.CFG.o 0 [] [TST.CFG.MODE] [] [TST.CFG.MODE],
    takes (fld up [(MEM.CFG.SQ_EN, 1)]) MEM.CFG.o 0 [] [MEM.CFG.SQ_EN] [] [MEM.CFG.SQ_EN] ]).all id = true := by decide +kernel

/-- A queue of the last core with a ring of 16 units. -/
def ring16 : State := fld up [(CORE.Q_SIZE.UNITS 127 3, 16)]

/-- A word with one bit field set. -/
def put (f : Field) : Word := f.put 0 1

/-- Hypotheses of QueueRegisterCommandsComplete, clause by clause. -/
theorem witness_QueueRegisterCommandsComplete : (
  let e := CORE.Q_CTL.ENABLE 127 3
  let r := CORE.Q_CTL.RESUME 127 3
  let o := CORE.CTX_CTL.OPEN 127 15
  let t := CORE.CTX_CTL.TEARDOWN 127 15
  [ takes ring16 (CORE.Q_TAIL.o 127 3) 15 [] [] [] [], takes ring16 e.off (put e) [e] [r] [e] [],
    takes (fld ring16 [(e, 1)]) e.off 0 [] [e, r] [] [e], takes (fld ring16 [(CORE.Q_STAT.HALTED 127 3, 1)]) e.off (put r) [r] [e] [e] [],
    takes up o.off (put o) [o] [] [] [], takes (fld up [(CORE.CTX_STAT.STATE 127 15, 1)]) o.off (put t) [t] [o] [] [] ]).all id = true := by
  decide +kernel

def q0 : State := fld up [(CORE.Q_SIZE.UNITS 127 3, 16)]

def bit (s : State) (f : Field) (zero : List Field) (was0 was1 : List Field) : Bool := takes s f.off (put f) [f] zero was0 was1

/-- Hypotheses of EngineRegisterCommandsComplete, clause by clause. -/
theorem witness_EngineRegisterCommandsComplete : (
  [bit up SNAP.CTL.TAKE [] [] [], bit up UPD.STK_CTL.CLEAR [] [] [],
 bit (fld up [(UPD.CFG.ENABLE,1),(UPD.TW_STEP_LO.VAL,3),(UPD.TW_TGT.TABLE,3),(UPD.TW_DATA.VAL 1,0x3F800000),(UPD.TW_DATA.VAL 2,0x3F800000)]) UPD.TW_GO.GO [] [] [],
 bit up HLT.WIN_SEL.GO [] [] [],
 bit (fld up [(MEM.WIN_ATTR.VALID 15,1)]) (MEM.WIN_CTL.CLEAR 15) [] [] [],
 bit up MPR.REMAP_REQ_HI.GO [] [] [],
 bit (fld up [(MPR.SCRUB_LEN.UNITS,1)]) MPR.SCRUB_CTL.GO [] [] [],
 bit (fld up [(MPR.STAT.SCRUB_BUSY,1)]) MPR.SCRUB_CTL.ABORT [MPR.SCRUB_CTL.GO] [] [],
 bit up TOR.COLL_CTL.ENABLE [TOR.COLL_CTL.RESUME] [TOR.COLL_CTL.ENABLE] [],
 takes (fld up [(TOR.COLL_CTL.ENABLE,1)]) TOR.COLL_CTL.o 0 [] [TOR.COLL_CTL.ENABLE,TOR.COLL_CTL.RESUME] [] [TOR.COLL_CTL.ENABLE],
 bit (fld up [(TOR.COLL_STAT.STOPPED,1)]) TOR.COLL_CTL.RESUME [TOR.COLL_CTL.ENABLE] [TOR.COLL_CTL.ENABLE] [],
 bit (fld up [(DBG.STAT.DEBUG,1)]) DBG.ACC_SEL.GO [] [] [],
 bit up DBG.CTL.ENTER [DBG.CTL.LEAVE] [] [],
 bit (fld up [(DBG.STAT.DEBUG,1)]) DBG.CTL.LEAVE [DBG.CTL.ENTER] [] [],
 bit (fld up [(DBG.TR_SIZE.UNITS,1)]) DBG.TR_CTL.EN [] [DBG.TR_CTL.EN] []] : List Bool).all id = true := by decide +kernel

def port1 (p : Nat) : List Bool :=
  let e := LNK.PORT_CTL.ENABLE p; let r := LNK.PORT_CTL.RETRAIN p; let f := LNK.PORT_CTL.FENCE p; let u := LNK.PORT_CTL.UNFENCE p
 let w (g : Field) : Word := g.put (up.rd e.off) 1
 let b (s : State) (g : Field) (z : List Field) := takes s e.off (w g) [g] z [e] []
[ b up e [r,f,u], takes (fld up [(e,1)]) e.off (up.rd e.off) [] [e,r,f,u] [] [e],
  b (fld up [(LNK.PORT_STAT.STATE p, pUP)]) r [e,f,u],
  b (fld up [(LNK.PORT_STAT.STATE p, pUP)]) f [e,r,u],
  b (on up fun m => m.onPort p fun x => { x with ours := true }) u [e,r,f]]

/-- Hypotheses of LinkRegisterCommandsComplete, clause by clause, at the first and the last port. -/
theorem witness_LinkRegisterCommandsComplete : (port1 0 ++ port1 7).all id = true := by decide +kernel

def tko : List Field := [DUP.TKO_CTL.ARM,DUP.TKO_CTL.DISARM,DUP.TKO_CTL.CONFIRM,DUP.TKO_CTL.REVERSE,DUP.TKO_CTL.SWAP_GO,DUP.TKO_CTL.MFILL_GO]

def tkoBit (s : State) (f : Field) : Bool := bit s f (tko.filter (· != f)) [] []

/-- Hypotheses of DuplexRegisterCommandsComplete, clause by clause. -/
theorem witness_DuplexRegisterCommandsComplete : (
  [ tkoBit (fld (on up fun m => { m with dup := { m.dup with paired := true, peerRole := 1 } }) [(DUP.ROLE.ROLE,1)]) DUP.TKO_CTL.ARM,
  tkoBit up DUP.TKO_CTL.DISARM,
  tkoBit (fld up [(DUP.ROLE.TKO_PENDING,1)]) DUP.TKO_CTL.CONFIRM,
  tkoBit (fld (on up fun m => { m with dup := { m.dup with lostId := some 9 } }) [(DUP.ROLE.TKO_PENDING,1),(DUP.ROLE.ROLE,2),(DUP.CFG.ENABLE,1),(LNK.PORT_STAT.STATE 6, pUP),(LNK.PORT_STAT.PEER 6, 9)]) DUP.TKO_CTL.REVERSE,
  tkoBit (fld up [(DUP.ROLE.ROLE,2),(DUP.CFG.ENABLE,1),(DUP.CFG.PPORT,1),(LNK.PORT_STAT.STATE 7, pUP)]) DUP.TKO_CTL.SWAP_GO,
  tkoBit (on up fun m => { m with dup := { m.dup with paired := true } }) DUP.TKO_CTL.MFILL_GO,
  takes up DUP.CFG.o (DUP.CFG.ROLE_REQ.put 0 3) [] [DUP.CFG.ENABLE] [DUP.CFG.ENABLE] [] && up.roleAsked (up.regW .mgmt DUP.CFG.o (DUP.CFG.ROLE_REQ.put 0 3)) == some 3] : List Bool).all id = true := by decide +kernel

/-- Hypotheses of CheckpointRegisterCommandsComplete, clause by clause. -/
theorem witness_CheckpointRegisterCommandsComplete : (
  [ bit up BLB.CTL.NOW [] [] [], bit up BLB.RS_CTL.GO [] [] [],
  bit (fld up [(BLB.GEN_STAT.STATE 0,3)]) BLB.DR_CTL.GO [BLB.DR_CTL.ABORT] [] [],
  bit up BLB.DR_CTL.ABORT [BLB.DR_CTL.GO] [] [],
  bit up BLB.IM_CTL.BEGIN [BLB.IM_CTL.DONE,BLB.IM_CTL.ABORT] [] [],
  bit (fld up [(BLB.STAT.PHASE,6)]) BLB.IM_CTL.DONE [BLB.IM_CTL.BEGIN,BLB.IM_CTL.ABORT] [] [],
  bit up BLB.IM_CTL.ABORT [BLB.IM_CTL.BEGIN,BLB.IM_CTL.DONE] [] []] : List Bool).all id = true := by decide +kernel

def al : State := fld up [(SEC.FETCH_CTL.ALLOW,1)]

/-- Hypotheses of ParsnipRegisterCommandsComplete, clause by clause. -/
theorem witness_ParsnipRegisterCommandsComplete : (
  [ bit up RST.CTL.WARM [RST.CTL.COLD] [] [], bit up RST.CTL.COLD [] [] [], takes up RST.SP_SEL.o 155 [] [] [] [],
  bit (fld up [(TST.CFG.MODE,1),(TST.UNITS.MASK 0,1),(TST.V_FLOOR.MV,600),(PWR.RAIL_SET.MV 1, 750)]) TST.RUN_CTL.GO [] [] [],
  bit (fld up [(TST.CFG.MODE,1),(TST.STAT.STATE,2)]) TST.RUN_CTL.ABORT [TST.RUN_CTL.GO] [] [],
  bit up TST.CLS_SEL.GO [] [] [], bit (fld up [(TST.CFG.MODE,1)]) TST.CLS_CTL.CLEAR [] [] [], bit up TST.HIST_SEL.GO [] [] [],
  takes al (SEC.STAGE_D.o 255) 0xFFFFFFFF [] [] [] [],
  bit al SEC.STAGE_CTL.DONE [SEC.STAGE_CTL.ABORT] [] [], bit al SEC.STAGE_CTL.ABORT [] [] [],
  takes up SEC.FETCH_CTL.o (SEC.FETCH_CTL.PORT.put (put SEC.FETCH_CTL.SERVE) 6) [SEC.FETCH_CTL.SERVE] [] [] [],
  bit up SEC.ATT_CTL.GO [] [] []] : List Bool).all id = true := by decide +kernel

def st (s : State) (b : Nat) : State := fld s [(SEC.STAT.BOOT, b)]

def go : State := on up fun m => { m with boot := { m.boot with started := true }, power := { m.power with resonator := true, railsOn := [0, 1, 2], railMv := [(0, 750), (1, 750), (2, 750)] } }

def atState (r : Nat) : State := fld go [(RST.STAT.STATE, r)]

/-- Hypotheses of StartUpCommandsComplete, clause by clause. -/
theorem witness_StartUpCommandsComplete : (
  [ !(fld State.reset [(PWR.STAT.AUX_OK, 0)]).is PWR.STAT.AUX_OK && State.reset.is PWR.STAT.AUX_OK && !State.reset.boot.started, State.reset.power.hotDies == [],
  (st go bROM).parsnipUp && go.boot.started && (st go bROM).bootState == bROM && (st go bVERIFY).bootState == bVERIFY,
  (st go bWAIT).bootState == bWAIT && (st go bWAIT).parsnipUp && decide (4000 ≤ (4000#16).toNat ∧ (6000#16).toNat ≤ 6000),
  let s := fld (st go bPOWERUP) [(PWR.STAT.IN_OK,1),(PWR.STAT.PWR_EN,1)]
  s.parsnipUp && s.is PWR.STAT.IN_OK && s.is PWR.STAT.PWR_EN && s.bootState == bPOWERUP && s.power.resonator && !s.power.tripLatch && s.rstState != stFAILED,
  let s := on (fld (st go bFETCH) [(PWR.STAT.IN_OK,1),(PWR.STAT.PWR_EN,1)]) fun m => m.pwr fun p => { p with railsOn := [] }
  s.parsnipUp && s.is PWR.STAT.IN_OK && s.is PWR.STAT.PWR_EN && s.fetching_ && s.power.railsOn == [] && s.bootState != bPOWERUP && !s.power.tripLatch && s.rstState != stFAILED,
  let s := on (st go bTRAIN) fun m => { m with recov := { m.recov with linksTrained := true } }
  s.parsnipUp && s.power.resonator && s.bootState == bTRAIN && s.rstState == stRUN && s.recov.linksTrained,
  let s := on go fun m => { m with boot := { m.boot with seedPending := [3], attBusy := true } }
  s.acts && s.ready && s.boot.seedPending.contains 3 && s.boot.attBusy ] : List Bool).all id = true := by decide +kernel

/-- Hypotheses of SupplyEventsComplete, clause by clause. -/
theorem witness_SupplyEventsComplete : (
  [ go.parsnipUp && go.ready && decide (go.rstState ≠ stFAILED) && !decide (4000 ≤ 3999) && !decide (6001 ≤ 6000), (st go bTRAIN).parsnipUp && !(st go bTRAIN).ready,
  decide (6500 < (65535#16).toNat ∧ (3599#16).toNat < 3600), go.boot.started && !go.power.startPending ] : List Bool).all id = true := by decide +kernel

/-- Core rails that a trim has lowered below their set voltage of 750 mV. -/
def trimmed (mv : Tbl Nat) : State := fld (on go fun m => m.pwr fun p => { p with trim := 1, railMv := (0, 750) :: mv })
  [(PWR.RAIL_SET.MV 1, 750), (PWR.RAIL_SET.MV 2, 750)]

/-- Hypotheses of HardwareCausesAndRailsComplete, clause by clause. -/
theorem witness_HardwareCausesAndRailsComplete : (
  [ go.parsnipUp && !(on go fun m => m.pwr fun p => { p with resetNLow := true }).parsnipUp, go.ready && go.rstState != stFAILED && go.power.railsOn.contains 2 && decide ((569#10).toNat < 570),
  go.acts && !(atState stFAILED).acts && decide (2800 < (2801#16).toNat ∧ (2699#16).toNat < 2700),
  go.power.railsOn.contains 1 && !go.railTested 1 && !go.railTested 2 && decide (610 ≤ go.railMv 1),
  let s := trimmed [(1, 740), (2, 740)]
  s.power.trim != 0 && !s.railTested 1 && !s.railTested 2 && s.railMv 1 + 10 == s.railSet 1 && s.railMv 2 + 10 == s.railSet 2,
  let s := trimmed [(1, 730), (2, 730)]
  decide (s.railMv 1 + 10 < s.railSet 1 ∧ s.railMv 2 + 10 < s.railSet 2),
  let s := fld go [(PWR.RAIL_SET.MV 2, 760)]
  s.power.railsOn.contains 2 && !s.railTested 2 && s.power.trim == 0 && decide (s.railMv 2 < s.railSet 2),
  let s := fld go [(PWR.RAIL_SET.MV 0, 740)]
  s.power.railsOn.contains 0 && !s.railTested 0 && decide (s.railSet 0 < s.railMv 0)] : List Bool).all id = true := by decide +kernel

/-- Hypotheses of ManagementCommandsComplete, clause by clause. -/
theorem witness_ManagementCommandsComplete : (
  [ pec8 ([smbRegs, 0x10, 7] ++ leBytes 3 0 ++ leBytes 4 0) == pec8 ([smbRegs, 0x10, 7] ++ leBytes 3 0 ++ leBytes 4 0) && up.mgmtServes GEN.LOCK.o 1 && (up.driveOut []).regJudge .mgmt GEN.LOCK.o 1 == none,
  (on up fun m => { m with dup := { m.dup with dead := true }}).alertLow,
  (fld up [(DUP.ROLE.TKO_PENDING,1)]).alertLow && up.parsnipUp,
  decide ((2:Byte).toNat ≤ 2), !pmCommands.contains 1, up.scanOk true && up.scanOk false, (fld up [(GEN.LOCK.BITS, 2),(PWR.STAT.PWR_EN,1)]).scanOk true] : List Bool).all id = true := by decide +kernel

/-- Hypotheses of RecoveryEventsComplete, clause by clause. -/
theorem witness_RecoveryEventsComplete : (
  [ let s := on (fld up [(RST.CFG.WATCH_EN,1),(DUP.ROLE.ROLE,1)]) fun m => m.dupOf fun d => { d with probing := some 1 }
  s.watched 151 && s.busy 151,
  let s := on (atState stQUIESCE) fun m => m.recovOf fun r => { r with expiring := [155] }
  s.rstState == stQUIESCE && s.recov.expiring.contains 155 && !s.quiesced 155,
  (atState stQUIESCE).parsnipUp && (atState stQUIESCE).rstState == stQUIESCE && !(atState stQUIESCE).recov.waited && !(atState stQUIESCE).quiesced 155,
  let s := on (atState stQUIESCE) fun m => m.recovOf fun r => { r with waited := true }
  s.parsnipUp && s.rstState == stQUIESCE && s.recov.waited,
  let s := on (atState stQUIESCE) fun m => m.recovOf fun r => { r with acked := List.range 156 }
  s.parsnipUp && s.rstState == stQUIESCE && !s.recov.waited && (List.range 156).all s.quiesced,
  (atState stRESET).parsnipUp && (atState stRESET).rstState == stRESET && stRESET != stRUN && stRESET != stFAILED,
  (atState stRETRAIN).parsnipUp && (atState stRETRAIN).rstState == stRETRAIN && (atState stRETRAIN).power.resonator,
  let s := on (atState stRETRAIN) fun m => m.recovOf fun r => { r with linksTrained := true }
  s.parsnipUp && s.rstState == stRETRAIN && s.recov.linksTrained, !up.down 151 && up.parsnipUp ] : List Bool).all id = true := by decide +kernel

/-- Hypotheses of DebugAndSnapshotEventsComplete, clause by clause. -/
theorem witness_DebugAndSnapshotEventsComplete : (
  [ (fld up [(SNAP.STAT.BUSY,1)]).is SNAP.STAT.BUSY,
  let s := on (fld up [(DBG.STAT.DEBUG,1)]) fun m => { m with accReq := some (put DBG.ACC_SEL.GO) }
  s.is DBG.STAT.DEBUG && s.accReq == some (put DBG.ACC_SEL.GO),
  let s := on (fld up [(DBG.TR_CTL.EN,1),(DBG.TR_CTL.WRAP,1)]) fun m => m.mside fun x => { x with budget := [(2, 1)] }
  s.is DBG.TR_CTL.EN && !s.down 149 && s.budget 2 != 0 && s.traceRoom ] : List Bool).all id = true := by decide +kernel

def plan : State := on (fld up [(TST.STAT.STATE,2)]) fun m => m.tst fun t => { t with plan := [0, 0, 100] }

/-- Hypotheses of FieldTestEventsComplete, clause by clause. -/
theorem witness_FieldTestEventsComplete : (
  [ (fld up [(TST.STAT.STATE,1)]).f TST.STAT.STATE == 1, plan.testing && plan.planField 2 TST.T_TARGET.C != 0 && decide (103 ≤ (103 : Byte).toNat ∧ (100 : Byte).toNat ≤ 100), plan.f TST.STAT.STATE == 2 && !plan.test.trimmed,
  (on up fun m => m.setClass 155 2).unitClass 155 == 2 && (on up fun m => m.setClass 155 2).recent 155 == 0] : List Bool).all id = true := by decide +kernel

def dsc (bs : List Byte) : Desc := ⟨0, 0, 1, bs, 0, 0, 1, 0, false, 0, false⟩

def que (s : State) (l : List Desc) : State := on s fun m => { m with queues := tset (fun _ => Queue.empty) m.queues 511 ⟨l, 0, 1, []⟩ }

def runs (bs : List Byte) : State := que go [dsc bs]

def L : Nat := lsAddr 127 0

def ps (bs : List Byte) (ph : Nat) : Pass := ⟨3, 0, 0, bs, ph, []⟩

def arr (l : List Pass) (a : Nat) : State := on go fun m => m.setArr 127 ⟨[], [], l, a⟩

def passBs : List Byte := desc 128 [(0, 0x0310)]

def badPass : List Byte := desc 128 [(0, 0x10)]

def drainBs : List Byte := desc 128 [(0, 0x0310), (12, 5), (18, 1), (22, 1), (23, 1), (32, 1)]

def readBs : List Byte := desc 128 [(0, 0x0310), (12, 1), (18, 1), (22, 1), (23, 1)]

/-- Queues 0 and 3 of core 127 wait for the array, and the last grant of those waiting went to queue 3. -/
def twoPasses : State := on (runs passBs) fun m => { m with
  queues := tset (fun _ => Queue.empty) m.queues 508 ⟨[dsc passBs], 0, 1, []⟩, arbs := [(127, 4)] }

/-- Core 127's arbiter grants queue `g` on a start of queue `q`, where a pass has started, and none holds the shadow registers. -/
def granted (s : State) (q g : Nat) (bs : List Byte) : Bool :=
  s.grant 127 (s.passRequests 127) q == some g && s.running 127 g 0x10 == some (dsc bs) && !(s.arr 127).passes.any Pass.shadow

/-- Hypotheses of ArrayCommandsComplete, clause by clause. -/
theorem witness_ArrayCommandsComplete : (
  [ granted (runs passBs) 3 3 passBs && (arrDesc passBs).check ((runs passBs).arr 127) == 0,
  granted (runs badPass) 3 3 badPass && (arrDesc badPass).check ((runs badPass).arr 127) == 0x20,
  granted twoPasses 3 0 passBs && (arrDesc passBs).check (twoPasses.arr 127) == 0,
  let p := ps passBs 0; let a := (arr [p] 0).arr 127
  a.passes.find? (·.phase == 0) == some p && !a.waitsDrain p && (arrDesc p.bytes).check (a.before p) == 0,
  let p := ps badPass 0; let a := (arr [p] 0).arr 127
  a.passes.find? (·.phase == 0) == some p && !a.waitsDrain p && (arrDesc p.bytes).check (a.before p) == 0x20,
  let p := { ps readBs 0 with num := 1 }; let a := (arr [ps drainBs 1, p] 1).arr 127
  a.passes.find? (·.phase == 0) == some p && a.waitsDrain p,
  ((arr [ps passBs 3] 0).arr 127).passes.find? (fun p => p.phase == 3 || (p.phase == 1 && !(arrDesc p.bytes).drain)) == some (ps passBs 3),
  ((arr [ps drainBs 1] 0).arr 127).passes.find? (fun p => p.phase == 1 && (arrDesc p.bytes).drain) == some (ps drainBs 1),
  let s := arr [ps readBs 0] 0
  ((s.arr 127).passes.reverse.find? fun p => decide (p.phase < 3) && s.passReads 127 0 p) == some (ps readBs 0) ] : List Bool).all id = true := by decide +kernel

def nopBs : List Byte := desc 64 [(0, 0x0100)]

def cs (s : State) (n : Nat) : State := fld s [(CORE.CTX_STAT.STATE 127 0, n)]

def tk (bs : List Byte) : Desc := { dsc bs with phase := 0 }

/-- The queue is enabled, with one descriptor taken. -/
def ready1 (bs : List Byte) : State := fld (que go [tk bs]) [(CORE.Q_CTL.ENABLE 127 3, 1)]

/-- Hypotheses of QueueCommandsComplete, clause by clause. -/
theorem witness_QueueCommandsComplete : (
  [ let bad := desc 64 [(0,0x0100),(8,1)]
  (ready1 bad).nextStart 127 3 == some (tk bad) && engineOf (hOpcode bad) == 0 && !controlOk bad,
  (cs (ready1 nopBs) 0).nextStart 127 3 == some (tk nopBs) && controlOk nopBs && (cs (ready1 nopBs) 0).f (CORE.CTX_STAT.STATE 127 0) != 1,
  (cs (ready1 nopBs) 1).nextStart 127 3 == some (tk nopBs) && controlOk nopBs && (cs (ready1 nopBs) 1).f (CORE.CTX_STAT.STATE 127 0) == 1,
  let d := { dsc nopBs with phase := 2 }
  (que go [d]).completing 127 3 == ([], [d]) && d.ended && d.phase != 3 && decide (d.num < 2 ^ 32),
  let d := { dsc nopBs with phase := 3 }
  (que go [d]).completing 127 3 == ([], [d]) && d.ended && !(que go [d]).halted 127 3 ] : List Bool).all id = true := by decide +kernel

def syncBs (a : Nat) : List Byte := desc 64 [(0, 0x0101), (8, a)]

def enqBs : List Byte := desc 64 [(0, 0x0102), (8, L), (16, 1 + 2 * 2^18)]

def feedSelf : List Byte := desc 64 [(0, 0x0102), (8, L), (16, 1 + 3 * 2^18)]

/-- Hypotheses of ControlDescriptorsComplete, clause by clause. -/
theorem witness_ControlDescriptorsComplete : (
  [ (runs nopBs).running 127 3 0 == some (dsc nopBs),
  (runs (syncBs L)).running 127 3 1 == some (dsc (syncBs L)) && (runs (syncBs L)).syncAddrOk (dfield (syncBs L) 8 6),
  (runs (syncBs regBase)).running 127 3 1 == some (dsc (syncBs regBase)) && !(runs (syncBs regBase)).syncAddrOk (dfield (syncBs regBase) 8 6),
  let d := { dsc (syncBs L) with wait := 4 }
  (que go [d]).waiter 127 3 4 == some d && !d.stopped && ((que go [d]).loadNat (By.core 127 0) L 4).2 == some 0,
  let s := fld (runs enqBs) [(CORE.Q_CTL.FEED 127 2, 1), (CORE.Q_SIZE.UNITS 127 2, 16)]
  s.running 127 3 2 == some (dsc enqBs) && inStore 127 (dfield enqBs 8 6) 64 && dbits enqBs 16 17 0 == 1 && dbits enqBs 16 19 18 == 2 && s.is (CORE.Q_CTL.FEED 127 2) && 2 != 3 && decide (1 + 1 ≤ s.ringSize 127 2),
  let s := fld (runs feedSelf) [(CORE.Q_CTL.FEED 127 3, 1), (CORE.Q_SIZE.UNITS 127 3, 16), (CORE.Q_TAIL.OFFSET 127 3, 1)]
  let d := dsc feedSelf
  s.running 127 3 2 == some d && dbits feedSelf 16 19 18 == 3 && s.is (CORE.Q_CTL.FEED 127 3) &&
    (d.off + d.units) % max (s.ringSize 127 3) 1 == s.f (CORE.Q_TAIL.OFFSET 127 3) && decide (1 + 1 + d.units ≤ s.ringSize 127 3),
  let d := { dsc enqBs with wait := 3 }
  (que go [d]).waiter 127 3 3 == some d,
  let d := { dsc enqBs with wait := 3 }
  let s := fld (que go [d]) [(CORE.Q_CTL.FEED 127 2, 1), (CORE.Q_SIZE.UNITS 127 2, 16)]
  let reqs := s.roomRequests 127 2 3
  let r := (s.granted (1024 + 4 * 127 + 2) reqs 3).load (By.core 127 d.tag) (dfield enqBs 8 6) 64
  s.waiter 127 3 3 == some d && !d.stopped && decide (1 ≤ s.ringFree 127 2) && s.grant (1024 + 4 * 127 + 2) reqs 3 == some 3 && r.2.isSome &&
    (r.1.unitStores (By.core 127 d.tag) (ringPieces (r.1.ringBase 127 2) (r.1.ringSize 127 2) (r.1.f (CORE.Q_TAIL.OFFSET 127 2)) (r.2.getD []))).2,
  let b := desc 64 [(0, 0x0103)]
  (runs b).running 127 3 3 == some (dsc b) && !(earlier ((runs b).queue 127 3).taken (dsc b)).any (·.phase == 0) ] : List Bool).all id = true := by decide +kernel

def copyBs : List Byte := desc 64 [(0, 0x0120), (8, L), (16, L + 0x100000), (24, 16), (28, 1)]

def skewBs : List Byte := desc 128 [(0, 0x0221), (8, L), (24, 16), (44, 1), (48, 1)]

def weightBs : List Byte := desc 128 [(0, 0x0222), (8, L), (24, 16), (40, 2^5)]

def scatBs : List Byte := desc 128 [(0, 0x0223), (8, L), (16,0), (20, 1), (24, 1), (28, 16), (32, 64)]

/-- The module of `runs bs` once core 127's DMA engine is granted to queue 3, and whether it is and is not held back. -/
def dma (bs : List Byte) : Mod := (runs bs).granted (256 + 127) ((runs bs).engineRequests 127 [0x20, 0x21, 0x22, 0x23]) 3

def onDma (bs : List Byte) : Bool :=
  (runs bs).grant (256 + 127) ((runs bs).engineRequests 127 [0x20, 0x21, 0x22, 0x23]) 3 == some 3 && !(dma bs).dmaHeld 127 && dma bs == (runs bs).toMod

/-- Hypotheses of DmaDescriptorsComplete, clause by clause. -/
theorem witness_DmaDescriptorsComplete : (
  [ onDma copyBs, (dma copyBs).running 127 3 0x20 == some (dsc copyBs), (dma copyBs).copyCheck (copyDesc copyBs) == 0, (dma copyBs).badGranule 0 ((dma copyBs).dmaReads copyBs) == none,
  onDma skewBs && (runs skewBs).running 127 3 0x21 == some (dsc skewBs), (runs skewBs).skewCheck (skewDesc skewBs) == 0, (runs skewBs).badGranule 0 ((runs skewBs).dmaReads skewBs) == none,
  let r := (runs skewBs).loads (By.core 127 0) (skewDesc skewBs).rowReads
  r.2.isSome && (r.1.loads (By.core 127 0) ((List.range (skewDesc skewBs).m).flatMap (skewDesc skewBs).scaleReads)).2.isSome,
  onDma weightBs && (runs weightBs).running 127 3 0x22 == some (dsc weightBs), (runs weightBs).weightCheck (weightDesc weightBs) == 0, (runs weightBs).badGranule 0 ((runs weightBs).dmaReads weightBs) == none,
  let s := runs weightBs; let d := weightDesc weightBs
  let r := s.loads (By.core 127 0) d.rowReads; let t := r.1.loads (By.core 127 0) d.metaReads
  r.2.isSome && t.2.isSome && (t.1.loads (By.core 127 0) d.scaleReads).2.isSome,
  let d := scatterDesc scatBs
  onDma scatBs && (runs scatBs).running 127 3 0x23 == some (dsc scatBs) && d.rsv == 0 && d.n != 0 && d.rowlen != 0 && d.limit != 0 && d.dpitch % elemWidth d.afmt == 0 && decide (d.idx * 64 + 4 * d.n ≤ lsSize) &&
      decide (d.val * 64 + (d.n - 1) * d.vpitch * 64 + d.rowlen * addWidth d.afmt ≤ lsSize) &&
      ((runs scatBs).load (By.core 127 0) (lsAddr 127 (d.idx * 64)) (4 * d.n)).2.isSome,
  let d := { dsc copyBs with wait := 1 }; let s := que go [d]
  s.waiter 127 3 1 == some d && s.badGranule d.tag (s.dmaReads d.bytes) == none && (s.copyGo 127 3 d).heldWrites == [],
  let h : HeldWrite := ⟨127, 3, 0, L, [1], true⟩
  let s := on (que go [dsc copyBs]) fun m => { m with heldWrites := [h] }
  s.waiter 127 3 1 == none && s.heldWrites.filter (fun h => h.core == 127 && h.q == 3 && h.lands) == [h] &&
    (s.queue 127 3).taken.find? (·.num == h.num) == some (dsc copyBs) ] : List Bool).all id = true := by decide +kernel

def eltBs : List Byte := desc 64 [(0,0x0130),(8,7),(12,1+2^16),(16,0),(22,64)]

def redBs : List Byte := desc 64 [(0,0x0134),(8,1),(12,1+2^16),(22,64)]

def amaxBs : List Byte := desc 64 [(0,0x0132),(12,1+2^16),(22,64)]

def rankBs : List Byte := desc 64 [(0,0x0133),(12,1+2^16),(22,64)]

def quantBs : List Byte := desc 64 [(0,0x0131),(8,3 * 2^12),(12,1+2^16),(22,64)]

/-- Core 127's vector engine is granted to queue 3 of `runs bs`, which no other queue waits for. -/
def onVec (bs : List Byte) : Bool :=
  let reqs := (runs bs).engineRequests 127 [0x30, 0x31, 0x32, 0x33, 0x34]
  (runs bs).grant (384 + 127) reqs 3 == some 3 && (runs bs).granted (384 + 127) reqs 3 == (runs bs).toMod

/-- Hypotheses of VectorDescriptorsComplete, clause by clause. -/
theorem witness_VectorDescriptorsComplete : (
  [ onVec eltBs && onVec redBs && onVec amaxBs && onVec rankBs && onVec quantBs, let s := runs eltBs; let d := vecDesc eltBs; let r := s.opA 127 0 d
  s.running 127 3 0x30 == some (dsc eltBs) && d.eltBad == 0 &&
  let b := r.1.opBC 127 0 d d.srcB d.pitchB d.bcastB (decide (2 ≤ eltArgs d.fn))
  r.2.isSome && b.2.isSome && (b.1.opBC 127 0 d d.srcC d.pitchC d.bcastC (eltArgs d.fn == 3)).2.isSome,
  let s := runs redBs; let d := vecDesc redBs
  s.running 127 3 0x34 == some (dsc redBs) && d.redBad == 0 && (s.opA 127 0 d).2.isSome,
  let s := runs amaxBs; let d := vecDesc amaxBs
  s.running 127 3 0x32 == some (dsc amaxBs) && d.amaxBad == 0 && (s.opA 127 0 d).2.isSome,
  let s := runs rankBs; let d := vecDesc rankBs
  s.running 127 3 0x33 == some (dsc rankBs) && d.rankBad == 0 && (s.opCodes 127 0 d.srcA d.pitchA d.rows d.n 4).2.isSome,
  let s := runs quantBs; let d := vecDesc quantBs; let r := s.loadNat (By.core 127 0) (s.recAddr d.rcd) 8
  s.running 127 3 0x31 == some (dsc quantBs) && !d.quantField && r.2 == some 0 && recOk 0 && !d.quantRange ((scaleRec 0).mode == 2) &&
    (r.1.quantAmax 127 0 d (scaleRec 0)).2.isSome && ((r.1.quantAmax 127 0 d (scaleRec 0)).1.opA 127 0 d).2.isSome ] : List Bool).all id = true := by decide +kernel

def rq : Req := ⟨127, 15, 0, 0, 3, 0, 0, 0, 0, 0, 0, true, false⟩

/-- Hypotheses of ContextCommandsComplete, clause by clause. -/
theorem witness_ContextCommandsComplete : (
  [ (fld up [(CORE.CTX_STAT.STATE 127 15, 2)]).ctxState 127 15 == 2 && (fld up [(CORE.CTX_STAT.STATE 127 15, 2)]).f (CORE.CTX_OUT.COUNT 127 15) == 0,
  ((on up fun m => { m with reqs := [rq] }).reqs.filter fun r => r.core == 127 && r.ctx == 15 && r.tag == 0 && !r.dead) == [rq],
  ([0, 1, 2, 3].any fun q => (up.queue 127 q).taken.any fun d => hCtx d.bytes == 15 && d.phase == 1) == false,
  (up.reqs.filter fun r => r.core == 127 && r.ctx == 15 && r.tag == 0 && !r.dead) == [] ] : List Bool).all id = true := by decide +kernel

def slice1 (s : State) : State := fld s [(TOR.TORUS.TX,1),(TOR.TORUS.TY,1),(TOR.TORUS.TZ,1),(TOR.SIZE.SX,1),(TOR.SIZE.SY,1),(TOR.SIZE.SZ,1)]

def fenBs (op logit : Nat) : List Byte := desc 128 [(0,0x0800 + op),(8,1 + 2^16),(12,2),(16,1 + 2^16),(20,16),(24,logit),(32,0x1000),(40,64),(48,0x2000),(56,0x3000),(64,0x4000),(72,0x8000),(80,0x10000),(88,64),(92,64),(96,0x6000),(104,0x7000)]

def fenOn (s : State) : State := on (slice1 (fld s [(FEN.CFG.ENABLE,1)])) fun m => { m with mem := putBytes byte0 m.mem 0x4000 (leBytes 8 0 ++ leBytes 8 (2^16)) }

def op0 : FenOp := ⟨127,3,0,0,0,0x40,0,0,fenBs 0x40 0x9000,[],[],[],[],[],[],false,false,0⟩

/-- A slice of one module whose collectives engine holds the module's words for a use: all that such a slice gathers (R330). -/
def holds (s : State) (kind inst : Nat) (words : List Nat) : State := on (slice1 (fld s [(TOR.CFG.ENABLE, 1)])) fun m => m.contributeOwn kind inst 0 words

def scans (w : List Nat) : State := holds (on (fenOn up) fun m => { m with fen := { m.fen with ops := [op0] } }) kScan op0.scanUse w

/-- Hypotheses of FennelCommandsComplete, clause by clause. -/
theorem witness_FennelCommandsComplete : (
  [ (fenOn (runs (fenBs 0x40 0x90000))).running 127 3 0x40 == some (dsc (fenBs 0x40 0x90000)),
  ((fenOn (runs (fenBs 0x40 0x90000))).fenCheck 127 3 (dsc (fenBs 0x40 0x90000))).2.1 == 0,
  (fenOn (runs (fenBs 0x41 0))).running 127 3 0x41 == some (dsc (fenBs 0x41 0)) && ((fenOn (runs (fenBs 0x41 0))).fenCheck 127 3 (dsc (fenBs 0x41 0))).2.1 == 0,
  (fenOn (runs (fenBs 0x42 0))).running 127 3 0x42 == some (dsc (fenBs 0x42 0)) && ((fenOn (runs (fenBs 0x42 0))).fenCheck 127 3 (dsc (fenBs 0x42 0))).2.1 == 0,
  (fenOn (runs (fenBs 0x43 0))).running 127 3 0x43 == some (dsc (fenBs 0x43 0)) && ((fenOn (runs (fenBs 0x43 0))).fenCheck 127 3 (dsc (fenBs 0x43 0))).2.1 == 0,
  (fenOn (runs (fenBs 0x40 0x90000))).fenRequests == [] && (fenOn (runs (fenBs 0x40 0x90000))).is FEN.CFG.ENABLE &&
    decide ((4:Nat) ≤ (on up fun m => { m with fen := { m.fen with ops := List.replicate 4 op0 } }).fen.ops.length),
  let d := { dsc (fenBs 0x43 0) with wait := 5 }; let s := fenOn (que go [d])
  s.fenRequests == [511] && s.grant 128 s.fenRequests (4 * 127 + 3) == some 511 && s.waiter (511 / 4) (511 % 4) 5 == some d &&
    ((s.granted 128 s.fenRequests 511).fenCheck (511 / 4) (511 % 4) d).2.1 == 0,
  let w := (fenDesc op0.bytes).signature
  let s := scans w
  s.fen.ops[0]? == some op0 && op0.op == 0x40 && !op0.scanned && (s.scanHeld 0).isSome && s.gathered kScan op0.scanUse == some [w] && !([w].any fun x => x.take 9 != w) &&
    ((s.smallTaken kScan op0.scanUse).placement op0.by_ (fenDesc op0.bytes)).2.isSome,
  (scans []).gathered kScan op0.scanUse == some [[]] && [([] : List Nat)].any fun x => x.take 9 != (fenDesc op0.bytes).signature ] : List Bool).all id = true := by decide +kernel

def upd (s : State) (f : Upd → Upd) : State := on s fun m => { m with upd := f m.upd }

def run6 : State := upd up fun u => { u with running := true, latched := true }

def pass6 : State := upd up fun u => { u with running := true, latched := true, allowed := true, vote1 := 1, vote2 := 1 }

/-- A spare in a swap to its identity, with its slice of eight beyond it. -/
def beyond (s : State) : State := on (fld s [(TOR.SIZE.SX, 2), (TOR.SIZE.SY, 2), (TOR.SIZE.SZ, 2)]) fun m => m.dupOf fun d => { d with swapping := true }

/-- Hypotheses of UpdateCommandsComplete, clause by clause. -/
theorem witness_UpdateCommandsComplete : (
  [ let s := upd (fld up [(UPD.CFG.ENABLE,1)]) fun u => { u with shards := [(up.steps.oldest, 0, 2)] }
  s.sixReady,
  run6.upd.running && run6.upd.latched && run6.upd.vote1 == 0 && !run6.upd.lossBad && run6.upd.listBad == none &&
   (upd run6 fun u => { u with listBad := some 0 }).upd.listBad != none,
  let r := run6.sixRead 0 [(run6.listOff, 64 * run6.listN)]; let a := r.1.sixRead 0 (Mod.maskRanges (r.1.listIn (r.2.getD [])))
  r.2.isSome && a.2.isSome && (a.1.sixRead 1 (Mod.maskRanges (r.1.listIn (r.2.getD [])))).2.isSome,
  let s := holds pass6 kVote1 pass6.upd.step [0, 0]
  !s.outside && s.upd.running && s.upd.vote1 == 1 && s.gathered kVote1 s.upd.step == some [[0, 0]] && s.ownWritable.2 &&
    (s.ownWritable.1.vote1Reads (maskList 0)).2.isSome,
  let s := beyond pass6
  s.outside && s.upd.running && s.upd.vote1 == 1 && s.upd.vote2 == 1 && s.ownWritable.2 && (s.ownWritable.1.vote1Reads (maskList 0)).2.isSome,
  pass6.passDue && !pass6.upd.ownDone && pass6.ownWritable.2 && (pass6.ownWritable.1.applyWrites false).dueWrites false == [] && ((pass6.ownWritable.1.applyWrites false).runPass 0).2.isSome,
  let s := holds pass6 kVote2 pass6.upd.step [0]
  !s.outside && s.upd.vote2 == 1 && s.gathered kVote2 s.upd.step == some [[0]],
  pass6.passDue && !pass6.upd.mirDone && (pass6.applyWrites true).dueWrites true == [] && ((pass6.applyWrites true).runPass 1).2.isSome ] : List Bool).all id = true := by decide +kernel

/-- Hypotheses of LossTileAndReplayComplete, clause by clause. -/
theorem witness_LossTileAndReplayComplete : (
  [ let s := holds (upd up fun u => { u with lossDue := some 0, lossVoted := true }) kLoss 0 [0x3F800000, 5]
  !s.outside && s.upd.lossDue == some 0 && s.upd.lossVoted && s.gathered kLoss 0 == some [[0x3F800000, 5]] && decide ((column [[0x3F800000, 5]] 1).sum < 2 ^ 64),
  let s := beyond (upd up fun u => { u with lossDue := some 0, lossVoted := true })
  s.outside && s.upd.lossDue == some 0 && s.upd.lossVoted,
  let s := on (fld up [(HLT.TC_CTL.EN, 1)]) fun m => (m.hltOf fun h => { h with samples := [⟨127, 0, []⟩] }).mside fun x => { x with budget := [(1, 1)] }
  s.tileWindow && s.budget 1 != 0 && s.health.samples.find? (·.core == 127) == some ⟨127, 0, []⟩,
  let s := on up fun m => m.stepsOf fun x => { x with failed := some (0, 0), attempts := [(0, 14)] }
  s.steps.failed == some (0, 0) && s.attempt 0 != 15 ] : List Bool).all id = true := by decide +kernel

def ft : Fetch := ⟨0, 0, true, 0, false, [], false⟩

/-- Hypotheses of MemoryCommandsComplete, clause by clause. -/
theorem witness_MemoryCommandsComplete : (
  [ !up.is (MEM.WIN_STAT.OPEN 15), (fld up [(MEM.STAT.TRAINED, 255)]).inService 7, 
  (on up fun m => m.mside fun x => { x with remaps := [⟨7, 15, 0, 0, 1⟩] }).memside.remaps.find? (·.stack == 7) == some ⟨7, 15, 0, 0, 1⟩,
  let s := on (fld up [(MPR.STAT.SCRUB_BUSY,1)]) fun m => m.mside fun x => { x with budget := [(0, 1)] }
  s.is MPR.STAT.SCRUB_BUSY && s.budget 0 != 0 && !s.stacksRest,
  let s := on up fun m => m.mside fun x => { x with fetches := [ft] }
  s.memside.fetches.find? (fun f => f.sent && !f.lost) == some ft && (List.replicate 2048 (0 : Byte)).length == 2048 &&
    (s.store ⟨3, none, 3, 128⟩ (s.fetchBase ft.target + ft.off) (List.replicate 2048 1)).2] : List Bool).all id = true := by decide +kernel

def prt (s : State) (p : Nat) (state : Nat) (f : Port → Port) : State := on (fld s [(LNK.PORT_STAT.STATE p, state)]) fun m => m.onPort p f

def capsB (p : Nat) (rank : Nat) : List Byte := leBytes 16 (2^16 + p * 2^24 + rank * 2^48)

def negs (p q : Nat) : List Bool :=
  [ let s := prt up p pTRAINING fun x => { x with base := true }
  s.pstate p == pTRAINING && (s.port p).base && (s.port p).caps == [] && s.power.resonator,
  let c := capsB q 0
  let s := prt up p pTRAINING fun x => { x with base := true, caps := [(0, c)] }
  s.pstate p == pTRAINING && (s.port p).base && !((s.port p).caps.any fun d => !peerPortOk p (capsPort d.2) || capsId d.2 != capsId c) && (capsVersions c).testBit 0 && c.length == 16 && leNat (c.drop 8) == 0 && capsRank c == 0,
  let s := prt up p pTRAINING fun x => { x with base := false, rank := 1, fibres := 15, peerReport := some 15 }
  s.pstate p == pTRAINING && !(s.port p).base && (s.port p).rank != 0 && (s.port p).peerReport == some 15 && 15 &&& (15#4).toNat &&& (s.port p).fibres == (s.port p).fibres && capsRank (capsB q 1) == (s.port p).rank && (capsB q 1).length == 16 && leNat ((capsB q 1).drop 8) == 0,
  let s := prt up p pTRAINING fun x => { x with base := false, rank := 1, fibres := 15, peerReport := none }
  (s.port p).peerReport == none && (s.port p).fibres != 0,
  let s := prt up p pTRAINING fun x => { x with base := false, rank := 1, fibres := 15, peerReport := some 7 }
  s.pstate p == pTRAINING && !(s.port p).base && (s.port p).rank != 0 && s.power.resonator && 7 &&& (15#4).toNat &&& (s.port p).fibres != (s.port p).fibres &&
    0 &&& (15#4).toNat &&& (s.port p).fibres != (s.port p).fibres,
  let s := prt (fld up [(LNK.PORT_CTL.ENABLE p, 1)]) p pDOWN id
  s.pstate p == pDOWN && s.is (LNK.PORT_CTL.ENABLE p) && !(s.port p).wiring && !s.down (136 + p),
  ((prt up p pDOWN fun x => { x with reup := some (5, q) }).port p).reup == some (5, q) ]

/-- Hypotheses of NegotiationCommandsComplete, clause by clause, at the first and the last port. -/
theorem witness_NegotiationCommandsComplete : (negs 0 1 ++ negs 7 7).all id = true := by decide +kernel

def links (p : Nat) : List Bool :=
  [ let s := prt go p pUP id
  s.lit && s.pstate p == pUP && (s.port p).resend == none && decide (((s.port p).fseq + 65536 - (s.port p).acked) % 65536 < 256) && !s.dup.dead,
  ((prt go p pUP fun x => { x with resend := some 0 }).port p).resend == some 0, (prt go p pFENCED id).pstate p == pFENCED && (prt go p pFENCED id).lit,
  lcuFence (BitVec.ofNat 128 (2^33)) && !lcuFence 0,
  let pk : Pkt := { dest := 1, src := 0, gen := 0, seq := 0, len := 0, cls := 7, typ := 2, replay := false, marked := false, info := 0, payload := [] }
  let s := prt up p pUP fun x => { x with ready := [(pk, none)], cl := [(7, 34)] }
  s.pstate p == pUP && !(s.port p).peerFences && !(s.port p).fifoFull && s.grant (512 + p) ((s.port p).sendRequests p) 7 == some 7 &&
    (s.port p).sendable p 7 == some (pk, none),
  -- two classes wait, and the arbiter's last grant went to class 2: class 7 is next, whatever class the command names
  let pk : Pkt := { dest := 1, src := 0, gen := 0, seq := 0, len := 0, cls := 7, typ := 2, replay := false, marked := false, info := 0, payload := [] }
  let rsp : Pkt := { pk with cls := 2, typ := 0 }
  let s := on (prt up p pUP fun x => { x with ready := [(rsp, none), (pk, none)], cl := [(2, 34), (7, 34)] }) fun m => { m with arbs := [(512 + p, 3)] }
  s.grant (512 + p) ((s.port p).sendRequests p) 2 == some 7 && (s.port p).sendable p 7 == some (pk, none),
  let s := prt (fld up [(LNK.PORT_CTL.HB_EN p, 1)]) p pUP id
  s.is (LNK.PORT_CTL.HB_EN p) && !(s.port p).hbSilent ]

/-- Hypotheses of LinkCommandsComplete, clause by clause, at the first and the last port. -/
theorem witness_LinkCommandsComplete : (links 0 ++ links 7).all id = true := by decide +kernel

def hands (s : State) (port : Nat) (q : Pkt) : Bool :=
  s.pstate port == pUP && !s.fetching_ && pktOk q && q.cls != 0 && !s.hostPort port && !s.foreign port q && !s.lateWarm q &&
    (!s.is TST.CFG.MODE || testCarries q) && !s.memside.paths.contains (136 + port) && s.takes port q && !s.passesOn q &&
    (q.cls.toNat != clsSQ || s.tagCurrent (tagOf q)) && (s.tagLive (tagOf q) || s.tagFree q) && s.boot.serving == none && (s.track q).2

/-- Module 0 of a slice of two, module 1 behind ports 0 and 6. -/
def two : State := fld go ([(TOR.TORUS.TX,2),(TOR.TORUS.TY,1),(TOR.TORUS.TZ,1),(TOR.SIZE.SX,2),(TOR.SIZE.SY,1),(TOR.SIZE.SZ,1)] ++
  [0, 6].flatMap fun p => [(LNK.PORT_STAT.STATE p, pUP), (LNK.PORT_STAT.PEER p, 1), (LNK.PORT_STAT.PEER_PORT p, if p = 0 then 1 else 6)])

def hp (s : State) (q : Pkt) : Bool := hands s 0 q

def wr0 : Nat := 1 + 2^46

/-- Whether an answer is a refusal. -/
def isInr {α β : Type} : α ⊕ β → Bool
  | .inl _ => false
  | .inr _ => true

/-- A unit that no read can correct. -/
def bad (s : State) (u : Nat) : State := on s fun m => m.mside fun x => { x with hbmErr := [(u, [0, 1, 2])] }

/-- Hypotheses of RequestPacketsComplete, clause by clause. -/
theorem witness_RequestPacketsComplete : (
  [ let q := pk 1 0 1 wr0 [(0, 0xFF)]
  hp two q && two.fabricAddr (destOf q) 1 0 16 == .inl (lsAddr 0 0) && ioSpace (infoOf q) == 1 && ioOffset (infoOf q) == 0 && ioBytes q == 16 && ioLast (infoOf q) &&
    (two.canRead (By.hub (some (tagOf q))) (two.writeStops (lsAddr 0 0) (ioBytes q))).2 &&
    ((two.canRead (By.hub (some (tagOf q))) (two.writeStops (lsAddr 0 0) (ioBytes q))).1.store (By.hub (some (tagOf q))) (lsAddr 0 0) (writeBytes q)).2,
  let q := pk 1 0 1 (2^46) [(0, 0xFF)]
  let s := on two fun m => m.mside fun x => { x with hbmErr := [(0, [0, 1, 2])] }
  hp s q && s.fabricAddr (destOf q) 0 (ioOffset (infoOf q)) (ioBytes q) == .inl 0 && ioSpace (infoOf q) == 0 &&
    !(s.canRead (By.hub (some (tagOf q))) (s.writeStops 0 (ioBytes q))).2,
  let q := pk 1 0 1 2 [(0, 1)]
  hp two q && two.fabricAddr (destOf q) 2 (ioOffset (infoOf q)) (ioBytes q) == .inl regBase,
  let q := pk 1 1 1 2 [(0, 4)]
  hp (fld two [(TST.CFG.MODE, 1)]) q && (fld two [(TST.CFG.MODE, 1)]).fabricAddr 0 2 0 4 == .inl regBase,
  let q := pk 1 1 1 1 [(0, 65536)]
  hp two q && payNat q 0 4 == 65536 && two.fabricAddr 0 1 0 65536 == .inl (lsAddr 0 0) && (two.load (By.hub (some 0)) (lsAddr 0 0) 16).2.isSome,
  let q := pk 1 1 1 2 [(0, 4)]
  hp two q && payNat q 0 4 == 4 && two.fabricAddr 0 2 0 4 == .inl regBase,
  let q := { pk 1 0 1 wr0 [(0, 0xFF)] with dest := 2 }
  hp two (pk 1 0 1 (2 + 4 * 2 ^ 32) []) && isInr (two.fabricAddr 0 2 (16 * 2 ^ 32) 16) && isInr (two.fabricAddr (destOf q) 2 0 16),
  hp two (pk 1 1 1 1 []) && payNat (pk 1 1 1 1 []) 0 4 == 0 && hp two (pk 1 1 1 1 [(0, 65537)]) && payNat (pk 1 1 1 1 [(0, 65537)]) 0 4 == 65537,
  let q := pk 1 1 1 2 [(0, 1)]
  hp two q && payNat q 0 4 == 1 && isInr (two.fabricAddr (destOf q) 2 (ioOffset (infoOf q)) 1),
  let q := pk 1 1 1 0 [(0, 1)]
  hp (bad two 0) q && (bad two 0).fabricAddr (destOf q) 0 (ioOffset (infoOf q)) 1 == .inl 0 &&
    ((bad two 0).load (By.hub (some (tagOf q))) 0 1).2 == none ] : List Bool).all id = true := by decide +kernel

def rq2 (kind land : Nat) (dead : Bool) : Req := ⟨0, 0, 0, 0, 0, 0, 1, 0, kind, land, 16, true, dead⟩

/-- Module 0 with a request outstanding, and whether a response names it. -/
def asks (r : Req) : State := on two fun m => { m with reqs := [r], queues := [(0, ⟨[dsc copyBs], 0, 1, []⟩)] }

def names (r : Req) (q : Pkt) : Bool :=
  let s := asks r
  hp s q && s.relayFor q == none && (
    if q.typ.toNat = 0 then s.reqFor (fun r => r.dest == srcOf q && r.tag == tagOf q && r.seq == infoOf q % 2 ^ 24 && r.kind != 1 && r.kind != 3) == some r
    else if q.typ.toNat = 2 then s.reqFor (fun r => r.dest == srcOf q && r.tag == tagOf q && r.seq == infoOf q % 2 ^ 24 && r.kind != 3) == some r
    else s.reqFor (fun r => r.dest == srcOf q && r.tag == tagOf q && r.kind == 1 && r.seq == infoOf q % 2 ^ 32 % 2 ^ 24) == some r)

/-- Hypotheses of ResponsePacketsComplete, clause by clause. -/
theorem witness_ResponsePacketsComplete : (
  let far := 2 ^ 48 + lsAddr 0 0
  let bs := (pk 2 1 1 0 [(0, 1)]).payload.take 16
  [ names (rq2 0 (lsAddr 0 0) false) (pk 2 0 0 0 []),
  names (rq2 0 (lsAddr 0 0) false) (pk 2 2 0 0 []) && !(asks (rq2 0 (lsAddr 0 0) false)).reqLate (rq2 0 (lsAddr 0 0) false),
  names (rq2 0 (lsAddr 0 0) true) (pk 2 2 0 0 []) && (asks (rq2 0 (lsAddr 0 0) true)).reqLate (rq2 0 (lsAddr 0 0) true),
  let r := rq2 1 (lsAddr 0 0) false; let s := asks r
  names r (pk 2 1 1 0 [(0, 1)]) && !s.reqLate r && ((s.queue 0 0).taken.find? (·.num == 0)) == some (dsc copyBs) && !s.byPacket (lsAddr 0 0) &&
    !(s.count (CORE.SN_DMA_BYTES_LO.o 0) 16).stalkHeld 0 0 (dsc copyBs) [(fabLocal (lsAddr 0 0), 16)] &&
    (Mod.store ((s.count (CORE.SN_DMA_BYTES_LO.o 0) 16).fillGranules 0 [(fabLocal (lsAddr 0 0), 16)]) (By.core 0 0) (fabLocal (lsAddr 0 0)) bs).2,
  let r := rq2 1 far false; let s := asks r
  names r (pk 2 1 1 0 [(0, 1)]) && !s.reqLate r && ((s.queue 0 0).taken.find? (·.num == 0)) == some (dsc copyBs) && s.byPacket far && !(dsc copyBs).stopped,
  let r := rq2 1 0 false; let q := pk 2 1 1 0 [(0, 1)]
  let s := on (fld (asks r) [(UPD.STK_GRAN.COUNT, 1)]) fun m => { m with
    stalk := [(0, 8)]
    queues := m.queues ++ [(1, ⟨[{ dsc (desc 64 [(0, 0x0120), (16, L), (24, 16), (28, 1)]) with tag := 7 }], 0, 1, []⟩)] }
  hp s q && s.relayFor q == none && !s.reqLate r && ((s.queue 0 0).taken.find? (·.num == 0)) == some (dsc copyBs) && !s.byPacket 0 &&
    s.reqFor (fun r => r.dest == srcOf q && r.tag == tagOf q && r.kind == 1 && r.seq == infoOf q % 2 ^ 32 % 2 ^ 24) == some r &&
    (s.count (CORE.SN_DMA_BYTES_LO.o 0) 16).stalkHeld 0 0 (dsc copyBs) [(fabLocal 0, 16)],
  let r := rq2 1 (lsAddr 0 0) true
  names r (pk 2 1 1 0 [(0, 1)]) && (asks r).reqLate r ] : List Bool).all id = true := by decide +kernel

/-- The bridge, with a host adapter on P7 and an input window of 2 MiB at 0. -/
def host : State := fld two [(LNK.PORT_STAT.STATE 7, pUP), (LNK.PORT_STAT.PEER 7, 9), (LNK.PORT_STAT.PEER_PORT 7, 8), (TOR.BRIDGE_STAT.ACTIVE, 1),
  (TOR.IN_SIZE.UNITS, 1)]

/-- Hypotheses of HostRequestsComplete, clause by clause. -/
theorem witness_HostRequestsComplete : (
  [ host.pstate 7 == pUP && !host.fetching_ && host.hostPort 7 && host.bridging && !host.lateWarm (pk 1 0 1 0 []) && !host.is TST.CFG.MODE &&
    !host.memside.paths.contains 143,
  let q := pk 1 0 1 (2^46) [(0, 0xFF)]
  pktOk q && ioSpace (infoOf q) == 0 && destOf q == host.id && decide (q.len.toNat ≤ 15) && host.inWindow (ioOffset (infoOf q)) (ioBytes q) &&
    host.inWork (ioOffset (infoOf q)) (ioBytes q) && !host.dup.paired && (on host fun m => m.dupOf fun d => { d with paired := true }).dup.paired,
  let q := { pk 1 0 1 (2^46) [(0, 0xFF)] with dest := 1 }
  pktOk q && ioSpace (infoOf q) == 0 && destOf q != host.id,
  pktOk (pk 1 1 1 0 []) && pktOk (pk 1 1 1 0 [(0, 65537)]) && payNat (pk 1 1 1 0 [(0, 65537)]) 0 4 == 65537,
  let q := { pk 1 1 1 0 [(0, 1)] with dest := 1 }
  pktOk q && payNat q 0 4 == 1 && ioSpace (infoOf q) == 0 && isInr (host.fabricAddr (destOf q) (ioSpace (infoOf q)) (ioOffset (infoOf q)) 1),
  let q := pk 1 1 1 0 [(0, 1)]
  pktOk q && host.fabricAddr (destOf q) 0 (ioOffset (infoOf q)) 1 == .inl 0 && (host.load (By.hub (some (tagOf q))) 0 1).2.isSome &&
    ((bad host 0).load (By.hub (some (tagOf q))) 0 1).2 == none && (bad host 0).fabricAddr (destOf q) 0 (ioOffset (infoOf q)) 1 == .inl 0,
  [0, 1].all fun t =>
    let q := pk 1 t 1 2 [(0, 4)]
    pktOk q && ioSpace (infoOf q) == 2 && host.inSlice (destOf q) && !host.inSlice (destOf { q with dest := 5 }) && pktOk { q with dest := 5 }
  ] : List Bool).all id = true := by decide +kernel

/-- Hypotheses of ControlPacketsComplete, clause by clause. -/
theorem witness_ControlPacketsComplete : (
  [ two.pstate 0 == pUP && !two.fetching_ && !two.is TST.CFG.MODE && !two.memside.paths.contains 136, pktOk (pk 0 1 1 0 []), 
  let q := pk 0 2 1 0 [(0, 5), (2, 6)]
  pktOk q && (two.enterAlias 5 6 0 0).2,
  let q := pk 0 3 1 0 [(0, 1)]
  pktOk q && two.mine (destOf q) && payNat q 0 2 % 8192 != two.id && !two.mine 1 && pktOk (pk 0 3 1 0 [(0, 0)]) && two.id == 0,
  !(two.mine (destOf { pk 0 5 1 0 [] with dest := 1 })) && pktOk { pk 0 5 1 0 [] with dest := 1 } && pktOk { pk 0 3 1 0 [] with dest := 1 },
  let s := on two fun m => m.dupOf fun d => { d with takeover := some 1, peerId := 1 }; let q := pk 0 5 1 0 [(0, 1)]
  pktOk q && s.mine (destOf q) && s.dup.takeover != none && payNat q 0 2 % 8192 == s.dup.peerId,
  let q := pk 0 6 1 0 [(0, 0), (6, 0)]
  pktOk q && decide (two.steps.oldest ≤ payNat q 0 6) && two.tagFor 0 == payNat q 6 2 && !(two.steps.failed.any fun f => f.1 == 0) ] : List Bool).all id = true := by decide +kernel

def ent (op axes : Nat) : List Byte := desc 64 [(0, op + 16 * axes), (4, 64), (8, 0x10000), (16, 0x20000), (32, 0x30000)]

/-- A collectives program of one entry at 0x1000. -/
def coll (s : State) (e : List Byte) : State :=
  on (fld s [(TOR.CFG.ENABLE,1),(TOR.COLL_CTL.ENABLE,1),(TOR.COLL_PROG_LO.ADDR, 0x1000 / 64),(TOR.COLL_PROG_HI.COLL_N,1)]) fun m => { m with mem := putBytes byte0 m.mem 0x1000 e }

/-- Hypotheses of CollectivePacketsComplete, clause by clause. -/
theorem witness_CollectivePacketsComplete : (
  [ let s := on (coll two (ent 0 1)) fun m => m.collOf fun c => { c with started := true }
  let q := pk 3 0 16 0 []; let e := s.collPeek s.collCur
  hp s q && s.collJudge e q == 0 && (s.collPhases e)[s.coll.phase]? == some (0, 0),
  let s := on (coll two (ent 1 1)) fun m => m.collOf fun c => { c with started := true }
  let q := pk 3 1 16 0 []; let e := s.collPeek s.collCur
  hp s q && s.collJudge e q == 0 && (s.collPhases e)[s.coll.phase]? == some (1, 0),
  let s := coll two (ent 0 1); let q := pk 3 0 16 0 []
  hp s q && s.collJudge (s.collPeek s.collCur) q == 1,
  let q := pk 3 2 1 15 []
  hp two q && two.coll.smalls.contains (infoOf q % 16, srcOf q, tagOf q, q.payload) == false,
  let q := pk 3 2 1 15 []
  let s := on two fun m => m.collOf fun c => { c with smalls := [(infoOf q % 16, srcOf q, tagOf q, q.payload)] }
  hp s q && s.coll.smalls.contains (infoOf q % 16, srcOf q, tagOf q, q.payload),
  let q := pk 4 0 16 0 [(0, 0x40), (12, 1)]; let h := rowHdr q
  let s := on (fld two [(FEN.CFG.ENABLE,1)]) fun m => { m with fen := { m.fen with ops := [{ op0 with scanned := true }] } }
  hp s q && s.is FEN.CFG.ENABLE && rowHdrOk h && !s.fen.done.contains (s.tagStep (tagOf q), destOf q, rowOp h, rowLayer h, rowMb h) && s.rowTarget q == some { op0 with scanned := true } && ((fld two [(FEN.CFG.ENABLE,1)]).rowTarget q).any FenOp.scanned == false,
  let q := pk 5 0 1 (2^45) []
  let s := fld two [(MEM.CFG.SQ_EN,1),(MEM.WIN_SIZE.UNITS 15,1),(MEM.WIN_ATTR.VALID 15,1),(MEM.WIN_ATTR.SQUASH 15,1)]
  hp s q && s.servedAt 0 0 16 == some 0 && s.addWindow 0 16 0 == .inl 15 && (s.addAdmission 15 0).2 == 0 && addLast (infoOf q) &&
    ((s.addAdmission 15 0).1.applyAdds (By.hub (some 0)) 15 0 (((pieces 4 1 q.payload).zipIdx).map fun x => (0 + x.2 * 16, leNat x.1))).2,
  let q := pk 5 0 1 (2^45) []
  let s := on (fld two [(MEM.CFG.SQ_EN,1),(MEM.WIN_SIZE.UNITS 15,1),(MEM.WIN_ATTR.VALID 15,1),(MEM.WIN_ATTR.SQUASH 15,1)]) fun m =>
    m.mside fun x => { x with hbmErr := [(0, [0, 1, 2])] }
  hp s q && s.addWindow 0 16 0 == .inl 15 && (s.addAdmission 15 0).2 == 0 &&
    !((s.addAdmission 15 0).1.applyAdds (By.hub (some 0)) 15 0 (((pieces 4 1 q.payload).zipIdx).map fun x => (0 + x.2 * 16, leNat x.1))).2,
  let q := pk 5 0 1 0 []
  let s := on (fld two [(MEM.CFG.SQ_EN,1),(MEM.WIN_SIZE.UNITS 15,1),(MEM.WIN_ATTR.VALID 15,1),(MEM.WIN_ATTR.SQUASH 15,1),(MEM.WIN_ATTR.STEPTAG 15,1)]) fun m =>
    m.stepsOf fun x => { x with six := [0] }
  hp s q && s.servedAt 0 0 16 == some 0 && s.addWindow 0 16 0 == .inl 15 && (s.addAdmission 15 0).2 == 1,
  let q := pk 5 0 1 0 []
  let s := fld two [(MEM.CFG.SQ_EN,1),(MEM.WIN_SIZE.UNITS 15,1),(MEM.WIN_ATTR.VALID 15,1),(MEM.WIN_ATTR.SQUASH 15,1),(MEM.WIN_ATTR.STEPTAG 15,1),(MEM.WIN_STAT.OPEN 15,1),(MEM.WIN_STAT.TAG 15,16)]
  hp s q && (s.addAdmission 15 0).2 == 2,
  let s := fld (coll two (ent 0 1)) [(TOR.COLL_PROG_HI.COLL_N, 2)]
  hp s (pk 3 0 16 1 []) && s.collJudge (s.collPeek s.collCur) (pk 3 0 16 1 []) == 3,
  let s := on (coll two (ent 0 1)) fun m => (m.setAlias 0 1 0 0 0).collOf fun c => { c with iter := 1 }
  hp s (pk 3 0 16 0 []) && s.collJudge (s.collPeek s.collCur) (pk 3 0 16 0 []) == 2,
  hp two (pk 4 0 16 0 []) && !two.is FEN.CFG.ENABLE && !rowHdrOk (rowHdr (pk 4 0 16 0 [])),
  let s := on two fun m => m.setAlias 0 1 0 0 0; let q := { pk 5 0 1 0 [] with dest := 1 }
  hp s q && s.servedAt (destOf q) (8 * addElem (infoOf q)) (addCount (infoOf q) * elemWidth (addFmt (infoOf q))) == none,
  let q := pk 5 0 1 0 []
  hp two q && two.servedAt 0 0 16 == some 0 && isInr (two.addWindow 0 16 0) ] : List Bool).all id = true := by decide +kernel

def vin : State := fld two [(VIN.CFG.ENABLE,1)]

def vinRoot : State := fld vin [(TOR.ID.MODULE, 1), (LNK.PORT_STAT.PEER 0, 0)]

/-- Hypotheses of VinePacketsComplete, clause by clause. -/
theorem witness_VinePacketsComplete : (
  [ vin.vineOn && vin.admits 0 (syncRow (pk 3 3 1 0 []) 0),
  vin.admits 0 (syncRow (pk 3 3 1 0 []) 1) && (on vin fun m => m.vineOf fun v => { v with t1 := some 0 }).vine.t1 == some 0,
  hp vinRoot { pk 3 4 1 0 [] with dest := 1, src := 0 } && vinRoot.children.contains 0, hp vin (pk 3 5 2 0 []) ] : List Bool).all id = true := by decide +kernel

def dupOn (s : State) (f : Duplex → Duplex) : State := on (fld s [(DUP.CFG.ENABLE,1),(DUP.PARTNER.ID,1),(DUP.TRAY.ID,7)]) fun m => m.dupOf fun d => f { d with paired := true, peerId := 1 }

/-- Hypotheses of DuplexPacketsComplete, clause by clause. -/
theorem witness_DuplexPacketsComplete : (
  [ let s := dupOn two fun d => { d with paired := false }; let q := pk 6 0 2 0 [(0, 1), (2, 0)]
  hands s 6 q && s.is DUP.CFG.ENABLE && s.pport == 6 && s.pairReason q == 0 && s.pairReason (pk 6 0 2 0 []) != 0 && hands s 6 (pk 6 0 2 0 []),
  let s := coll two (desc 64 [(0, 0x80 + 16), (4, 64), (8, 0x10000), (16, 0x20000), (24, 0x40000), (32, 0x30000)]); let q := pk 6 1 16 0 []
  let e := s.collPeek 0
  hp s q && e.partner && decide (0 < 4 * e.chunk) && s.inWork e.pdst (q.payload.take (4 * e.chunk)).length,
  let s := dupOn two id; let q := pk 6 2 3 0 []
  hands s 6 q && s.is DUP.CFG.ENABLE && s.dup.paired && decide (s.steps.oldest ≤ payNat q 0 6),
  hands (dupOn two id) 6 (pk 6 3 2 0xFFFF []) && (dupOn two id).dup.paired,
  let s := dupOn two fun d => { d with acks := [(5, 9)] }; let q := pk 6 4 0 (3 + 16 * 5) []
  hands s 6 q && infoOf q % 16 == 3 && s.dup.acks.find? (fun a => a.1 == 5) == some (5, 9) && hands s 6 (pk 6 4 0 1 []) && hands s 6 (pk 6 4 0 5 []),
  let s := dupOn (fld two [(LDG.IN_SIZE.UNITS,1),(LDG.CFG.ENABLE,1)]) id; let q := pk 6 5 2 0 []
  let pod := { pktOfBytes q.payload with replay := false }
  hands s 6 q && s.dup.paired && s.is LDG.CFG.ENABLE && s.ledger.fullSteps == [] && decide (ringUsed s.ledger.input + (podBytes pod + (if s.ledger.input.any fun x => x.step == s.tagStep (tagOf q) && x.copy then 0 else 64)) ≤ s.inRing),
  let s := dupOn (fld two [(LDG.CFG.ENABLE,1)]) id; let q := pk 6 5 2 0 []
  let pod := { pktOfBytes q.payload with replay := false }
  hands s 6 q && s.dup.paired && s.is LDG.CFG.ENABLE && s.ledger.fullSteps == [] && !decide (ringUsed s.ledger.input + (podBytes pod + (if s.ledger.input.any fun x => x.step == s.tagStep (tagOf q) && x.copy then 0 else 64)) ≤ s.inRing),
  let s := dupOn (fld two [(CFG.LAYOUT.S_GIB,4)]) id; let q := pk 6 6 16 0 []; let r := pk 6 6 16 2 []
  hands s 6 q && hands s 6 r && s.dup.paired && decide (256 ≤ s.sizeS) && !(infoOf q).testBit 1 && (infoOf r).testBit 1 && s.fillKind (infoOf q % 2) == 3 &&
    ((s.fillStarts 3).store ⟨3, none, 3, 128⟩ ((s.fillStarts 3).fetchBase (infoOf q % 2)) q.payload).2,
  let s := dupOn (fld two [(CFG.LAYOUT.S_GIB,4),(UPD.CFG.ENABLE,1)]) id; let q := pk 6 6 16 1 []
  hands s 6 q && s.dup.paired && !(infoOf q).testBit 1 && s.fillKind (infoOf q % 2) == 4 && s.is UPD.CFG.ENABLE,
  hands (dupOn two id) 6 (pk 6 7 1 0 []) && (dupOn two id).dup.paired && (dupOn two id).is DUP.CFG.ENABLE,
  hands (dupOn two id) 6 (pk 6 8 0 0 []) && !(dupOn two id).dup.dead && !(dupOn two id).down 151,
  let s := dupOn two fun d => { d with probing := some 1 }
  hands s 6 (pk 6 9 0 0 []) && s.dup.probing == some 1 && s.dup.peerId == 1 ] : List Bool).all id = true := by decide +kernel

def ck (s : State) (f : Ckpt → Ckpt) : State := on (fld s [(CFG.LAYOUT.S_GIB,4),(BLB.MEMBER.ID_A 0,1),(BLB.MEMBER.ID_B 0,0),(BLB.GROUP.POS,1)]) fun m => m.ckptOf f

/-- Hypotheses of CheckpointPacketsComplete, clause by clause. -/
theorem witness_CheckpointPacketsComplete : (
  [ let u := ck two fun c => { c with c := 5, order := 4 }; let s := u.readManifests; let q := pk 7 0 1 5 [(0, 0)]
  hp u q && !u.down 148 && s.pullReady 5 && decide (0 < s.sliceCount) && !s.is (BLB.GEN_STAT.DAMAGED 1) && decide (s.extent ≤ stripeOf s.gpos 0 * s.stripe),
  let u := ck (fld two [(UPD.EXTENT.UNITS, 0x100000)]) fun c => { c with c := 5, order := 4 }; let s := u.readManifests; let q := pk 7 0 1 5 [(0, 0)]
  hp u q && s.pullReady 5 && decide (stripeOf s.gpos 7 * s.stripe < s.extent) && !s.down 148 && decide (0 < s.sliceCount) && !s.is (BLB.GEN_STAT.DAMAGED 1),
  let s := ck two fun c => { c with c := 5, order := 4 }; let d := fld s [(BLB.GEN_STAT.DAMAGED 1, 1)]
  hp s (pk 7 0 1 6 []) && !s.readManifests.pullReady 6 && !s.down 148 && hp d (pk 7 0 1 5 []) && d.readManifests.pullReady 5 &&
    d.readManifests.is (BLB.GEN_STAT.DAMAGED 1),
  hp (ck two id) (pk 7 1 1 0 []) && !(ck two id).isRebuilt && hp (ck two id) (pk 7 1 1 1 []) && infoModule 0 == (ck two id).id && infoModule 1 != two.id,
  let s := ck (fld two [(UPD.EXTENT.UNITS, 1)]) fun c => { c with lacking := some 1, cand := some 2 }; let q := pk 7 1 1 0 []
  hp s q && infoModule (infoOf q) == s.id && s.isRebuilt && infoArea (infoOf q) == 0 && infoGen (infoOf q) == 0 && decide (16 ≤ s.extent) &&
    (s.store byCkpt (s.genBase 0) q.payload).2,
  hp (ck two id) (pk 7 2 0 0 []),
  let s := ck two fun c => { c with c := 5, slices := [⟨0, [], [], false⟩] }; let q := pk 7 3 0 5 []
  hp s q && s.posOf (srcOf q) == some 0 && s.ckpt.slices.find? (fun x => s.sliceC x == infoOf q % 2 ^ 32 && !x.zeros.contains 0 && !x.parts.any (·.1 == 0)) == some ⟨0, [], [], false⟩,
  let s := fld (ck two id) [(BLB.CFG.ENABLE,1)]
  hp s (pk 7 4 4 0 []) && s.is BLB.CFG.ENABLE && s.ckpt.order == 0,
  let s := fld two [(TOR.CFG.ENABLE,1)]
  hp s (pk 7 5 1 0 []) && s.bridging,
  let s := fld (ck (fld two [(UPD.EXTENT.UNITS, 1)]) id) [(BLB.STAT.PHASE,6)]; let q := pk 7 6 16 0 []
  hp s q && s.ckptPhase == 6 && infoModule 0 == s.id && infoGen 0 == s.f BLB.STAT.GEN && infoArea 0 == 0 && decide (0 + q.payload.length ≤ s.extent) &&
    (s.store byCkpt (s.genBase 0) q.payload).2 ] : List Bool).all id = true := by decide +kernel

/-- Hypotheses of CollectiveAndVineEventsComplete, clause by clause. -/
theorem witness_CollectiveAndVineEventsComplete : (
  [ let s := coll two (ent 0 1); let r := s.collMark.collRead s.collMark.collCur
  match r with
  | (m, some e) =>
    let w := m.loadNat (By.hub (some s.collMark.coll.tag)) e.waitAddr 4
    s.collRuns && !s.coll.started && s.steps.rerun == none && s.collMark.inWork (s.collMark.collProg + 64 * s.collMark.collCur) 64 && m.collCheck e == 0 && w.2 == some 0 && (0 + 2 ^ 32 - (e.waitVal + w.1.coll.iter * e.waitInc) % 2 ^ 32) % 2 ^ 32 < 2 ^ 31 &&
      (w.1.load (By.hub (some s.collMark.coll.tag)) e.src (w.1.srcBytes e)).2.isSome
  | _ => false,
  let s := on (coll two (ent 0 1)) fun m => m.collOf fun c => { c with started := true, phase := 1 }
  s.collRuns && s.coll.started && decide ((s.collPhases (s.collPeek s.collCur)).length ≤ s.coll.phase) && s.coll.partnerAck == 0,
  vinRoot.vineOn && vinRoot.noteParent.isRoot, !vin.noteParent.isRoot && vin.noteParent.parentOf vin.noteParent.id == some (0, 1) && vin.noteParent.pstate 0 == pUP,
  vin.is VIN.CFG.ENABLE && !vin.down 149 && vin.vineOn && !vin.isRoot,
  (on vin fun m => m.vineOf fun v => { v with anns := [(1, 2, 3)] }).vine.anns == [(1, 2, 3)] ] : List Bool).all id = true := by decide +kernel

/-- Hypotheses of DuplexEventsComplete, clause by clause. -/
theorem witness_DuplexEventsComplete : (
  [ let s := dupOn two fun d => { d with recheck := true }
  s.dup.recheck && !s.dup.sentDigest && !s.fetching 0 [(0, s.extent)] && !s.fetching 1 [(0, s.extent)] && (s.see ⟨3, some (s.tagFor s.upd.step), 1, 128⟩ [(0, s.extent), (s.regionBase 2, s.extent)]).2.2,
  let s := dupOn (fld two [(UPD.EXTENT.UNITS,1),(CFG.LAYOUT.S_GIB,4)]) fun d => { d with rm := 2 }
  s.dup.paired && s.dup.rm == 2 && (s.fillPlan s.dup.rm != []) && (match planAt (s.fillPlan s.dup.rm) s.dup.rmUnit with | some (t, o, n) => (s.load ⟨3, none, 3, 128⟩ (s.fetchBase (1 - t) + o) n).2.isSome | none => false),
  let s := fld (dupOn two fun d => { d with probing := some 1 }) [(DUP.ROLE.ROLE,1),(DUP.ROLE.ARMED,1)]
  s.dup.probing == some 1 && s.role == 1 && s.is DUP.ROLE.ARMED,
  let s := fld (dupOn two fun d => { d with probing := some 1, swapping := true }) [(DUP.ROLE.ROLE,2)]
  s.dup.probing == some 1 && s.role == 2 && s.dup.swapping,
  let s := fld (dupOn two fun d => { d with probing := some 1 }) [(DUP.ROLE.ROLE,1)]
  s.dup.probing == some 1 && s.role == 1 && !s.is DUP.ROLE.ARMED,
  let s := fld (on (dupOn two fun d => { d with takeover := some 1 }) fun m => m.stepsOf fun x => { x with held := [0] }) [(DUP.ROLE.ROLE,1)]
  s.dup.takeover == some 1 && (List.range 32).find? (fun e => !s.becomeSolo.is (TOR.AL_ID.VALID e)) == some 0 ] : List Bool).all id = true := by decide +kernel

/-- The start words of a slice of eight, the same of each module; `why` is this module's own reason to hold off. -/
def starts (want why : Nat) (words : List Nat) : State :=
  on (fld (ck two fun c => { c with awaitStart := some 9, word := (0, want == 1, why, false, false) })
    [(TOR.CFG.ENABLE, 1), (TOR.TORUS.TY, 2), (TOR.TORUS.TZ, 2), (TOR.SIZE.SY, 2), (TOR.SIZE.SZ, 2)]) fun m =>
    m.collOf fun c => { c with own := m.sliceIds.map fun i => ⟨kStart, 9, 0, i, words, false⟩ }

/-- Whether such a slice gathers its start words, as many as a set of eights. -/
def started (want why : Nat) (words : List Nat) : Bool :=
  let s := starts want why words
  s.gathered kStart 9 == some (List.replicate 8 words) && s.sliceSize % 8 == 0 && s.ckpt.awaitStart == some 9 && s.ckpt.word.2.2.1 == why

/-- Commit votes and restore rounds that a slice of one module gathers. -/

def commits (order v : Nat) : State := holds (ck two fun c => { c with order := order }) kCommit 0 [v]

def rounds (f : Mod → Mod) : State := on (slice1 (fld (ck two id) [(BLB.STAT.PHASE,5),(TOR.CFG.ENABLE,1)])) f

/-- Hypotheses of CheckpointEventsComplete, clause by clause. -/
theorem witness_CheckpointEventsComplete_start : (
  [ started 0 0 [0, 0, 0, 0, 0], started 1 0 [0, 1, 0, 0, 0], started 1 0 [0, 1, 0, 0, 1] && (0 + 1) % 2 == 1, started 1 3 [0, 1, 3, 0, 0],
  started 1 0 [0, 1, 3, 0, 0] ] : List Bool).all id = true := by decide +kernel

theorem witness_CheckpointEventsComplete_copy : (
  [ let s := fld (on (ck two fun c => { c with order := 2 }) fun m => m.stepsOf fun x => { x with oldest := 1 }) [(BLB.STAT.PHASE,1)]
  s.ckpt.order == 2 && s.ckptPhase == 1 && decide (s.ckpt.step < s.steps.oldest),
  let s := fld (ck two fun c => { c with order := 2 }) [(BLB.STAT.PHASE,2)]
  s.ckpt.order == 2 && s.ckptPhase == 2 && decide (s.copyState.extent ≤ s.copyState.ckpt.copyPos) && (s.copyState.readGen s.copyState.ckpt.c false).2.2,
  let s := fld (on (ck two fun c => { c with order := 2, copyPos := 4096 }) fun m => m.mside fun x => { x with hbmErr := [(2 ^ 27, [0, 1, 2])] })
    [(BLB.STAT.PHASE,2),(UPD.EXTENT.UNITS,1)]
  s.ckpt.order == 2 && s.ckptPhase == 2 && decide (s.copyState.extent ≤ s.copyState.ckpt.copyPos) && !(s.copyState.readGen s.copyState.ckpt.c false).2.2,
  let s := on (ck two fun c => { c with order := 4 }) fun m => m.mside fun x => { x with budget := [(3, 1)] }
  decide (s.sliceCount - 1 < s.sliceCount) && !(s.ckpt.slices.any fun x => x.n == s.sliceCount - 1) && decide (s.ckpt.slices.length < 4) && !s.down 148 && s.ckpt.order == 4 && !s.ckpt.written.contains (s.sliceCount - 1) && s.budget 3 != 0,
  (ck two fun c => { c with lacking := some 0, cand := some 1 }).rebuilding != none ] : List Bool).all id = true := by decide +kernel

theorem witness_CheckpointEventsComplete_restore : (
  [ (commits 6 1).gathered kCommit 0 == some [[1]] && (commits 6 1).ckpt.order == 6, (commits 6 0).gathered kCommit 0 == some [[0]] && (commits 7 0).ckpt.order == 7,
  let s := rounds fun m => m.contributeOwn kCand m.round 0 []
  s.ckptPhase == 5 && s.ckpt.cand == none && s.roundCand == some 0,
  let s := rounds fun m => (m.contributeOwn kCand m.round 0 [4]).contributeOwn kRound m.round 0 [0, 0, 1, 1, 5]
  s.ckptPhase == 5 && s.roundCand == some 4 && s.gathered kRound s.round == some [[0, 0, 1, 1, 5]],
  let s := rounds fun m => (m.contributeOwn kCand m.round 0 [4]).contributeOwn kRound m.round 0 [0, 1, 0, 1, 5]
  s.roundCand == some 4 && s.gathered kRound s.round == some [[0, 1, 0, 1, 5]],
  let s := fld (ck two fun c => { c with cand := some 4 }) [(BLB.STAT.PHASE,5)]
  s.ckpt.cand == some 4 && s.ckptPhase == 5 && s.ckpt.lacking != some s.gpos && (s.see byCkpt [(s.genBase 4, s.extent)]).2.2,
  let s := fld (ck two fun c => { c with cand := some 4, lacking := some 1 }) [(BLB.STAT.PHASE,5)]
  s.ckpt.lacking == some s.gpos && !(s.acceptRebuilt 4 []).2,
  let s := fld (ck two fun c => { c with cand := some 4, lacking := some 1, rebuilt := [(0, 0, 0)] }) [(BLB.STAT.PHASE,5),(CFG.LAYOUT.S_GIB,0)]
  let man := List.replicate 176 0 ++ shardDigest []
  s.ckpt.lacking == some s.gpos && (s.acceptRebuilt 4 man).2 && ((s.acceptRebuilt 4 man).1.see byCkpt [(s.genBase 4, s.extent)]).2.2,
  let s := fld (ck two id) [(BLB.STAT.DRAIN,1)]
  s.is BLB.STAT.DRAIN && planAt s.drainPlan 4 == none && (match planAt s.drainPlan 3 with | some (a, o, n) => (s.load ⟨3, none, 3, 128⟩ ((if a == 0 then s.genBase 0 else s.fragBase 0) + o) n).2.isSome | none => false) ] : List Bool).all id = true := by decide +kernel

/-! ## Packets that are handed on -/

/-- `hands` is the hypothesis `handsOn` of the packet statements, with the module that its tracker leaves. -/
theorem hands_handsOn {s : State} {port : Nat} {q : Pkt} (h : hands s port q = true) : s.handsOn port q (s.track q).1 := by
  simp only [hands, Bool.and_eq_true, beq_iff_eq, bne_iff_ne, Bool.not_eq_true'] at h
  obtain ⟨⟨⟨⟨⟨⟨⟨⟨⟨⟨⟨⟨⟨⟨h1, h2⟩, h3⟩, h4⟩, h5⟩, h6⟩, h7⟩, h8⟩, hp⟩, h9⟩, h10⟩, hq⟩, h11⟩, h12⟩, h13⟩ := h
  refine ⟨h1, h2, h3, h4, h5, h6, h7, ?_, hp, h9, h10, fun hc => ?_, h11, by simp [h12], by rw [← h13]⟩
  · simpa using h8
  · simpa [hc] using hq

/-- A slice of 1 MiB can be read where memory has no error: the second clause on PULL. -/
theorem witness_pull_reads : ∃ m bs, two.load ⟨3, none, 3, 128⟩ 0 sliceLen = (m, some bs) :=
  load_answers ⟨by decide +kernel, by decide +kernel, by decide +kernel, by decide +kernel⟩ (by decide +kernel) ⟨3, none, 3, 128⟩ 0 sliceLen

/-- A slice whose first unit cannot be corrected cannot be read: the third clause on PULL. -/
theorem witness_pull_fails :
    let s := ck (fld two [(UPD.EXTENT.UNITS, 0x100000)]) fun c => { c with c := 5, order := 4 }
    let a := s.genBase 5 + stripeOf s.gpos 0 * s.stripe
    ((bad s (a / 64)).load byCkpt a sliceLen).2 = none :=
  load_first_bad (by decide +kernel) (by decide +kernel) (by decide) (by decide +kernel)

/-! ## Layouts, registers and frames -/

theorem witness_PacketStreamRoundTrip : (
  let ps := [pk 1 0 16 0 [(0, 7)], pk 0 1 1 0 []]
  let last := pk 1 0 2 0 [(31, 1)]
  [ (last :: ps).all fun p => p.payload.length == 16 * p.len.toNat && !(p.len == 0 && p.cls == 0 && p.typ == 0),
    decide (0 < 2 ∧ 2 ≤ last.len.toNat), decide ((ps.flatMap pktUnits).length + 2 < 22) ]).all id = true := by decide +kernel

theorem witness_FabricAddressLayout : 8191 < 8192 ∧ 2 ^ 48 - 1 < 2 ^ 48 := by decide

theorem witness_LocalStoreWindows : (0x3FFFFF < 0x1000000 ∧ 0 < 1 ∧ 0x3FFFFF + 1 ≤ 0x400000) ∧ 0x400000 < 0x400000 + 1 ∧ 0xFFFFFF < 0x1000000 := by
  decide

theorem witness_PlacesAreOneToOne : hbmTop - 64 < hbmTop ∧ (hbmTop - 64) % 64 = 0 ∧ 2048 * (hbmTop / 2048 - 1) < hbmTop := by decide

theorem witness_ViewsPermuteTheirWindow : (hbmTop - 0x200000) % 0x200000 = 0 ∧ 0x200000 % 0x200000 = 0 ∧ hbmTop - 0x200000 + 0x200000 ≤ hbmTop := by
  decide

theorem witness_RejectionsAreRecorded : up.regJudge .mgmt 0xFFFFFC 1 = some 5 ∧ (up.reject .mgmt 0xFFFFFC 5).regJudge .mgmt GEN.WERR.o 1 = none := by
  decide +kernel

theorem witness_RejectedWritesOnlyRecord : findReg (0xFFFFFC / 0x1000) (0xFFFFFC % 0x1000) = none ∧
    (on up fun m => { m with doms := { m.doms with off := [144] } }).down (up.regDom TOR.SIZE.o) = true ∧
    (rejBlock up.toMod (up.withWord .mgmt TOR.SIZE.o 0) (up.regW .mgmt TOR.SIZE.o 0) .mgmt).all (fun x => !x.1 || !([cReserved, cLocked, cState].contains x.2)) = true ∧
    ((findReg (TOR.SIZE.o / 0x1000) (TOR.SIZE.o % 0x1000)).isSome = true ∧ up.lockedWrite (up.regW .mgmt TOR.SIZE.o 0) = false) := by decide +kernel

theorem witness_PlainWritesReadBack : (
  [(GEN.LOCK.o, 1), (FEN.CFG.o, 1), (UPD.CFG.o, 0), (DBG.TR_TAIL.o, 0), (PWR.RAIL_SET.o 0, 600), (PWR.RAIL_SET.o 1, 610), (PWR.RAIL_SET.o 2, 900)].all
    fun x => up.accepts .mgmt x.1 x.2 && (up.withWord .mgmt x.1 x.2).still) = true := by decide +kernel

theorem witness_EventsStandUntilCleared : isEvt RST.EVT.o = true ∧ (on up fun m => m.raiseRST 4 0 0).regJudge .mgmt RST.EVT.o 1 = none := by
  decide +kernel

theorem witness_TagsNameTheirStep : ∀ k, up.attempt k < 16 := by
  intro k
  have h : up.steps.attempts = [] := by decide +kernel
  simp [Mod.attempt, h]

theorem witness_StalePacketsAreDropped : (
  let q := { pk 1 0 1 1 [] with gen := 1 }
  let s := on two fun m => m.stepsOf fun x => { x with oldest := 1, released := 1 }
  let checks := fun (s : State) (q : Pkt) => s.pstate 0 == pUP && !s.fetching_ && pktOk q && q.cls != 0 && !s.hostPort 0 && !s.foreign 0 q &&
    !s.lateWarm q && !s.is TST.CFG.MODE && !s.memside.paths.contains 136 && s.takes 0 q && !s.passesOn q && !s.tagFree q && s.boot.serving == none
  [ checks two q, decide (two.steps.oldest ≤ two.tagStep 1), 1 % 16 != two.attempt (two.tagStep 1),
    checks two { pk 5 0 1 0 [] with gen := 1 },
    checks s (pk 1 0 1 1 []), decide (s.tagStep 0 < s.steps.oldest ∧ s.tagStep 0 < s.steps.released) ]).all id = true := by decide +kernel

theorem witness_MarkedPacketsApplyOnce : (
  let s := fld two [(LDG.CFG.ENABLE, 1)]
  let p := { pk 1 0 1 1 [] with marked := true }
  s.is LDG.CFG.ENABLE && (s.track p).2 && (s.track p).1.is LDG.CFG.ENABLE && (s.track p).1.steps == s.steps) = true := by decide +kernel

theorem witness_ManagementFrame : up.still = true ∧ pec8 ([smbRegs, 0x10, 7] ++ leBytes 3 0 ++ leBytes 4 0) ≠
    pec8 ([smbRegs, 0x10, 7] ++ leBytes 3 0 ++ leBytes 4 0) + 1 := by decide +kernel

theorem witness_LocalStoreWriteFrame : (
  let q := pk 1 0 1 1 [(0, 0xFF)]
  hands two 0 q && !ioLast (infoOf q) && ioSpace (infoOf q) == 1 && two.fabricAddr (destOf q) 1 (ioOffset (infoOf q)) (ioBytes q) == .inl (lsAddr 0 0) &&
    (two.store (By.hub (some 0)) (lsAddr 0 0) (writeBytes q)).1.still && !two.health.winDue && two.memside.paths == [] && Memory.wf two.mem) = true := by decide +kernel

theorem witness_OtherPartsUnchanged : (runs nopBs).running 127 3 0 = some (dsc nopBs) ∧
    ((runs nopBs).endDesc 127 3 (dsc nopBs) sOK).still = true ∧ up.still = true := by decide +kernel

end Sys2Proof.Tests
end

section
/-! SUPPORT. The layout of fabric addresses (R9): a module id placed over a module-local address is read back by the bit ranges of the rule. -/

namespace Sys2Proof.Machine

/-- A field placed at bit `k` over a remainder that fits below it is read back by its range. -/
theorem bits_mul_two_pow_add_high (d a k hi : Nat) (ha : a < 2 ^ k) (hd : d < 2 ^ (hi + 1 - k)) :
    bits (d * 2 ^ k + a) hi k = d := by
  have hdiv : (d * 2 ^ k + a) / 2 ^ k = d := by
    rw [Nat.mul_comm, Nat.mul_add_div (Nat.two_pow_pos k), Nat.div_eq_of_lt ha, Nat.add_zero]
  rw [bits, hdiv, Nat.mod_eq_of_lt hd]

/-- What lies below the field placed at bit `hi + 1` is read back by the range from 0. -/
theorem bits_mul_two_pow_add_low (d a hi : Nat) (ha : a < 2 ^ (hi + 1)) :
    bits (d * 2 ^ (hi + 1) + a) hi 0 = a := by
  rw [bits, Nat.pow_zero, Nat.div_one, Nat.sub_zero, Nat.mul_add_mod_self_right, Nat.mod_eq_of_lt ha]

/-- A range above every bit of a number reads zero. -/
theorem bits_eq_zero_of_lt (x hi lo : Nat) (hx : x < 2 ^ lo) : bits x hi lo = 0 := by
  rw [bits, Nat.div_eq_of_lt hx, Nat.zero_mod]

/-- The module id is the range [60:48] of R9. -/
theorem fabMod_eq_bits (fa : Nat) : fabMod fa = bits fa 60 48 := rfl

/-- The module-local address is the range [47:0] of R9. -/
theorem fabLocal_eq_bits (fa : Nat) : fabLocal fa = bits fa 47 0 := by
  rw [fabLocal, bits, Nat.pow_zero, Nat.div_one]

/-- Settles O47: the fields by the rule's bit ranges, and R9's example by evaluation. -/
theorem fabricAddressLayout : Obligations.FabricAddressLayout := by
  unfold Obligations.FabricAddressLayout
  refine ⟨fun d a hd ha => ?_, by decide, by decide, by decide⟩
  have hmod : bits (d * 2 ^ 48 + a) 60 48 = d := bits_mul_two_pow_add_high d a 48 60 ha hd
  have hlocal : bits (d * 2 ^ 48 + a) 47 0 = a := bits_mul_two_pow_add_low d a 47 ha
  have hreserved : bits (d * 2 ^ 48 + a) 63 61 = 0 := bits_eq_zero_of_lt _ 63 61 (by omega)
  exact ⟨hmod, hlocal, hreserved, (fabMod_eq_bits _).trans hmod, (fabLocal_eq_bits _).trans hlocal⟩

end Sys2Proof.Machine
end

section
/-! SUPPORT. The local-store windows of the map (R30): where a range of a window lies, and that nothing else of it is mapped. -/

namespace Sys2Proof.Machine

/-- A range of a core's window lies in that core's local store where it ends within the first 4 MiB, and in none otherwise (R30). -/
theorem storeOf_lsAddr (core : Fin 128) (o n : Nat) (ho : o < 0x1000000) :
    storeOf (lsAddr core.val o) n = if o + n ≤ 0x400000 then some core.val else none := by
  have hc := core.isLt
  have hoff : lsAddr core.val o - lsBase = core.val * lsPitch + o := by simp only [lsAddr]; omega
  have hmod : (lsAddr core.val o - lsBase) % lsPitch = o := by
    rw [hoff, Nat.mul_add_mod_self_right]; exact Nat.mod_eq_of_lt ho
  have hdiv : (lsAddr core.val o - lsBase) / lsPitch = core.val := by
    simp only [hoff, lsPitch]; omega
  have hlo : lsBase ≤ lsAddr core.val o := by simp only [lsAddr]; omega
  have hhi : lsAddr core.val o < lsBase + 128 * lsPitch := by simp only [lsAddr, lsPitch]; omega
  rw [storeOf, hmod, hdiv, lsSize]
  simp only [hlo, hhi, true_and]

/-- A local-store window lies above HBM (R29). -/
theorem inHbm_lsAddr (c o n : Nat) : inHbm (lsAddr c o) n = false := by
  have h : ¬lsAddr c o + n ≤ hbmTop := by simp only [lsAddr, lsBase, hbmTop]; omega
  exact decide_eq_false h

/-- The local-store windows lie below register space (R29). -/
theorem inRegs_lsAddr (core : Fin 128) (o n : Nat) (ho : o < 0x1000000) : inRegs (lsAddr core.val o) n = false := by
  have hc := core.isLt
  have h : ¬regBase ≤ lsAddr core.val o := by simp only [lsAddr, lsBase, lsPitch, regBase]; omega
  rw [inRegs, decide_eq_false h, Bool.false_and]

/-- In a local-store window a range is mapped where a local store holds it, and nowhere else. -/
theorem mapped_lsAddr (core : Fin 128) (o n : Nat) (ho : o < 0x1000000) :
    mapped (lsAddr core.val o) n = (storeOf (lsAddr core.val o) n).isSome := by
  rw [mapped, inHbm_lsAddr, inRegs_lsAddr core o n ho, Bool.false_or, Bool.or_false]

/-- Settles O48: a window's range lies in its core's store exactly where it ends within the first 4 MiB, and nothing else is mapped there. -/
theorem localStoreWindows : Obligations.LocalStoreWindows := by
  unfold Obligations.LocalStoreWindows
  intro core o n ho _
  rw [mapped_lsAddr core o n ho, storeOf_lsAddr core o n ho]
  refine ⟨fun h => ?_, fun h => ?_⟩
  · rw [if_pos h]; exact ⟨rfl, rfl⟩
  · rw [if_neg (by omega)]; exact ⟨rfl, rfl⟩

end Sys2Proof.Machine
end

section
/-! SUPPORT. The causes of recovery that the hardware brings up, and the moves of the core rails: what each leaves of the registers that
the others judge by, and each command where it takes effect. -/

namespace Sys2Proof.Machine

/-! ## Whether Parsnip acts, while the ports are taken down (R17) -/

/-- A fold whose every step keeps a view of the state keeps it. -/
theorem foldl_keeps {α β γ : Type} {f : β → α → β} (g : β → γ) {l : List α} (h : ∀ b, ∀ a ∈ l, g (f b a) = g b) (b : β) :
    g (l.foldl f b) = g b :=
  List.foldlRecOn (motive := fun c => g c = g b) l f rfl fun c hc a ha => (h c a ha).trans hc

/-- What no port state, port counter or word of `HB_LAST` and `PORT_STAT` touches, taking the ports down keeps (R422). -/
theorem portsDown_keeps {γ : Type} (g : Mod → γ) (hport : ∀ (t : Mod) p f, g (t.onPort p f) = g t)
    (hcount : ∀ (t : Mod) p, g (t.count (LNK.SN_RETRAIN_LO.o p) 1) = g t) (hlast : ∀ (t : Mod) p v, g (t.wr (LNK.HB_LAST.o p) v) = g t)
    (hstat : ∀ (t : Mod) p v, g (t.wr (LNK.PORT_STAT.o p) v) = g t) (m : Mod) : g m.portsDown = g m := by
  refine foldl_keeps g (fun t p _ => ?_) m
  dsimp only
  split
  · rw [hlast, hport]
  · split
    · rw [hstat, hlast, hport]
    · rw [hstat, hcount, hlast, hport]

theorem portsDown_power (m : Mod) : m.portsDown.power = m.power :=
  portsDown_keeps (·.power) (fun _ _ _ => rfl) (fun _ _ => rfl) (fun _ _ _ => rfl) (fun _ _ _ => rfl) m

theorem portsDown_dup (m : Mod) : m.portsDown.dup = m.dup :=
  portsDown_keeps (·.dup) (fun _ _ _ => rfl) (fun _ _ => rfl) (fun _ _ _ => rfl) (fun _ _ _ => rfl) m

/-- Taking the ports down writes no register below the link block. -/
theorem portsDown_rd (m : Mod) {o : Nat} (ho : o < 0xA000) : m.portsDown.rd o = m.rd o := by
  refine portsDown_keeps (·.rd o) (fun _ _ _ => rfl) (fun _ _ => rfl) (fun t p v => ?_) (fun t p v => ?_) m
  · exact Mod.rd_wr_other t v (by simp only [LNK.HB_LAST.o]; omega)
  · exact Mod.rd_wr_other t v (by simp only [LNK.PORT_STAT.o]; omega)

/-- Whether Parsnip acts rests on two registers, its own failure and the supplies. -/
theorem acts_congr {m t : Mod} (hs : t.rd RST.STAT.o = m.rd RST.STAT.o) (ha : t.rd PWR.STAT.o = m.rd PWR.STAT.o)
    (hd : t.dup.dead = m.dup.dead) (hr : t.power.resetNLow = m.power.resetNLow) (hc : t.power.coldHold = m.power.coldHold) :
    t.acts = m.acts := by
  have hup : t.parsnipUp = m.parsnipUp := by simp only [Mod.parsnipUp, Mod.is, Mod.f, PWR.STAT.AUX_OK, ha, hd, hr, hc]
  have hst : t.rstState = m.rstState := by simp only [Mod.rstState, Mod.f, RST.STAT.STATE, hs]
  rw [Mod.acts, hup, hst, Mod.acts]

/-- The stopped resonator, with the ports it takes down, leaves Parsnip as it was (R17). -/
theorem acts_resonator (m : Mod) :
    ((m.pwr fun p => { p with resonator := false }).portsDown).acts = m.acts := by
  refine acts_congr ?_ ?_ ?_ ?_ ?_
  · rw [portsDown_rd _ (by decide)]; rfl
  · rw [portsDown_rd _ (by decide)]; rfl
  · rw [portsDown_dup]; rfl
  · rw [portsDown_power]; rfl
  · rw [portsDown_power]; rfl

/-! ## Rails (R19, R47, R517) -/

theorem railTested_set {m : Mod} {f : Field} (h : f.off ≠ TST.STAT.o) (n r : Nat) : (m.set f n).railTested r = m.railTested r := by
  have hst : (m.set f n).f TST.STAT.STATE = m.f TST.STAT.STATE := Mod.f_set_other m f TST.STAT.STATE (Ne.symm h) n
  have hrun : (m.set f n).runRail = m.runRail := rfl
  rw [Mod.railTested, hst, hrun, Mod.railTested]

/-- A trim step down takes off 10 mV where no test holds the rail and 600 mV are left (R47, R19). -/
theorem trimmedMv_untested {m : Mod} {r : Nat} (h : m.railTested r = false) :
    m.trimmedMv r = if 610 ≤ m.railMv r then m.railMv r - 10 else m.railMv r := by
  simp [Mod.trimmedMv, h]

theorem trimmedMv_ne {m : Mod} {r : Nat} (h : m.railTested r = false) (hv : 610 ≤ m.railMv r) : m.trimmedMv r ≠ m.railMv r := by
  rw [trimmedMv_untested h, if_pos hv]; omega

theorem mvToward_up {want now : Nat} (h : now < want) : mvToward want now = min want (now + 10) := if_pos h

theorem mvToward_down {want now : Nat} (h : want < now) : mvToward want now = max want (now - 10) := if_neg (by omega)

/-- A rail that no test holds wants its set point. -/
theorem railWant_untested {m : Mod} {r : Nat} (h : m.railTested r = false) : m.railWant r = m.railSet r := by
  simp [Mod.railWant, h]

theorem railSet_set {m : Mod} {f : Field} {r : Nat} (h : f.off ≠ PWR.RAIL_SET.o r) (n : Nat) : (m.set f n).railSet r = m.railSet r :=
  Mod.f_set_other m f (PWR.RAIL_SET.MV r) (Ne.symm h) n

/-! ## The commands -/

theorem resonatorStops_acting {m : Mod} (h : m.acts = true) : m.resonatorStops =
    (((m.pwr fun p => { p with resonator := false }).portsDown).charge 0x09 254 2 0 0 0).warmCause 3 255 := by
  rw [Mod.resonatorStops, acts_resonator, if_pos h]

theorem resonatorStops_idle {m : Mod} (h : m.acts = false) :
    m.resonatorStops = (m.pwr fun p => { p with resonator := false }).portsDown := by
  rw [Mod.resonatorStops, acts_resonator, if_neg (by simp [h])]

theorem railFalls_low {m : Mod} {r mv : Nat} (hmv : mv < 570) (hup : m.parsnipUp = true) (hon : m.power.railsOn.contains r = true)
    (hst : m.rstState ≠ stFAILED) : m.railFalls r mv = ((m.setRail r mv).charge 0x09 254 1 0 0 r).warmCause 2 255 := by
  rw [Mod.railFalls, if_neg]
  simp only [hmv, hup, hon, beq_eq_false_iff_ne.2 hst]
  decide

theorem dieLinkFails_trained {m : Mod} {l : Nat} (hup : m.parsnipUp = true) (ht : m.ready = true ∨ m.recov.linksTrained = true)
    (hst : m.rstState ≠ stFAILED) : m.dieLinkFails l = (m.charge 0x08 (153 + l) 0 0 0 0).warmCause 4 (153 + l) := by
  have ht' : (m.ready || m.recov.linksTrained) = true := by rwa [Bool.or_eq_true]
  rw [Mod.dieLinkFails, if_neg]
  simp only [hup, ht', beq_eq_false_iff_ne.2 hst]
  decide

/-- The power measured, which a trim stores first, holds no rail for a test. -/
theorem railTested_inMeas (m : Mod) (w r : Nat) : (m.set PWR.IN_MEAS.W w).railTested r = m.railTested r :=
  railTested_set (by decide) w r

/-- The power measured just before a step down has no part in the voltages it gives. -/
theorem trimmedMv_inMeas {m : Mod} (w : Nat) {r : Nat} (h : m.railTested r = false) :
    (m.set PWR.IN_MEAS.W w).trimmedMv r = if 610 ≤ m.railMv r then m.railMv r - 10 else m.railMv r :=
  trimmedMv_untested ((railTested_inMeas m w r).trans h)

theorem railMv_set (m : Mod) (f : Field) (n r : Nat) : (m.set f n).railMv r = m.railMv r := rfl

theorem testState_setRail (m : Mod) (r mv : Nat) (hr : r < 3) : (m.setRail r mv).f TST.STAT.STATE = m.f TST.STAT.STATE := by
  refine Mod.f_set_other _ (PWR.RAIL_MEAS.MV r) TST.STAT.STATE ?_ mv
  simp only [TST.STAT.STATE, PWR.RAIL_MEAS.MV, TST.STAT.o, PWR.RAIL_MEAS.o]; omega

/-- Above 2800 W a trim step lowers C0 and C1, shows `TRIMMED` and raises its event (R47). -/
theorem trimDown_lowers {m : Mod} {w : Nat} (ha : m.acts = true) (hw : 2800 < w) (hon : m.power.railsOn.contains 1 = true)
    (h1 : m.railTested 1 = false) (h2 : m.railTested 2 = false) (hv : 610 ≤ m.railMv 1 ∨ 610 ≤ m.railMv 2) :
    m.trimDown w =
      (let low := fun v => if 610 ≤ v then v - 10 else v
       let t := ((m.set PWR.IN_MEAS.W w).setRail 1 (low (m.railMv 1))).setRail 2 (low (m.railMv 2))
       let t := (t.pwr fun p => { p with trim := p.trim + 1 }).tst fun x =>
         { x with trimmed := x.trimmed || m.f TST.STAT.STATE == 2 }
       ((t.set PWR.STAT.TRIMMED 1).count PWR.SN_TRIM_LO.o 1).raisePWR 1) := by
  have hgo : ¬(w ≤ 2800 ∨ (!(m.set PWR.IN_MEAS.W w).power.railsOn.contains 1) = true ∨
      ((m.set PWR.IN_MEAS.W w).trimmedMv 1 = (m.set PWR.IN_MEAS.W w).railMv 1 ∧
        (m.set PWR.IN_MEAS.W w).trimmedMv 2 = (m.set PWR.IN_MEAS.W w).railMv 2)) := by
    rintro (hle | hoff | ⟨hs1, hs2⟩)
    · omega
    · exact absurd hon (by simpa using hoff)
    · exact hv.elim (fun h => trimmedMv_ne ((railTested_inMeas m w 1).trans h1) h hs1)
        fun h => trimmedMv_ne ((railTested_inMeas m w 2).trans h2) h hs2
  have hstate : ∀ v1 v2, (((m.set PWR.IN_MEAS.W w).setRail 1 v1).setRail 2 v2).f TST.STAT.STATE = m.f TST.STAT.STATE := fun v1 v2 =>
    ((testState_setRail _ 2 v2 (by decide)).trans (testState_setRail _ 1 v1 (by decide))).trans
      (Mod.f_set_other m PWR.IN_MEAS.W TST.STAT.STATE (by decide) w)
  have hpwr : ∀ (t : Mod) f, (t.pwr f).f TST.STAT.STATE = t.f TST.STAT.STATE := fun _ _ => rfl
  have hact : ¬(!m.acts) = true := by simp [ha]
  simp only [Mod.trimDown, if_neg hact, if_neg hgo]
  simp only [hpwr, hstate, trimmedMv_inMeas w h1, trimmedMv_inMeas w h2]

/-- The rails' way back: one step toward the set points, and the trim is over once both have reached them (R47). -/
theorem trimUp_raises {m : Mod} {w : Nat} (ha : m.acts = true) (hw : w < 2700) (ht : m.power.trim ≠ 0)
    (h1 : m.railTested 1 = false) (h2 : m.railTested 2 = false) :
    m.trimUp w =
      (let v1 := mvToward (m.railSet 1) (m.railMv 1)
       let v2 := mvToward (m.railSet 2) (m.railMv 2)
       let left := if v1 = m.railSet 1 ∧ v2 = m.railSet 2 then 0 else max 1 (m.power.trim - 1)
       let t := (((m.set PWR.IN_MEAS.W w).setRail 1 v1).setRail 2 v2).pwr fun p => { p with trim := left }
       (t.set PWR.STAT.TRIMMED (if left = 0 then 0 else 1)).raisePWR 2) := by
  have hact : ¬(!m.acts) = true := by simp [ha]
  have hgo : ¬(2700 ≤ w ∨ (m.set PWR.IN_MEAS.W w).power.trim = 0) := by
    rintro (hle | hz)
    · omega
    · exact ht hz
  have hw1 : (m.set PWR.IN_MEAS.W w).railWant 1 = m.railSet 1 :=
    (railWant_untested ((railTested_inMeas m w 1).trans h1)).trans (railSet_set (by decide) w)
  have hw2 : (m.set PWR.IN_MEAS.W w).railWant 2 = m.railSet 2 :=
    (railWant_untested ((railTested_inMeas m w 2).trans h2)).trans (railSet_set (by decide) w)
  simp only [Mod.trimUp, if_neg hact, if_neg hgo, hw1, hw2, railMv_set]
  rfl

theorem trimUp_ends {m : Mod} {w : Nat} (ha : m.acts = true) (hw : w < 2700) (ht : m.power.trim ≠ 0)
    (h1 : m.railTested 1 = false) (h2 : m.railTested 2 = false) (hv1 : m.railMv 1 + 10 = m.railSet 1) (hv2 : m.railMv 2 + 10 = m.railSet 2) :
    m.trimUp w =
      (let t := (((m.set PWR.IN_MEAS.W w).setRail 1 (m.railSet 1)).setRail 2 (m.railSet 2)).pwr fun p => { p with trim := 0 }
       (t.set PWR.STAT.TRIMMED 0).raisePWR 2) := by
  have hm1 : mvToward (m.railSet 1) (m.railMv 1) = m.railSet 1 := by rw [mvToward_up (by omega)]; omega
  have hm2 : mvToward (m.railSet 2) (m.railMv 2) = m.railSet 2 := by rw [mvToward_up (by omega)]; omega
  simp only [trimUp_raises ha hw ht h1 h2, hm1, hm2, true_and, if_true]

theorem trimUp_continues {m : Mod} {w : Nat} (ha : m.acts = true) (hw : w < 2700) (ht : m.power.trim ≠ 0)
    (h1 : m.railTested 1 = false) (h2 : m.railTested 2 = false) (hv1 : m.railMv 1 + 10 < m.railSet 1) (hv2 : m.railMv 2 + 10 < m.railSet 2) :
    m.trimUp w =
      (let t := ((m.set PWR.IN_MEAS.W w).setRail 1 (m.railMv 1 + 10)).setRail 2 (m.railMv 2 + 10)
       let t := t.pwr fun p => { p with trim := max 1 (p.trim - 1) }
       (t.set PWR.STAT.TRIMMED 1).raisePWR 2) := by
  have hm1 : mvToward (m.railSet 1) (m.railMv 1) = m.railMv 1 + 10 := by rw [mvToward_up (by omega)]; omega
  have hm2 : mvToward (m.railSet 2) (m.railMv 2) = m.railMv 2 + 10 := by rw [mvToward_up (by omega)]; omega
  have hfar : ¬(m.railMv 1 + 10 = m.railSet 1 ∧ m.railMv 2 + 10 = m.railSet 2) := fun h => by omega
  have hleft : max 1 (m.power.trim - 1) ≠ 0 := by omega
  simp only [trimUp_raises ha hw ht h1 h2, hm1, hm2, if_neg hfar, if_neg hleft]
  rfl

/-- A rail that neither a test nor a trim holds moves toward its set point, and the sensors are read (R517). -/
theorem railStep_moves {m : Mod} {r : Nat} (ha : m.acts = true) (hon : m.power.railsOn.contains r = true) (ht : m.railTested r = false)
    (hr : r = 0 ∨ m.power.trim = 0) : m.railStep r = (m.sensed r).setRail r (mvToward (m.railSet r) (m.railMv r)) := by
  have hfree : (r != 0 && m.power.trim != 0) = false := by
    rcases hr with hr | hr <;> simp [hr]
  rw [Mod.railStep, if_neg]
  simp only [ha, hon, ht, hfree]
  decide

theorem exec_resonatorFail (s : State) : exec .resonatorFail s = .next (s.now s.toMod.resonatorStops) := rfl

theorem exec_railLow (rail : Fin 3) (mv : BitVec 10) (s : State) :
    exec (.railLow rail mv) s = .next (s.now (s.toMod.railFalls rail.val mv.toNat)) := rfl

theorem exec_dieLinkFail (link : Fin 3) (s : State) : exec (.dieLinkFail link) s = .next (s.now (s.toMod.dieLinkFails link.val)) := rfl

theorem exec_powerTrimStep (watts : BitVec 16) (s : State) :
    exec (.powerTrimStep watts) s = .next (s.now (s.toMod.trimDown watts.toNat)) := rfl

theorem exec_powerTrimRestore (watts : BitVec 16) (s : State) :
    exec (.powerTrimRestore watts) s = .next (s.now (s.toMod.trimUp watts.toNat)) := rfl

theorem exec_railSetStep (rail : Fin 3) (s : State) : exec (.railSetStep rail) s = .next (s.now (s.toMod.railStep rail.val)) := rfl

/-- Settles O10: each cause and each move is its own command's effect, with the conditions of the rule read off the state before it. -/
theorem hardwareCausesAndRailsComplete : Obligations.HardwareCausesAndRailsComplete := by
  unfold Obligations.HardwareCausesAndRailsComplete
  intro s
  refine ⟨fun ha => ?_, fun ha => ?_, fun rail mv hmv hup hon hst => ?_, fun link hup ht hst => ?_,
    fun watts ha hw hon h1 h2 hv => ?_, fun watts ha hw ht h1 h2 => ⟨fun hv1 hv2 => ?_, fun hv1 hv2 => ?_⟩,
    fun rail ha hon ht hr => ⟨fun hv => ?_, fun hv => ?_⟩⟩
  · rw [exec_resonatorFail, resonatorStops_acting ha]
  · rw [exec_resonatorFail, resonatorStops_idle ha]
  · rw [exec_railLow, railFalls_low hmv hup hon hst]
  · rw [exec_dieLinkFail, dieLinkFails_trained hup ht hst]
  · rw [exec_powerTrimStep, trimDown_lowers ha hw hon h1 h2 hv]
  · rw [exec_powerTrimRestore, trimUp_ends ha hw ht h1 h2 hv1 hv2]
  · rw [exec_powerTrimRestore, trimUp_continues ha hw ht h1 h2 hv1 hv2]
  · rw [exec_railSetStep, railStep_moves ha hon ht hr, mvToward_up hv]
  · rw [exec_railSetStep, railStep_moves ha hon ht hr, mvToward_down hv]

end Sys2Proof.Machine
end

section
/-! SUPPORT. The events of the debug and trace units and of the snapshot, where they are due. -/

namespace Sys2Proof.Machine

theorem exec_snapshotDone (spread : BitVec 16) (coinc : List Nat) (s : State) :
    exec (.snapshotDone spread coinc) s = .next (s.now (s.toMod.snapshotDone spread.toNat coinc)) := rfl

theorem exec_accReadTaken (seen : ReadMoment) (s : State) :
    exec (.accReadTaken seen) s = .next (s.now (s.toMod.accReadTaken seen.coincide seen.lag)) := rfl

theorem exec_flushItem (dropped : Bool) (s : State) : exec (.flushItem dropped) s = .next (s.after (s.toMod.flushItem dropped)) := rfl

theorem snapshotDone_busy {m : Mod} (h : m.is SNAP.STAT.BUSY = true) (spread : Nat) (coinc : List Nat) :
    m.snapshotDone spread coinc = m.snapshotEnd spread coinc := by
  rw [Mod.snapshotDone, if_neg (by simp [h])]

theorem accReadTaken_asked {m : Mod} {sel : Word} (hd : m.is DBG.STAT.DEBUG = true) (hr : m.accReq = some sel) (coincide : Bool) (lag : Nat) :
    m.accReadTaken coincide lag = m.accTake sel coincide lag := by
  simp only [Mod.accReadTaken, hr, if_pos hd]

/-- With room in the ring a flush item moves its records, or is dropped and counted (R491). -/
theorem flushItem_room {m : Mod} (he : m.is DBG.TR_CTL.EN = true) (hd : m.down 149 = false) (hb : m.budget 2 ≠ 0) (hr : m.traceRoom = true)
    (dropped : Bool) : m.flushItem dropped = if dropped then m.count DBG.SN_TR_DROP_LO.o 1 else m.flushMove := by
  have hdue : (!m.is DBG.TR_CTL.EN || m.down 149 || m.budget 2 == 0) = false := by
    rw [he, hd, beq_eq_false_iff_ne.2 hb]; rfl
  have hroom : (!m.traceRoom) = false := by rw [hr]; rfl
  rw [Mod.flushItem, hdue, hroom, if_neg Bool.false_ne_true, if_neg Bool.false_ne_true]

/-- Settles O20: each event does what it does where the unit that it belongs to awaits it. -/
theorem debugAndSnapshotEventsComplete : Obligations.DebugAndSnapshotEventsComplete := by
  unfold Obligations.DebugAndSnapshotEventsComplete
  refine fun s => ⟨fun spread coinc hb => ?_, fun seen sel hd hr => ?_, fun he hd hb hr => ⟨?_, ?_⟩⟩
  · rw [exec_snapshotDone, snapshotDone_busy hb]
  · rw [exec_accReadTaken, accReadTaken_asked hd hr]
  · rw [exec_flushItem, flushItem_room he hd hb hr, if_neg Bool.false_ne_true]
  · rw [exec_flushItem, flushItem_room he hd hb hr, if_pos rfl]

end Sys2Proof.Machine
end

section
/-! SUPPORT. Slice-wide results: an event that carries one comes with what the module holds, and its contributions decide the result. -/

namespace Sys2Proof.Machine

/-- The result that the module holds takes effect. -/
theorem onResult_held {α : Type} [DecidableEq α] {held : Option α} {r : α} (h : held = some r) (f : Mod → Mod) (m : Mod) :
    onResult held r f m = f m := if_pos h

/-! ## Stage 6: start, pre-check and votes (R207, R224, R226, R227) -/

theorem exec_updateStageStart (s : State) : exec .updateStageStart s = .next (s.after s.toMod.startSix) := rfl

theorem exec_precheckEnd (s : State) : exec .precheckEnd s = .next (s.after s.toMod.precheckEnd) := rfl

theorem exec_ownPassEnd (s : State) : exec .ownPassEnd s = .next (s.after s.toMod.ownPassEnd) := rfl

theorem exec_mirrorPassEnd (s : State) : exec .mirrorPassEnd s = .next (s.after s.toMod.mirrorPassEnd) := rfl

theorem exec_vote1Result (word : BitVec 8) (mask : BitVec 4096) (s : State) :
    exec (.vote1Result word mask) s = .next (s.after
      (if s.outside then s.toMod.vote1With word.toNat mask.toNat else onResult s.vote1Held (word, mask) Mod.vote1Result s.toMod)) := rfl

theorem exec_vote2Result (word : BitVec 8) (s : State) :
    exec (.vote2Result word) s = .next (s.after
      (if s.outside then s.toMod.vote2With word.toNat else onResult s.vote2Held word Mod.vote2Result s.toMod)) := rfl

theorem startSix_ready {m : Mod} (h : m.sixReady = true) : m.startSix =
    (let k := m.steps.oldest
     let t := m.stepsOf fun x => { x with six := x.six ++ [k] }
     let t := ({ t with dup := { t.dup with sentDigest := false, recheck := false } } : Mod).updOf fun u => { u with
       running := true, step := k, latched := false, listBad := none, lossBad := false, word := 0, vote1 := 0, word1 := 0,
       vote2 := 0, allowed := false, ownDone := false, mirDone := false }
     ((t.setStepRegs k 0).set UPD.STAT.PHASE 1).sixLatch) := by
  rw [Mod.startSix, if_neg (by simp [h])]

section
variable {m : Mod} (hr : m.upd.running = true)
include hr

/-- A pre-check that runs ends: with a bad list the verdict goes out at once, otherwise its reads begin (R224). -/
theorem precheckEnd_due (hl : m.upd.latched = true) (hv : m.upd.vote1 = 0) (hb : m.upd.lossBad = false) :
    m.precheckEnd = if m.upd.listBad.isSome then m.submitVote1 false false else m.precheckRun := by
  rw [Mod.precheckEnd, if_neg]
  simp [hr, hl, hv, hb]

/-- The outcome of vote 1, once its reads are done, is the slice-wide word and mask taken (R226). -/
theorem vote1With_read (hv : m.upd.vote1 = 1) {t t' : Mod} {es : List TEnt} {mask : Nat} (hw : m.ownWritable = (t, true))
    (he : t.vote1Reads (maskList (BitVec.ofNat 4096 mask)) = (t', some es)) (word : Nat) :
    m.vote1With word mask = (t'.smallTaken kVote1 t'.upd.step).vote1Taken word (maskList (BitVec.ofNat 4096 mask)) es := by
  have hdue : ¬((!m.upd.running) = true ∨ m.upd.vote1 ≠ 1) := by simp [hr, hv]
  simp only [Mod.vote1With, if_neg hdue, hw, he]

end

theorem precheckRun_read {m m₁ m₂ m₃ : Mod} {lst own mem : Tbl Byte} (hlst : m.sixRead 0 [(m.listOff, 64 * m.listN)] = (m₁, some lst))
    (hown : m₁.sixRead 0 (Mod.maskRanges (m₁.listIn lst)) = (m₂, some own))
    (hmem : m₂.sixRead 1 (Mod.maskRanges (m₁.listIn lst)) = (m₃, some mem)) :
    m.precheckRun = m₃.precheckTaken (m₁.listIn lst) own mem := by
  simp only [Mod.precheckRun, hlst, hown, hmem]

theorem vote1Held_gathered {m : Mod} {l : List (List Nat)} (hl : m.gathered kVote1 m.upd.step = some l) :
    m.vote1Held = some (BitVec.ofNat 8 (orAll (column l 0)), BitVec.ofNat 4096 (orAll (column l 1))) := by
  rw [Mod.vote1Held, hl, Option.map_some]

theorem vote1Result_gathered {m : Mod} {l : List (List Nat)} (hl : m.gathered kVote1 m.upd.step = some l) :
    m.vote1Result = m.vote1With (orAll (column l 0)) (orAll (column l 1)) := by
  simp only [Mod.vote1Result, hl]

theorem vote2Held_gathered {m : Mod} {l : List (List Nat)} (hl : m.gathered kVote2 m.upd.step = some l) :
    m.vote2Held = some (BitVec.ofNat 8 (orAll (column l 0))) := by
  rw [Mod.vote2Held, hl, Option.map_some]

theorem vote2With_awaited {m : Mod} (hv : m.upd.vote2 = 1) (word : Nat) :
    m.vote2With word = (m.smallTaken kVote2 m.upd.step).vote2Taken word := by
  rw [Mod.vote2With, if_neg (by simp [hv])]

theorem vote2Result_gathered {m : Mod} {l : List (List Nat)} (hl : m.gathered kVote2 m.upd.step = some l) :
    m.vote2Result = m.vote2With (orAll (column l 0)) := by
  simp only [Mod.vote2Result, hl]

/-! ## Stage 6: the passes (R213, R227) -/

/-- The own pass ends with its counts once no write for the next step is still to be applied. -/
theorem ownPassEnd_counted {m t t' : Mod} {cnt : List (Nat × PassC)} (hp : m.passDue = true) (ho : m.upd.ownDone = false)
    (hw : m.ownWritable = (t, true)) (hd : (t.applyWrites false).dueWrites false = []) (hr : (t.applyWrites false).runPass 0 = (t', some cnt)) :
    m.ownPassEnd = t'.ownPassCounted cnt := by
  have hdue : ¬((!m.passDue) = true ∨ m.upd.ownDone = true) := by simp [hp, ho]
  have hnone : ¬(!((t.applyWrites false).dueWrites false).isEmpty) = true := by simp [hd]
  simp only [Mod.ownPassEnd, if_neg hdue, hw, if_neg hnone, hr]

theorem mirrorPassEnd_counted {m t : Mod} {cnt : List (Nat × PassC)} (hp : m.passDue = true) (ho : m.upd.mirDone = false)
    (hd : (m.applyWrites true).dueWrites true = []) (hr : (m.applyWrites true).runPass 1 = (t, some cnt)) :
    m.mirrorPassEnd = t.mirrorPassCounted cnt := by
  have hdue : ¬((!m.passDue) = true ∨ m.upd.mirDone = true) := by simp [hp, ho]
  have hnone : ¬(!((m.applyWrites true).dueWrites true).isEmpty) = true := by simp [hd]
  simp only [Mod.mirrorPassEnd, if_neg hdue, if_neg hnone, hr]

/-- Settles O29: each event of stage 6 where it is due, by the reads that the statement names. -/
theorem updateCommandsComplete : Obligations.UpdateCommandsComplete := by
  unfold Obligations.UpdateCommandsComplete
  refine fun s => ⟨fun h => ?_, fun hr hl hv hb => ⟨fun hbad => ?_, fun m₁ m₂ m₃ lst own mem hok hlst hown hmem => ?_⟩,
    fun l m m' es hin hr hv hl hw he => ?_, fun word mask m m' es hout hr hv hw he => ?_,
    fun m m' cnt hp ho hw hd hc => ?_, fun word hout hv => ?_, fun l hin hv hl => ?_, fun m cnt hp ho hd hc => ?_⟩
  · rw [exec_updateStageStart, startSix_ready h]
  · rw [exec_precheckEnd, precheckEnd_due hr hl hv hb, if_pos (Option.isSome_iff_ne_none.2 hbad)]
  · rw [exec_precheckEnd, precheckEnd_due hr hl hv hb, if_neg (by simp [hok]), precheckRun_read hlst hown hmem]
  · rw [exec_vote1Result, if_neg (by simp [hin]), onResult_held (vote1Held_gathered hl), vote1Result_gathered hl,
      vote1With_read hr hv hw he]
  · have he' : m.vote1Reads (maskList (BitVec.ofNat 4096 mask.toNat)) = (m', some es) := by rwa [BitVec.ofNat_toNat, BitVec.setWidth_eq]
    rw [exec_vote1Result, if_pos hout, vote1With_read hr hv hw he', BitVec.ofNat_toNat, BitVec.setWidth_eq]
  · rw [exec_ownPassEnd, ownPassEnd_counted hp ho hw hd hc]
  · rw [exec_vote2Result, if_pos hout, vote2With_awaited hv]
  · rw [exec_vote2Result, if_neg (by simp [hin]), onResult_held (vote2Held_gathered hl), vote2Result_gathered hl, vote2With_awaited hv]
  · rw [exec_mirrorPassEnd, mirrorPassEnd_counted hp ho hd hc]

end Sys2Proof.Machine
end

section
/-! SUPPORT. The reduced loss (R215), sampled tile checks (R233) and the replay order (R355), where they are due. -/

namespace Sys2Proof.Machine

theorem exec_lossResult (sum : Word) (tokens : DWord) (s : State) :
    exec (.lossResult sum tokens) s = .next (s.after
      (if s.outside then s.toMod.lossGiven sum tokens else onResult s.lossHeld (sum, tokens) Mod.lossIn s.toMod)) := rfl

theorem exec_tileCheckDone (core : Fin 128) (s : State) : exec (.tileCheckDone core) s = .next (s.after (s.toMod.tileCheck core.val)) := rfl

theorem exec_replayOrder (s : State) : exec .replayOrder s = .next (s.after s.toMod.replayOrder) := rfl

theorem lossGiven_due {m : Mod} {k : Nat} (hv : m.upd.lossVoted = true) (hk : m.upd.lossDue = some k) (sum : Word) (tokens : DWord) :
    m.lossGiven sum tokens = m.lossWith k sum tokens.toNat := by
  simp only [Mod.lossGiven, hk, if_pos hv]

/-- The loss is ready with the fold of its sums and the sum of its tokens, once every rank's word is held. -/
theorem lossReady_gathered {m : Mod} {k : Nat} {l : List (List Nat)} (hv : m.upd.lossVoted = true) (hk : m.upd.lossDue = some k)
    (hl : m.gathered kLoss k = some l) :
    m.lossReady = some (k, rankSum ((column l 0).map (BitVec.ofNat 32)), (column l 1).sum) := by
  simp only [Mod.lossReady, hv, hk, hl, Bool.not_true, Bool.false_eq_true, if_false, Option.bind_some, Option.map_some]

theorem lossHeld_ready {m : Mod} {k : Nat} {sum : Word} {tokens : Nat} (h : m.lossReady = some (k, sum, tokens)) :
    m.lossHeld = some (sum, BitVec.ofNat 64 tokens) := by
  rw [Mod.lossHeld, h, Option.map_some]

theorem lossIn_ready {m : Mod} {k : Nat} {sum : Word} {tokens : Nat} (h : m.lossReady = some (k, sum, tokens)) :
    m.lossIn = m.lossWith k sum tokens := by
  simp only [Mod.lossIn, h]

/-- The holding registers of the loss read as what was reported (R215). -/
theorem lossReport_lv_sum (m : Mod) (k : Nat) (sum : Word) (tokens : Nat) :
    (m.lossReport k sum tokens).lv UPD.SN_LOSS_SUM.o = sum.toNat := by
  have hupd : ∀ (t : Mod) f, (t.updOf f).lv UPD.SN_LOSS_SUM.o = t.lv UPD.SN_LOSS_SUM.o := fun _ _ => rfl
  simp [Mod.lossReport, hupd, Mod.lv_lset, Nat.mod_eq_of_lt sum.isLt]

theorem lossReport_cnt_tokens (m : Mod) (k : Nat) (sum : Word) {tokens : Nat} (ht : tokens < 2 ^ 64) :
    (m.lossReport k sum tokens).cnt UPD.SN_LOSS_TOK_LO.o = tokens := by
  have hupd : ∀ (t : Mod) f o, (t.updOf f).lv o = t.lv o := fun _ _ _ => rfl
  have hlow : (m.lossReport k sum tokens).lv UPD.SN_LOSS_TOK_LO.o = tokens % 2 ^ 32 := by
    simp [Mod.lossReport, hupd, Mod.lv_lset]
  have hhigh : (m.lossReport k sum tokens).lv UPD.SN_LOSS_TOK_HI.o = tokens / 2 ^ 32 % 2 ^ 32 := by
    simp [Mod.lossReport, hupd, Mod.lv_lset]
  have hoff : UPD.SN_LOSS_TOK_LO.o + 4 = UPD.SN_LOSS_TOK_HI.o := rfl
  rw [Mod.cnt, hoff, hlow, hhigh]
  omega

/-- A sampled tile whose recomputation is due is checked (R233). -/
theorem tileCheck_sampled {m : Mod} {n : Nat} {x} (hw : m.tileWindow = true) (hb : m.budget 1 ≠ 0)
    (hx : m.health.samples.find? (·.core == n) = some x) :
    m.tileCheck n =
      (let t := (m.hltOf fun h => { h with samples := h.samples.eraseP (·.core == n) }).count HLT.SN_TC_RUN_LO.o 1
       if x.elems.all (tileAgrees x.n) then t
       else ((t.count HLT.SN_TC_BAD_LO.o 1).raiseHLT 4 [(HLT.EVT_INFO.INDEX, n)]).charge 0x04 n 0 0 0 0) := by
  have hb' : (m.budget 1 != 0) = true := bne_iff_ne.2 hb
  simp only [Mod.tileCheck, hw, hb', Bool.and_true, hx]

theorem replayOrder_failed {m : Mod} {k : Nat} (hf : m.steps.failed = some (k, 0)) (ha : m.attempt k ≠ 15) :
    m.replayOrder = (((m.discard k).nextAttempt k).stepsOf fun x => { x with failed := none }).rewind k := by
  simp only [Mod.replayOrder, hf, if_neg ha]

/-- Settles O30: the loss by its contributions, or outside the slice by the command's words; tile checks and the replay order where due. -/
theorem lossTileAndReplayComplete : Obligations.LossTileAndReplayComplete := by
  unfold Obligations.LossTileAndReplayComplete
  refine fun s => ⟨fun k sum tokens hout hv hk => ?_, fun k l hin hv hk hl => ?_, fun n x hw hb hx => ?_, fun k hf ha => ?_⟩
  · rw [exec_lossResult, if_pos hout, lossGiven_due hv hk, Mod.lossWith]
  · have hready := lossReady_gathered hv hk hl
    refine ⟨?_, fun ht => ⟨lossReport_lv_sum _ k _ _, lossReport_cnt_tokens _ k _ ht⟩⟩
    rw [exec_lossResult, if_neg (by simp [hin]), onResult_held (lossHeld_ready hready), lossIn_ready hready, Mod.lossWith]
  · rw [exec_tileCheckDone, tileCheck_sampled hw hb hx]
  · rw [exec_replayOrder, replayOrder_failed hf ha]

end Sys2Proof.Machine
end

section
/-! SUPPORT. The checkpoint engine (R395–R407): each event where the engine awaits it. -/

namespace Sys2Proof.Machine

theorem exec_ckptStartResult (c : Word) (want hold drain0 drain1 : Bool) (s : State) :
    exec (.ckptStartResult c want hold drain0 drain1) s =
      .next (s.after (onResult s.startHeld (c, want, hold, drain0, drain1) Mod.startResult s.toMod)) := rfl

theorem exec_ckptCopyStart (s : State) : exec .ckptCopyStart s = .next (s.after s.toMod.copyStart) := rfl

theorem exec_ckptCopyDone (s : State) : exec .ckptCopyDone s = .next (s.after s.toMod.copyEnd) := rfl

theorem exec_paritySlice (n : Nat) (s : State) : exec (.paritySlice n) s = .next (s.after (s.toMod.openSlice n)) := rfl

theorem exec_commitResult (complete : Bool) (s : State) :
    exec (.commitResult complete) s = .next (s.after (onResult s.commitHeld complete Mod.commitResult s.toMod)) := rfl

theorem exec_restoreRoundResult (c : Word) (seen stepsEqual : Bool) (groupTotals : List Nat) (lacking : Option (Fin 8)) (s : State) :
    exec (.restoreRoundResult c seen stepsEqual groupTotals lacking) s =
      .next (s.after (onResult s.roundHeld (c, seen, stepsEqual, groupTotals, lacking) Mod.restoreRound s.toMod)) := rfl

theorem exec_restoreCopyDone (manifest : List Byte) (s : State) :
    exec (.restoreCopyDone manifest) s = .next (s.after (s.toMod.restoreCopied manifest)) := rfl

theorem exec_drainSend (s : State) : exec .drainSend s = .next (s.after s.toMod.drainSend) := rfl

/-! ## Start (R395) -/

section
variable {m : Mod} {b : Nat} {l : List (List Nat)} (hb : m.ckpt.awaitStart = some b) (hl : m.gathered kStart b = some l)
include hb hl

theorem startHeld_gathered :
    m.startHeld = some (BitVec.ofNat 32 (maxAll (column l 0) + 1), orAll (column l 1) != 0, orAll (column l 2) != 0,
      orAll (column l 3) != 0, orAll (column l 4) != 0) := by
  rw [Mod.startHeld, hb, Option.bind_some, hl, Option.map_some]

theorem startResult_gathered : m.startResult = m.startTaken b l := by
  simp only [Mod.startResult, hb, hl]

end

/-- The start words that are held take effect (R395). -/
theorem exec_start_gathered {s : State} {b : Nat} {l : List (List Nat)} (hb : s.ckpt.awaitStart = some b)
    (hl : s.gathered kStart b = some l) :
    exec (.ckptStartResult (BitVec.ofNat 32 (maxAll (column l 0) + 1)) (orAll (column l 1) != 0) (orAll (column l 2) != 0)
      (orAll (column l 3) != 0) (orAll (column l 4) != 0)) s = .next (s.after (s.toMod.startTaken b l)) := by
  rw [exec_ckptStartResult, onResult_held (startHeld_gathered hb hl), startResult_gathered hb hl]

/-- The module that has taken the start words and awaits none any more. -/
def Mod.startRead (m : Mod) (b : Nat) : Mod := (m.smallTaken kStart b).ckptOf fun x => { x with awaitStart := none }

section
variable {m : Mod} {b : Nat} {l : List (List Nat)}

theorem startTaken_unwanted (h : ¬(orAll (column l 1) ≠ 0 ∧ m.sliceSize % 8 = 0)) : m.startTaken b l = m.startRead b := by
  have hno : orAll (column l 1) = 0 ∨ (m.startRead b).sliceSize % 8 ≠ 0 := by
    by_cases h1 : orAll (column l 1) = 0
    · exact .inl h1
    · exact .inr fun h2 => h ⟨h1, h2⟩
  exact if_pos hno

/-- A wanted checkpoint starts unless a module holds it off, or its set is being drained. -/
theorem startTaken_wanted (h : orAll (column l 1) ≠ 0 ∧ m.sliceSize % 8 = 0) :
    m.startTaken b l =
      if orAll (column l 2) ≠ 0 then (m.startRead b).heldOff (maxAll (column l 0) + 1) (b - 1)
      else if orAll (column l (3 + (maxAll (column l 0) + 1) % 2)) ≠ 0 then
        (m.startRead b).deferCkpt (maxAll (column l 0) + 1) 3 (b - 1)
      else (m.startRead b).startCkpt (maxAll (column l 0) + 1) b := by
  have hyes : ¬(orAll (column l 1) = 0 ∨ (m.startRead b).sliceSize % 8 ≠ 0) := by
    rintro (h1 | h2)
    · exact h.1 h1
    · exact h2 h.2
  exact if_neg hyes

end

theorem heldOff_own {m : Mod} (h : m.ckpt.word.2.2.1 ≠ 0) (c step : Nat) :
    m.heldOff c step = m.deferCkpt c m.ckpt.word.2.2.1 step := if_pos h

/-- Where only another module holds, the reason is one of three (log entry 36). -/
theorem heldOff_other {m : Mod} (h : m.ckpt.word.2.2.1 = 0) (c step : Nat) :
    ∃ why ∈ [1, 2, 4], m.heldOff c step = ({ m with free := m.free + 1 } : Mod).deferCkpt c why step := by
  refine ⟨[1, 2, 4].getD (Config.freeNat m.free % 3) 1, ?_, if_neg (by simp [h])⟩
  have hlt : Config.freeNat m.free % 3 < [1, 2, 4].length := Nat.mod_lt _ (by decide)
  rw [List.getD_eq_getElem _ _ hlt]
  exact List.getElem_mem hlt

/-! ## Copy, parity and commit (R396–R399) -/

theorem copyStart_due {m : Mod} (ho : m.ckpt.order = 2) (hp : m.ckptPhase = 1) (hk : m.ckpt.step < m.steps.oldest) :
    m.copyStart = m.set BLB.STAT.PHASE 2 := if_pos ⟨ho, hp, hk⟩

section
variable {m : Mod} (ho : m.ckpt.order = 2) (hp : m.ckptPhase = 2) (hc : m.copyState.extent ≤ m.copyState.ckpt.copyPos)
include ho hp hc

/-- A copy that has reached the extent ends with the digest of what it reads back, or with an abort (R398, R271). -/
theorem copyEnd_read {t : Mod} {mem : Tbl Byte} (h : m.copyState.readGen m.copyState.ckpt.c false = (t, mem, true)) :
    m.copyEnd = t.sendSha mem := by
  have hdue : ¬(m.ckpt.order ≠ 2 ∨ m.ckptPhase ≠ 2) := by simp [ho, hp]
  simp only [Mod.copyEnd, if_neg hdue, if_neg (Nat.not_lt.2 hc), h]

theorem copyEnd_damaged {t : Mod} {mem : Tbl Byte} (h : m.copyState.readGen m.copyState.ckpt.c false = (t, mem, false)) :
    m.copyEnd = t.voteCommit false := by
  have hdue : ¬(m.ckpt.order ≠ 2 ∨ m.ckptPhase ≠ 2) := by simp [ho, hp]
  simp only [Mod.copyEnd, if_neg hdue, if_neg (Nat.not_lt.2 hc), h]

end

theorem openSlice_due {m : Mod} {n : Nat} (hn : n < m.sliceCount) (hnew : (m.ckpt.slices.any fun x => x.n == n) = false)
    (hlen : m.ckpt.slices.length < 4) (hd : m.down 148 = false) (ho : m.rebuilding ≠ none ∨ m.ckpt.order = 4)
    (hw : m.ckpt.written.contains n = false) (hb : m.budget 3 ≠ 0) :
    m.openSlice n =
      (let x : Slice := ⟨n, [], [], m.rebuilding.isSome⟩
       let c := m.sliceC x
       let t := m.ckptOf fun y => { y with slices := y.slices ++ [x] }
       (t.answerers x).foldl (fun t p =>
         t.ckptSend (t.member p) 0 c (leBytes 4 n ++ leBytes 1 t.gpos ++ leBytes 1 (c % 2) ++ List.replicate 10 0)) t) := by
  have hroom : (decide (m.sliceCount ≤ n) || (m.ckpt.slices.any fun x => x.n == n) || decide (4 ≤ m.ckpt.slices.length) || m.down 148)
      = false := by
    rw [decide_eq_false (Nat.not_le.2 hn), hnew, decide_eq_false (Nat.not_le.2 hlen), hd]; rfl
  have hdue : ((!m.rebuilding.isSome && m.ckpt.order != 4) || m.ckpt.written.contains n || m.budget 3 == 0) = false := by
    have hrun : (!m.rebuilding.isSome && m.ckpt.order != 4) = false := by
      rcases ho with ho | ho
      · rw [Option.isSome_iff_ne_none.2 ho]; rfl
      · rw [ho]; simp
    rw [hrun, hw, beq_eq_false_iff_ne.2 hb]; rfl
  simp only [Mod.openSlice, hroom, hdue, Bool.false_eq_true, if_false]

theorem commitHeld_gathered {m : Mod} {l : List (List Nat)} (hl : m.gathered kCommit m.ckpt.c = some l) :
    m.commitHeld = some ((column l 0).all (· == 1)) := by
  rw [Mod.commitHeld, hl, Option.map_some]

theorem commitResult_gathered {m : Mod} {l : List (List Nat)} (ho : m.ckpt.order = 6 ∨ m.ckpt.order = 7)
    (hl : m.gathered kCommit m.ckpt.c = some l) : m.commitResult = m.commitTaken ((column l 0).all (· == 1)) := by
  have hdue : ¬(m.ckpt.order ≠ 6 ∧ m.ckpt.order ≠ 7) := by omega
  simp only [Mod.commitResult, if_neg hdue, hl]

/-- The commit vote that is held takes effect (R396). -/
theorem exec_commit_gathered {s : State} {l : List (List Nat)} (ho : s.ckpt.order = 6 ∨ s.ckpt.order = 7)
    (hl : s.gathered kCommit s.ckpt.c = some l) :
    exec (.commitResult ((column l 0).all (· == 1))) s = .next (s.after (s.toMod.commitTaken ((column l 0).all (· == 1)))) := by
  rw [exec_commitResult, onResult_held (commitHeld_gathered hl), commitResult_gathered ho hl]

theorem commitTaken_complete {m : Mod} (ho : m.ckpt.order = 6) :
    m.commitTaken true =
      (((((m.dropSmalls fun kind _ => kind == kCommit).setManState m.ckpt.c 3).endCkpt 0).count BLB.SN_DONE_LO.o 1).raiseBLB 1 m.ckpt.c 0
        (m.ckpt.c % 2) m.ckpt.step) := if_pos ⟨ho, rfl⟩

/-- Without every module's COMPLETE the checkpoint fails: reason 2 where this module had aborted, 1 where another had. -/
theorem commitTaken_failed {m : Mod} {complete : Bool} (h : ¬(m.ckpt.order = 6 ∧ complete = true)) :
    m.commitTaken complete =
      ((((m.dropSmalls fun kind _ => kind == kCommit).endCkpt 1).count BLB.SN_FAIL_LO.o 1).raiseBLB 2 m.ckpt.c
        (if m.ckpt.order = 7 then 2 else 1) (m.ckpt.c % 2) m.ckpt.step) := if_neg h

/-! ## Restore (R404–R406) -/

theorem roundHeld_none {m : Mod} (h : m.roundCand = some 0) : m.roundHeld = some (0, false, false, [], none) := by
  rw [Mod.roundHeld, h, Option.bind_some, if_pos rfl]

theorem roundHeld_gathered {m : Mod} {c : Nat} {ws : List (List Nat)} (h : m.roundCand = some c) (hc : c ≠ 0)
    (hw : m.gathered kRound m.round = some ws) :
    m.roundHeld = some (BitVec.ofNat 32 c, orAll (column ws 2) != 0, (roundSteps ws).all fun a => (roundSteps ws).all (· == a),
      m.roundTotals ws, (m.roundLacking ws).map (Fin.ofNat 8)) := by
  rw [Mod.roundHeld, h, Option.bind_some, if_neg hc, hw, Option.map_some]

section
variable {m : Mod} (hp : m.ckptPhase = 5) (hn : m.ckpt.cand = none)
include hp hn

theorem restoreRound_none (h : m.roundCand = some 0) : m.restoreRound = m.restoreFail := by
  have hdue : ¬(m.ckptPhase ≠ 5 ∨ m.ckpt.cand.isSome = true) := by simp [hp, hn]
  simp only [Mod.restoreRound, if_neg hdue, h]

theorem restoreRound_gathered {c : Nat} {ws : List (List Nat)} (h : m.roundCand = some c) (hc : c ≠ 0)
    (hw : m.gathered kRound m.round = some ws) : m.restoreRound = m.judgeRound c ws := by
  have hdue : ¬(m.ckptPhase ≠ 5 ∨ m.ckpt.cand.isSome = true) := by simp [hp, hn]
  rw [Mod.restoreRound, if_neg hdue, h]
  cases c with
  | zero => exact absurd rfl hc
  | succ c => simp only [hw]

end

/-- The words of a round accept a candidate that some module has seen, with equal steps and every group within its limit (R404). -/
theorem roundGood_iff (m : Mod) (c : Nat) (ws : List (List Nat)) (totals : List Nat) :
    m.roundGood c ws totals = true ↔
      orAll (column ws 2) ≠ 0 ∧ (∀ a ∈ roundSteps ws, ∀ b ∈ roundSteps ws, b = a) ∧
        ∀ t ∈ totals, t ≤ if m.importedFor c then 0 else 1 := by
  simp only [Mod.roundGood, Bool.and_eq_true, bne_iff_ne, List.all_eq_true, beq_iff_eq, decide_eq_true_eq, and_assoc]

theorem importedFor_own {m : Mod} {c : Nat} (h : m.manFor c = true) : m.importedFor c = (manState (m.manifest c) == 4) := if_pos h

theorem judgeRound_good {m : Mod} {c : Nat} {ws : List (List Nat)} (h : m.readManifests.roundGood c ws (m.roundTotals ws) = true) :
    m.judgeRound c ws = (m.readManifests.fresh.1).ckptOf fun x => { x with cand := some c, lacking := m.roundLacking ws, rebuilt := [] } :=
  if_pos h

theorem judgeRound_bad {m : Mod} {c : Nat} {ws : List (List Nat)} (h : ¬m.readManifests.roundGood c ws (m.roundTotals ws) = true) :
    m.judgeRound c ws = (m.readManifests.fresh.1).refuseCand c := if_neg h

/-- No rebuild of another member's shard keeps the copy of the chosen generation waiting (R405). -/
theorem restore_awaits_no_slice {m : Mod} (hp : m.ckptPhase = 5) (hr : m.rebuilding = none ∨ m.sliceCount ≤ m.ckpt.written.length) :
    ¬(m.ckptPhase ≠ 5 ∨ (m.rebuilding.isSome = true ∧ m.ckpt.written.length < m.sliceCount)) := by
  rintro (h | ⟨hsome, hlt⟩)
  · exact h hp
  · rcases hr with hr | hr
    · simp [hr] at hsome
    · exact absurd hlt (Nat.not_lt.2 hr)

section
variable {m : Mod} {c : Nat} (hc : m.ckpt.cand = some c) (hp : m.ckptPhase = 5)
  (hr : m.rebuilding = none ∨ m.sliceCount ≤ m.ckpt.written.length)
include hc hp hr

/-- The own shard of the chosen generation, read back, is restored from (R406). -/
theorem restoreCopied_own {t : Mod} {mem : Tbl Byte} (hl : m.ckpt.lacking ≠ some m.gpos)
    (hs : m.see byCkpt [(m.genBase c, m.extent)] = (t, mem, true)) (man : List Byte) :
    m.restoreCopied man = t.readManifests.restoredFrom c mem := by
  simp only [Mod.restoreCopied, hc, if_neg (restore_awaits_no_slice hp hr), if_neg hl, hs]

/-- A rebuilt own shard is accepted first (R405). -/
theorem restoreCopied_rebuilt {t t' : Mod} {mem : Tbl Byte} {man : List Byte} (hl : m.ckpt.lacking = some m.gpos)
    (ha : m.acceptRebuilt c man = (t, true)) (hs : t.see byCkpt [(t.genBase c, t.extent)] = (t', mem, true)) :
    m.restoreCopied man = t'.readManifests.restoredFrom c mem := by
  simp only [Mod.restoreCopied, hc, if_neg (restore_awaits_no_slice hp hr), if_pos hl, ha, hs]

theorem restoreCopied_notRebuilt {t : Mod} {man : List Byte} (hl : m.ckpt.lacking = some m.gpos)
    (ha : m.acceptRebuilt c man = (t, false)) : m.restoreCopied man = t.restoreFail := by
  simp only [Mod.restoreCopied, hc, if_neg (restore_awaits_no_slice hp hr), if_pos hl, ha]

end

/-! ## Drain (R407) -/

section
variable {m : Mod} (hd : m.is BLB.STAT.DRAIN = true)
include hd

theorem drainSend_ended (hp : planAt m.drainPlan m.ckpt.drainPos = none) : m.drainSend = m.drainEnd (some 8) := by
  have hrun : ¬(!m.is BLB.STAT.DRAIN) = true := by simp [hd]
  simp only [Mod.drainSend, if_neg hrun, hp]

variable {area o n : Nat} (hp : planAt m.drainPlan m.ckpt.drainPos = some (area, o, n)) {t : Mod}
include hp

/-- A unit that cannot be read ends the drain (log entry 70). -/
theorem drainSend_unread
    (hr : m.load byCkpt ((if area = 0 then m.genBase m.ckpt.drainGen else m.fragBase m.ckpt.drainGen) + o) n = (t, none)) :
    m.drainSend = t.drainEnd (some 9) := by
  have hrun : ¬(!m.is BLB.STAT.DRAIN) = true := by simp [hd]
  simp only [Mod.drainSend, if_neg hrun, hp, hr]

theorem drainSend_read {bs : List Byte}
    (hr : m.load byCkpt ((if area = 0 then m.genBase m.ckpt.drainGen else m.fragBase m.ckpt.drainGen) + o) n = (t, some bs)) :
    m.drainSend =
      (let t := t.sendTo (t.f TOR.BRIDGE.ID) (t.tagFor t.steps.oldest) clsCKPT 5 (dataInfo t.id m.ckpt.drainGen area o) bs
       let k := t.ckpt.drainPos + 1
       let t := ((t.ckptOf fun x => { x with drainPos := k }).count BLB.SN_EXPORT_LO.o n).progress 148
       if (planAt t.drainPlan k).isNone then t.drainEnd (some 8) else t) := by
  have hrun : ¬(!m.is BLB.STAT.DRAIN) = true := by simp [hd]
  simp only [Mod.drainSend, if_neg hrun, hp, hr]

end

/-! ## The statement -/

/-- A held start word's outcomes in turn: unwanted, started, drained, held off here, held off elsewhere (R395). -/
theorem ckptStart_complete (s : State) {b : Nat} {l : List (List Nat)} (hb : s.ckpt.awaitStart = some b)
    (hl : s.gathered kStart b = some l) :
    let c := maxAll (column l 0) + 1
    let m := s.startRead b
    let start : Instr := .ckptStartResult (BitVec.ofNat 32 c) (orAll (column l 1) != 0) (orAll (column l 2) != 0)
      (orAll (column l 3) != 0) (orAll (column l 4) != 0)
    let wanted := orAll (column l 1) ≠ 0 ∧ s.sliceSize % 8 = 0
    (¬wanted → exec start s = .next (s.after m)) ∧
    (wanted → orAll (column l 2) = 0 → orAll (column l (3 + c % 2)) = 0 → exec start s = .next (s.after (m.startCkpt c b))) ∧
    (wanted → orAll (column l 2) = 0 → orAll (column l (3 + c % 2)) ≠ 0 → exec start s = .next (s.after (m.deferCkpt c 3 (b - 1)))) ∧
    (wanted → orAll (column l 2) ≠ 0 → s.ckpt.word.2.2.1 ≠ 0 →
      exec start s = .next (s.after (m.deferCkpt c s.ckpt.word.2.2.1 (b - 1)))) ∧
    (wanted → orAll (column l 2) ≠ 0 → s.ckpt.word.2.2.1 = 0 →
      ∃ why ∈ [1, 2, 4], exec start s = .next (s.after (({ m with free := m.free + 1 } : Mod).deferCkpt c why (b - 1)))) := by
  intro c m start wanted
  have hexec : exec start s = .next (s.after (s.toMod.startTaken b l)) := exec_start_gathered hb hl
  refine ⟨fun hw => ?_, fun hw h0 hd => ?_, fun hw h0 hd => ?_, fun hw hh ho => ?_, fun hw hh ho => ?_⟩
  · rw [hexec, startTaken_unwanted hw]
  · rw [hexec, startTaken_wanted hw, if_neg (by simp [h0]), if_neg (by simp [c, hd])]
  · rw [hexec, startTaken_wanted hw, if_neg (by simp [h0]), if_pos hd]
  · have hown : (s.startRead b).ckpt.word.2.2.1 ≠ 0 := ho
    rw [hexec, startTaken_wanted hw, if_pos hh, heldOff_own hown]
    rfl
  · obtain ⟨why, hmem, heq⟩ := heldOff_other (m := s.startRead b) ho c (b - 1)
    exact ⟨why, hmem, by rw [hexec, startTaken_wanted hw, if_pos hh, heq]⟩

/-- A held round's outcome: the candidate is accepted where every condition of R404 holds, and refused otherwise. -/
theorem restoreRound_complete (s : State) (hp : s.ckptPhase = 5) (hn : s.ckpt.cand = none) {c : Nat} {ws : List (List Nat)}
    (h : s.roundCand = some c) (hc : c ≠ 0) (hw : s.gathered kRound s.round = some ws) :
    let round : Instr := .restoreRoundResult (BitVec.ofNat 32 c) (orAll (column ws 2) != 0)
      ((roundSteps ws).all fun a => (roundSteps ws).all (· == a)) (s.roundTotals ws) ((s.roundLacking ws).map (Fin.ofNat 8))
    let m := s.readManifests.fresh.1
    let imported := s.readManifests.importedFor c
    let good := orAll (column ws 2) ≠ 0 ∧ (∀ a ∈ roundSteps ws, ∀ b ∈ roundSteps ws, b = a) ∧
      ∀ t ∈ s.roundTotals ws, t ≤ if imported then 0 else 1
    (good → exec round s = .next (s.after (m.ckptOf fun x => { x with cand := some c, lacking := s.roundLacking ws, rebuilt := [] }))) ∧
    (¬good → exec round s = .next (s.after (m.refuseCand c))) := by
  intro round m imported good
  have hexec : exec round s = .next (s.after (s.toMod.judgeRound c ws)) := by
    rw [exec_restoreRoundResult, onResult_held (roundHeld_gathered h hc hw), restoreRound_gathered hp hn h hc hw]
  have hgood : s.readManifests.roundGood c ws (s.roundTotals ws) = true ↔ good := roundGood_iff _ c ws _
  refine ⟨fun hg => ?_, fun hg => ?_⟩
  · rw [hexec, judgeRound_good (hgood.2 hg)]
  · rw [hexec, judgeRound_bad fun hj => hg (hgood.1 hj)]

/-- Settles O44: every event of the engine is its own effect where the engine awaits it, with what the module holds or reads. -/
theorem checkpointEventsComplete : Obligations.CheckpointEventsComplete := by
  unfold Obligations.CheckpointEventsComplete
  refine fun s => ⟨fun b l hb hl => ckptStart_complete s hb hl, fun ho hp hk => ?_,
    fun ho hp hc => ⟨fun m mem h => ?_, fun m mem h => ?_⟩, fun n hn hnew hlen hd ho hw hb => ?_,
    fun l hl => ⟨fun ho hall => ?_, fun ho hall => ?_, fun ho => ?_⟩,
    fun hp hn => ⟨fun h => ?_, fun c ws h hc hw => ?_⟩,
    fun man c hc hp hr => ⟨fun m mem hl hs => ?_, fun m m' mem hl ha hs => ?_, fun m hl ha => ?_⟩,
    fun hd => ⟨fun hp => ?_, fun area o n m bs hp => ⟨fun hr => ?_, fun hr => ?_⟩⟩⟩
  · rw [exec_ckptCopyStart, copyStart_due ho hp hk]
  · rw [exec_ckptCopyDone, copyEnd_read ho hp hc h, Mod.sendSha]
  · rw [exec_ckptCopyDone, copyEnd_damaged ho hp hc h]
  · rw [exec_paritySlice, openSlice_due hn hnew hlen hd ho hw hb]
  · rw [exec_commit_gathered (.inl ho) hl, hall, commitTaken_complete ho]
  · rw [exec_commit_gathered (.inl ho) hl, commitTaken_failed (by simp [hall]), if_neg (by simp [ho])]
  · rw [exec_commit_gathered (.inr ho) hl, commitTaken_failed (by simp [ho]), if_pos ho]
  · rw [exec_restoreRoundResult, onResult_held (roundHeld_none h), restoreRound_none hp hn h]
  · obtain ⟨hgood, hbad⟩ := restoreRound_complete s hp hn h hc hw
    exact ⟨s.readManifests.importedFor c, importedFor_own, fun hseen hsteps hlimit => hgood ⟨hseen, hsteps, hlimit⟩, hbad⟩
  · rw [exec_restoreCopyDone, restoreCopied_own hc hp hr hl hs]
  · rw [exec_restoreCopyDone, restoreCopied_rebuilt hc hp hr hl ha hs]
  · rw [exec_restoreCopyDone, restoreCopied_notRebuilt hc hp hr hl ha]
  · rw [exec_drainSend, drainSend_ended hd hp]
  · rw [exec_drainSend, drainSend_unread hd hp hr]
  · rw [exec_drainSend, drainSend_read hd hp hr]

end Sys2Proof.Machine
end

section
/-! SUPPORT. A packet that writes a local store (R30, R303): where it lands, what bytes it carries, and what of memory it leaves. -/

namespace Sys2Proof.Machine

/-! ## Where it lands (R302) -/

/-- No range that begins in the local-store windows lies in a region of HBM (R29, R34). -/
theorem inRegion_of_lsBase_le {a : Nat} (h : lsBase ≤ a) (m : Mod) (n : Nat) : m.inRegion 6 a n = false := by
  have hend : ¬a + n ≤ m.regionBase 7 := by
    have htop : m.regionBase 7 = hbmTop := rfl
    rw [htop]; simp only [lsBase, hbmTop] at h ⊢; omega
  rw [Mod.inRegion, decide_eq_false hend, Bool.and_false]

theorem lsBase_le_lsAddr (c o : Nat) : lsBase ≤ lsAddr c o := by simp only [lsAddr]; omega

/-- An access to a local store is served in a local store, the module's own or the stand-in's core (R33). -/
theorem servedAt_store {m : Mod} {dest a n b : Nat} (ha : lsBase ≤ a) (hs : (storeOf a n).isSome = true)
    (h : m.servedAt dest a n = some b) : lsBase ≤ b := by
  unfold Mod.servedAt at h
  split at h
  · cases h; exact ha
  · rw [if_pos ⟨ha, hs⟩] at h
    exact Option.some.inj h ▸ lsBase_le_lsAddr _ _

/-- An access of local-store space that is not refused lands in the local-store windows. -/
theorem lsBase_le_of_fabricAddr {m : Mod} {dest o n x : Nat} (h : m.fabricAddr dest 1 o n = .inl x) : lsBase ≤ x := by
  have ha : lsBase ≤ lsBase + o := Nat.le_add_right _ _
  simp only [Mod.fabricAddr, one_ne_zero, OfNat.one_ne_ofNat, if_false, if_true, inRegion_of_lsBase_le ha, Bool.or_false] at h
  split at h
  · cases h
  · split at h
    · cases h
    · rename_i hstore
      cases hb : m.servedAt dest (lsBase + o) n with
      | none => simp [hb] at h
      | some b =>
        have hle := servedAt_store ha (by rwa [Bool.not_eq_true, Bool.not_eq_false'] at hstore) hb
        simp only [hb] at h
        split at h
        · cases h; exact hle
        · cases h

/-! ## What it carries (R303, R305) -/

/-- The payload of a packet that passes the header checks is as long as `LEN` says. -/
theorem pktOk_payload {q : Pkt} (h : pktOk q = true) : q.payload.length = 16 * q.len.toNat := by
  unfold pktOk at h
  dsimp only at h
  split at h
  · cases h
  · simp only [Bool.and_eq_true, decide_eq_true_eq] at h
    obtain ⟨⟨-, hlen⟩, -⟩ := h
    exact hlen

/-- A WRITE carries as many bytes as its range has. -/
theorem length_writeBytes {q : Pkt} (h : pktOk q = true) : (writeBytes q).length = ioBytes q := by
  rw [writeBytes, List.length_take, List.length_drop, pktOk_payload h]
  simp only [ioBytes]
  omega

/-! ## What it leaves -/

@[simp] theorem phy_mem (m : Mod) (uses : Bool) : (m.phy uses).mem = m.mem := by
  unfold Mod.phy
  split <;> rfl

/-- A store to a local store writes its bytes and nothing else of memory (R159). -/
theorem store_localStore {m : Mod} (hp : m.memside.paths = []) {a : Nat} (ha : lsBase ≤ a) (b : By) (bs : List Byte) :
    (m.store b a bs).2 = true ∧ (m.store b a bs).1.mem = putBytes byte0 m.mem a bs := by
  have hhigh : ¬a < hbmTop := by simp only [lsBase, hbmTop] at ha ⊢; omega
  rw [Mod.store, crossing_clean hp]
  dsimp only
  rw [Mod.putAt, if_neg hhigh]
  exact ⟨rfl, by simp⟩

/-- No unit of HBM stops a write of a local store (R268). -/
theorem writeStops_localStore {a : Nat} (ha : lsBase ≤ a) (m : Mod) (n : Nat) : m.writeStops a n = [] :=
  if_pos (by simp only [lsBase, hbmTop] at ha ⊢; omega)

/-- A WRITE of a local store that asks for no ACK is the store and nothing more. -/
theorem doWrite_localStore {m : Mod} {q : Pkt} {x : Nat} (hl : ioLast (infoOf q) = false) (hs : ioSpace (infoOf q) = 1)
    (hx : m.fabricAddr (destOf q) 1 (ioOffset (infoOf q)) (ioBytes q) = .inl x) (hp : m.memside.paths = []) (a : Agent) (ans : Answer) :
    m.doWrite q a ans = (m.store (By.hub (some (tagOf q))) x (writeBytes q)).1 := by
  have hle := lsBase_le_of_fabricAddr hx
  obtain ⟨hmade, -⟩ := store_localStore hp hle (By.hub (some (tagOf q))) (writeBytes q)
  have hstore : m.store (By.hub (some (tagOf q))) x (writeBytes q) = ((m.store (By.hub (some (tagOf q))) x (writeBytes q)).1, true) :=
    Prod.ext rfl hmade
  simp only [Mod.doWrite, hs, hx, OfNat.one_ne_ofNat, if_false, writeStops_localStore hle, Mod.canRead, hl, Bool.false_eq_true]
  rw [hstore]

/-- A command that leaves the module still has no further effect. -/
theorem after_still {s : State} {m : Mod} (h : m.still = true) (hw : s.health.winDue = false) : s.after m = s.become m := by
  simp only [Mod.still, Bool.and_eq_true, Bool.not_eq_true'] at h
  obtain ⟨⟨hcalm, -⟩, hphy⟩ := h
  rw [State.after, settle_calm hcalm, waitsPhy_same hphy hw, State.become]

/-- A packet that is not marked finds the module as it was (R364). -/
theorem handsOn_unmarked {m m' : Mod} {port : Nat} {q : Pkt} (h : m.handsOn port q m') (hm : q.marked = false) : m' = m := by
  obtain ⟨-, -, -, -, -, -, -, -, -, -, -, -, -, -, htr⟩ := h
  rw [Mod.track, if_pos (by simp [hm])] at htr
  exact (Prod.ext_iff.1 htr).1.symm

theorem handsOn_pktOk {m m' : Mod} {port : Nat} {q : Pkt} (h : m.handsOn port q m') : pktOk q = true := by
  obtain ⟨-, -, hok, -⟩ := h
  exact hok

/-- Settles O59: the WRITE is one store to a local store, which `tget_putBytes` reads back byte by byte. -/
theorem localStoreWriteFrame : Obligations.LocalStoreWriteFrame := by
  unfold Obligations.LocalStoreWriteFrame
  intro s port p m x q hq hl hs hx hp hstill hwin hwf
  obtain ⟨-, hmem⟩ := store_localStore hp (lsBase_le_of_fabricAddr hx) (By.hub (some (tagOf q))) (writeBytes q)
  have hlen : (writeBytes q).length = ioBytes q := length_writeBytes (handsOn_pktOk hq)
  refine ⟨s.become (m.store (By.hub (some (tagOf q))) x (writeBytes q)).1, ?_, ?_, fun i hi => ?_, fun a ha => ⟨?_, fun hmk => ?_⟩⟩
  · rw [exec_write hq, doWrite_localStore hl hs hx hp, after_still hstill hwin]
  · rw [State.become_toMod, hmem]
    exact twf_putBytes x (writeBytes q) hwf
  · rw [State.become_toMod, Mod.byteAt, hmem, tget_putBytes, if_pos (by omega), Nat.add_sub_cancel_left]
  · rw [State.become_toMod, Mod.byteAt, hmem, tget_putBytes, if_neg (by omega), Mod.byteAt]
  · rw [handsOn_unmarked hq hmk]

end Sys2Proof.Machine
end

section
/-! SUPPORT. Requesters of a shared resource (R51): what the granted one does happens, and the grant leaves the queues and arrays as they
were. -/

namespace Sys2Proof.Machine

theorem granting_granted {m : Mod} {res q : Nat} {reqs : List Nat} (h : m.grant res reqs q = some q) (f : Mod → Mod) :
    m.granting res reqs q f = f (m.granted res reqs q) := if_pos h

@[simp] theorem granted_running (m : Mod) (res : Nat) (reqs : List Nat) (g n q op : Nat) :
    (m.granted res reqs g).running n q op = m.running n q op := rfl

@[simp] theorem granted_arr (m : Mod) (res : Nat) (reqs : List Nat) (g n : Nat) : (m.granted res reqs g).arr n = m.arr n := rfl

end Sys2Proof.Machine
end

section
/-! SUPPORT. The array (chapter 3): a pass from its request to its completion, and each command where a pass awaits it. -/

namespace Sys2Proof.Machine

theorem exec_arrayPass (n : Fin 128) (q : Fin 4) (s : State) :
    exec (.arrayPass n q) s = .next (s.after (s.toMod.arrayPass n.val q.val)) := rfl

theorem exec_weightLoadDone (n : Fin 128) (s : State) :
    exec (.weightLoadDone n) s = .next (s.after (s.toMod.weightLoadDone n.val)) := rfl

theorem exec_arrayPassComplete (n : Fin 128) (s : State) :
    exec (.arrayPassComplete n) s = .next (s.after (s.toMod.arrayPassComplete n.val)) := rfl

theorem exec_arrayDrainDone (n : Fin 128) (s : State) :
    exec (.arrayDrainDone n) s = .next (s.after (s.toMod.arrayDrainDone n.val)) := rfl

theorem exec_arrData (n : Fin 128) (off : BitVec 22) (s : State) :
    exec (.arrData n off) s = .next (s.after (s.toMod.arrData n.val off.toNat)) := rfl

theorem exec_rampDownDone (n : Fin 128) (s : State) :
    exec (.rampDownDone n) s = .next (s.after (s.toMod.rampDownDone n.val)) := rfl

/-! ## Issue (R68, R84) -/

section
variable {m : Mod} {n q g : Nat} {d : Desc} (hg : m.grant n (m.passRequests n) q = some g) (hd : m.running n g 0x10 = some d)
  (hs : (m.arr n).passes.any Pass.shadow = false)
include hg hd hs

/-- With the shadow registers free, the pass of the granted queue that no check refuses is issued and stands last in the array. -/
theorem arrayPass_accepted (hc : (arrDesc d.bytes).check (m.arr n) = 0) :
    m.arrayPass n q =
      ((m.granted n (m.passRequests n) g).mapDesc n g d.num fun e => { e with issued := true }).setArr n
        (let a := (m.arr n).opens (arrDesc d.bytes)
         { a with passes := a.passes ++ [⟨g, d.num, d.tag, d.bytes, 0, []⟩] }) := by
  simp only [Mod.arrayPass, hg, hs, if_neg Bool.false_ne_true, Mod.passTaken, granted_running, granted_arr, hd, hc]

/-- A pass that a check refuses ends with that check's status: `hc` shuts out the branch of status 0. -/
theorem arrayPass_refused (hc : (arrDesc d.bytes).check (m.arr n) ≠ 0) :
    m.arrayPass n q = (m.granted n (m.passRequests n) g).endDesc n g d ((arrDesc d.bytes).check (m.arr n)) := by
  simp only [Mod.arrayPass, hg, hs, if_neg Bool.false_ne_true, Mod.passTaken, granted_running, granted_arr, hd]

end

/-! ## Weight load and first line (R69, R70, R85) -/

section
variable {m : Mod} {n : Nat} {p : Pass}

theorem weightLoadDone_first (hp : (m.arr n).passes.find? (·.phase == 0) = some p) : m.weightLoadDone n = m.passStarts n p := by
  simp only [Mod.weightLoadDone, hp]

theorem passStarts_waits (hw : (m.arr n).waitsDrain p = true) : m.passStarts n p = m.setArr n ((m.arr n).setPhase p 2) := if_pos hw

theorem passStarts_loads (hw : (m.arr n).waitsDrain p = false) (hc : (arrDesc p.bytes).check ((m.arr n).before p) = 0) :
    m.passStarts n p = m.loadsWeights n p := by
  simp only [Mod.passStarts, hw, if_neg Bool.false_ne_true, hc]

/-- A pass that a check refuses now leaves with that check's status: `hc` shuts out the branch of status 0. -/
theorem passStarts_fails (hw : (m.arr n).waitsDrain p = false) (hc : (arrDesc p.bytes).check ((m.arr n).before p) ≠ 0) :
    m.passStarts n p = m.passFails n p ((arrDesc p.bytes).check ((m.arr n).before p)) := by
  simp only [Mod.passStarts, hw, if_neg Bool.false_ne_true]

/-! ## Completion, drain and errors (R70, R85, R86) -/

theorem arrayPassComplete_first
    (hp : (m.arr n).passes.find? (fun p => p.phase == 3 || (p.phase == 1 && !(arrDesc p.bytes).drain)) = some p) :
    m.arrayPassComplete n = m.passEnds n p := by
  simp only [Mod.arrayPassComplete, hp]

theorem arrayDrainDone_first (hp : (m.arr n).passes.find? (fun p => p.phase == 1 && (arrDesc p.bytes).drain) = some p) :
    m.arrayDrainDone n = m.drainEnds n p := by
  simp only [Mod.arrayDrainDone, hp]

/-- The last pass that reads the byte meets the error, and a pass that waited for its drain goes on. -/
theorem arrData_reader {off : Nat}
    (hp : ((m.arr n).passes.reverse.find? fun p => decide (p.phase < 3) && m.passReads n off p) = some p) :
    m.arrData n off =
      (let t := m.mside fun x => { x with lsErr := tset (fun _ => 0) x.lsErr (lsAddr n off) 3 }
       (((t.lsByte (By.core n p.tag) (lsAddr n off)).1).arrayData n p).wakePass n) := by
  simp only [Mod.arrData, hp]

end

/-- Settles O22: each command of the array where a pass awaits it, by the pass that its search finds and the check that refuses it. -/
theorem arrayCommandsComplete : Obligations.ArrayCommandsComplete := by
  unfold Obligations.ArrayCommandsComplete
  refine fun s n => ⟨fun q g d hg hd hs => ⟨fun hc => ?_, fun hc => ?_⟩,
    fun p hp => ⟨fun hw hc => ?_, fun hw hc => ?_, fun hw => ?_⟩, fun p hp => ?_, fun p hp => ?_, fun off p hp => ?_, ?_⟩
  · rw [exec_arrayPass, arrayPass_accepted hg hd hs hc]
  · rw [exec_arrayPass, arrayPass_refused hg hd hs hc]
  · rw [exec_weightLoadDone, weightLoadDone_first hp, passStarts_loads hw hc]
  · rw [exec_weightLoadDone, weightLoadDone_first hp, passStarts_fails hw hc]
  · rw [exec_weightLoadDone, weightLoadDone_first hp, passStarts_waits hw]
  · rw [exec_arrayPassComplete, arrayPassComplete_first hp]
  · rw [exec_arrayDrainDone, arrayDrainDone_first hp]
  · rw [exec_arrData, arrData_reader hp]
  · rw [exec_rampDownDone, Mod.rampDownDone]

end Sys2Proof.Machine
end

section
/-! SUPPORT. The DMA engine (R179–R182, R197, R198, R252): the descriptor that is granted the engine, and what a Stalk granule held back. -/

namespace Sys2Proof.Machine

theorem exec_copy (n : Fin 128) (q : Fin 4) (z : Noise) (s : State) :
    exec (.copy n q z) s = .next (s.after (s.toMod.onDma n.val q.val fun m => m.runCopy n.val q.val z)) := rfl

theorem exec_skew (n : Fin 128) (q : Fin 4) (s : State) :
    exec (.skew n q) s = .next (s.after (s.toMod.onDma n.val q.val fun m => m.runSkew n.val q.val)) := rfl

theorem exec_weight (n : Fin 128) (q : Fin 4) (s : State) :
    exec (.weight n q) s = .next (s.after (s.toMod.onDma n.val q.val fun m => m.runWeight n.val q.val)) := rfl

theorem exec_scatterAdd (n : Fin 128) (q : Fin 4) (s : State) :
    exec (.scatterAdd n q) s = .next (s.after (s.toMod.onDma n.val q.val fun m => m.runScatter n.val q.val)) := rfl

theorem exec_stalkWriteRelease (n : Fin 128) (q : Fin 4) (s : State) :
    exec (.stalkWriteRelease n q) s = .next (s.after (s.toMod.stalkRelease n.val q.val)) := rfl

theorem onDma_granted {m : Mod} {n q : Nat}
    (h : m.grant (256 + n) (m.engineRequests n [0x20, 0x21, 0x22, 0x23]) q = some q) (f : Mod → Mod) :
    m.onDma n q f = f (m.granted (256 + n) (m.engineRequests n [0x20, 0x21, 0x22, 0x23]) q) := granting_granted h f

/-! ## Descriptors (R179, R181, R182, R252) -/

section
variable {m : Mod} {n q : Nat} {e : Desc} (hh : m.dmaHeld n = false)
include hh

theorem runCopy_goes (hd : m.running n q 0x20 = some e) (hc : m.copyCheck (copyDesc e.bytes) = 0)
    (hg : m.badGranule e.tag (m.dmaReads e.bytes) = none) (z : Noise) : m.runCopy n q z = (m.strike z).copyGo n q e := by
  simp only [Mod.runCopy, hh, if_neg Bool.false_ne_true, hd, hc, hg]

theorem runSkew_read {m₁ m₂ : Mod} {raw sc : List (List Byte)} (hd : m.running n q 0x21 = some e)
    (hc : m.skewCheck (skewDesc e.bytes) = 0) (hg : m.badGranule e.tag (m.dmaReads e.bytes) = none)
    (hraw : m.loads (By.core n e.tag) (skewDesc e.bytes).rowReads = (m₁, some raw))
    (hsc : m₁.loads (By.core n e.tag) ((List.range (skewDesc e.bytes).m).flatMap (skewDesc e.bytes).scaleReads) = (m₂, some sc)) :
    m.runSkew n q = m₂.skewWrite n q e (skewDesc e.bytes) raw sc := by
  simp only [Mod.runSkew, hh, if_neg Bool.false_ne_true, hd, hc, hg, hraw, hsc]

theorem runWeight_read {m₁ m₂ m₃ : Mod} {raw mraw sc : List (List Byte)} (hd : m.running n q 0x22 = some e)
    (hc : m.weightCheck (weightDesc e.bytes) = 0) (hg : m.badGranule e.tag (m.dmaReads e.bytes) = none)
    (hraw : m.loads (By.core n e.tag) (weightDesc e.bytes).rowReads = (m₁, some raw))
    (hmeta : m₁.loads (By.core n e.tag) (weightDesc e.bytes).metaReads = (m₂, some mraw))
    (hsc : m₂.loads (By.core n e.tag) (weightDesc e.bytes).scaleReads = (m₃, some sc)) :
    m.runWeight n q = m₃.weightWrite n q e (weightDesc e.bytes) raw mraw sc := by
  simp only [Mod.runWeight, hh, if_neg Bool.false_ne_true, hd, hc, hg, hraw, hmeta, hsc]

theorem runScatter_goes (hd : m.running n q 0x23 = some e) : m.runScatter n q = m.scatterDescGo n q e := by
  simp only [Mod.runScatter, hh, if_neg Bool.false_ne_true, hd]

end

/-- A scatter-add whose fields and local-store ranges pass checks 1 and 2 of R252 reads its indices and goes on with them. -/
theorem scatterDescGo_read {m m₁ : Mod} {n q : Nat} {e : Desc} {bs : List Byte} {d : ScatterD} (hde : scatterDesc e.bytes = d)
    (hrsv : d.rsv = 0) (hn : d.n ≠ 0) (hrow : d.rowlen ≠ 0) (hlim : d.limit ≠ 0) (hpitch : d.dpitch % elemWidth d.afmt = 0)
    (hidx : d.idx * 64 + 4 * d.n ≤ lsSize) (hval : d.val * 64 + (d.n - 1) * d.vpitch * 64 + d.rowlen * addWidth d.afmt ≤ lsSize)
    (hload : m.load (By.core n e.tag) (lsAddr n (d.idx * 64)) (4 * d.n) = (m₁, some bs)) :
    m.scatterDescGo n q e = m₁.scatterGo n q e d ((pieces 4 d.n bs).map leNat) := by
  have hfields : ¬(d.rsv ≠ 0 ∨ d.n = 0 ∨ d.rowlen = 0 ∨ d.limit = 0 ∨ d.dpitch % elemWidth d.afmt ≠ 0) := by
    simp [hrsv, hn, hrow, hlim, hpitch]
  have hrange : ¬(lsSize < d.idx * 64 + 4 * d.n ∨
      lsSize < d.val * 64 + (d.n - 1) * d.vpitch * 64 + d.rowlen * addWidth d.afmt) := by
    rintro (h | h)
    · exact Nat.not_lt.2 hidx h
    · exact Nat.not_lt.2 hval h
  simp only [Mod.scatterDescGo, hde, if_neg hfields, if_neg hrange, hload]

/-! ## The Stalk lets go (R197, R198) -/

section
variable {m : Mod} {n q : Nat} {e : Desc}

/-- A COPY that waited for a granule goes on. -/
theorem stalkRelease_copy (hw : m.waiter n q 1 = some e) (hg : m.badGranule e.tag (m.dmaReads e.bytes) = none)
    (hl : (m.copyGo n q e).heldWrites.filter (fun h => h.core == n && h.q == q && h.lands) = []) :
    m.stalkRelease n q = m.copyGo n q e := by
  simp only [Mod.stalkRelease, hw, hg, hl, List.foldl_nil]

/-- The one write of read data that waited lands. -/
theorem stalkRelease_lands {h : HeldWrite} (hw : m.waiter n q 1 = none)
    (hl : m.heldWrites.filter (fun h => h.core == n && h.q == q && h.lands) = [h])
    (hd : (m.queue n q).taken.find? (·.num == h.num) = some e) :
    m.stalkRelease n q =
      ((({ m with heldWrites := m.heldWrites.erase h } : Mod).landData n q e h.dest h.bytes).endIfDone n q h.num) := by
  simp only [Mod.stalkRelease, hw, hl, List.foldl_cons, List.foldl_nil, hd]

end

/-- Settles O25: the engine's grant, then each descriptor by its checks and reads; a release by what the granule held back. -/
theorem dmaDescriptorsComplete : Obligations.DmaDescriptorsComplete := by
  unfold Obligations.DmaDescriptorsComplete
  intro s n q e
  refine ⟨fun hgrant hh => ⟨fun z hd hc hg => ?_, fun m₁ m₂ raw sc hd hc hg hraw hsc => ?_,
    fun m₁ m₂ m₃ raw mraw sc hd hc hg hraw hmeta hsc => ?_,
    fun m₁ bs hd hrsv hn hrow hlim hpitch hidx hval hload => ?_⟩, fun hw hg hl => ?_, fun h hw hl hd => ?_⟩
  · rw [exec_copy, onDma_granted hgrant, runCopy_goes hh hd hc hg]
  · rw [exec_skew, onDma_granted hgrant, runSkew_read hh hd hc hg hraw hsc]
  · rw [exec_weight, onDma_granted hgrant, runWeight_read hh hd hc hg hraw hmeta hsc]
  · rw [exec_scatterAdd, onDma_granted hgrant, runScatter_goes hh hd,
      scatterDescGo_read rfl hrsv hn hrow hlim hpitch hidx hval hload]
  · rw [exec_stalkWriteRelease, stalkRelease_copy hw hg hl]
  · rw [exec_stalkWriteRelease, stalkRelease_lands hw hl hd]

end Sys2Proof.Machine
end

section
/-! SUPPORT. The vector engine (R185–R189): each descriptor that is granted the engine, passes its checks and has its operands read. -/

namespace Sys2Proof.Machine

theorem exec_elt (n : Fin 128) (q : Fin 4) (s : State) :
    exec (.elt n q) s = .next (s.after (s.toMod.onVec n.val q.val fun m => m.runElt n.val q.val)) := rfl

theorem exec_rowred (n : Fin 128) (q : Fin 4) (s : State) :
    exec (.rowred n q) s = .next (s.after (s.toMod.onVec n.val q.val fun m => m.runRowred n.val q.val)) := rfl

theorem exec_amax (n : Fin 128) (q : Fin 4) (s : State) :
    exec (.amax n q) s = .next (s.after (s.toMod.onVec n.val q.val fun m => m.runAmax n.val q.val)) := rfl

theorem exec_ranksum (n : Fin 128) (q : Fin 4) (s : State) :
    exec (.ranksum n q) s = .next (s.after (s.toMod.onVec n.val q.val fun m => m.runRanksum n.val q.val)) := rfl

theorem exec_quant (n : Fin 128) (q : Fin 4) (s : State) :
    exec (.quant n q) s = .next (s.after (s.toMod.onVec n.val q.val fun m => m.runQuant n.val q.val)) := rfl

theorem onVec_granted {m : Mod} {n q : Nat}
    (h : m.grant (384 + n) (m.engineRequests n [0x30, 0x31, 0x32, 0x33, 0x34]) q = some q) (f : Mod → Mod) :
    m.onVec n q f = f (m.granted (384 + n) (m.engineRequests n [0x30, 0x31, 0x32, 0x33, 0x34]) q) := granting_granted h f

section
variable {m m₁ m₂ m₃ : Mod} {n q : Nat} {e : Desc} {d : VecD} (hde : vecDesc e.bytes = d)

/-- ELT writes the function of its operands (R185). -/
theorem eltGo_read {a b c : List (List Num)} (ha : m.opA n e.tag d = (m₁, some a))
    (hb : m₁.opBC n e.tag d d.srcB d.pitchB d.bcastB (decide (2 ≤ eltArgs d.fn)) = (m₂, some b))
    (hc : m₂.opBC n e.tag d d.srcC d.pitchC d.bcastC (eltArgs d.fn == 3) = (m₃, some c)) :
    m.eltGo n q e d = m₃.eltWrite n q e d a b c := by
  simp only [Mod.eltGo, ha, hb, hc]

/-- QUANT writes its values at the shift that its record and amax word give (R102, R189). -/
theorem quantGo_read {r : ScaleRec} {x : Num} {a : List (List Num)} (hx : m.quantAmax n e.tag d r = (m₁, some x))
    (ha : m₁.opA n e.tag d = (m₂, some a)) :
    m.quantGo n q e d r =
      (let t := r.t x
       let vals := a.map fun row => row.map (quantScale t.1)
       m₂.quantPut n q e d r t.2
         (if d.kind = 3 then quantKind3 vals else quantMx d.kind d.baxis d.rows d.n d.dstS d.pitchS vals)) := by
  simp only [Mod.quantGo, hx, ha]

include hde

theorem runElt_goes (hd : m.running n q 0x30 = some e) (hbad : d.eltBad = 0) : m.runElt n q = m.eltGo n q e d := by
  simp only [Mod.runElt, hd, hde, hbad]

theorem runRowred_read {a : List (List Num)} (hd : m.running n q 0x34 = some e) (hbad : d.redBad = 0)
    (ha : m.opA n e.tag d = (m₁, some a)) :
    m.runRowred n q = (m₁.putRow n e.tag (d.dst * 64) 4 (a.map fun r => (rowReduce d.fn r).toNat)).endDesc n q e 0 := by
  simp only [Mod.runRowred, hd, hde, hbad, ha]

theorem runAmax_read {a : List (List Num)} (hd : m.running n q 0x32 = some e) (hbad : d.amaxBad = 0)
    (ha : m.opA n e.tag d = (m₁, some a)) :
    m.runAmax n q = (m₁.putRow n e.tag (d.dst * 64) 4 [(toFP32 (amaxOf a.flatten)).toNat]).endDesc n q e 0 := by
  simp only [Mod.runAmax, hd, hde, hbad, ha]

theorem runRanksum_read {a : List (List Nat)} (hd : m.running n q 0x33 = some e) (hbad : d.rankBad = 0)
    (ha : m.opCodes n e.tag d.srcA d.pitchA d.rows d.n 4 = (m₁, some a)) :
    m.runRanksum n q =
      (m₁.putRow n e.tag (d.dst * 64) 4
        ((List.range d.n).map fun i => (rankSum (a.map fun r => BitVec.ofNat 32 (r.getD i 0))).toNat)).endDesc n q e 0 := by
  simp only [Mod.runRanksum, hd, hde, hbad, ha]

/-- A QUANT with a valid record goes on with it once its fields and ranges pass. -/
theorem runQuant_goes {w : Nat} (hd : m.running n q 0x31 = some e) (hf : d.quantField = false)
    (hw : m.loadNat (By.core n e.tag) (m.recAddr d.rcd) 8 = (m₁, some w)) (hrec : recOk w = true)
    (hr : d.quantRange ((scaleRec w).mode == 2) = false) : m.runQuant n q = m₁.quantGo n q e d (scaleRec w) := by
  simp only [Mod.runQuant, hd, hde, hf, hw, hrec, hr, Bool.not_true, if_neg Bool.false_ne_true]

end

/-- Settles O26: the engine's grant, then each descriptor by its checks and the operands read. -/
theorem vectorDescriptorsComplete : Obligations.VectorDescriptorsComplete := by
  unfold Obligations.VectorDescriptorsComplete
  intro s n q e reqs m d hgrant
  refine ⟨fun m₁ m₂ m₃ a b c hd hbad ha hb hc => ?_, fun m₁ a hd hbad ha => ?_, fun m₁ a hd hbad ha => ?_,
    fun m₁ a hd hbad ha => ?_, fun m₁ m₂ m₃ w x a hd hf hw hrec hr hx ha => ?_⟩
  · rw [exec_elt, onVec_granted hgrant, runElt_goes rfl hd hbad, eltGo_read ha hb hc]
  · rw [exec_rowred, onVec_granted hgrant, runRowred_read rfl hd hbad ha]
  · rw [exec_amax, onVec_granted hgrant, runAmax_read rfl hd hbad ha]
  · rw [exec_ranksum, onVec_granted hgrant, runRanksum_read rfl hd hbad ha]
  · rw [exec_quant, onVec_granted hgrant, runQuant_goes rfl hd hf hw hrec hr, quantGo_read hx ha]

end Sys2Proof.Machine
end

section
/-! SUPPORT. Fennel (R139–R157): how a descriptor opens its operation, and how the scan of a DISPATCH returns. -/

namespace Sys2Proof.Machine

theorem exec_dispatch (n : Fin 128) (q : Fin 4) (s : State) :
    exec (.dispatch n q) s = .next (s.after (s.toMod.runFennel n.val q.val 0x40)) := rfl

theorem exec_combine (n : Fin 128) (q : Fin 4) (s : State) :
    exec (.combine n q) s = .next (s.after (s.toMod.runFennel n.val q.val 0x41)) := rfl

theorem exec_dispatchBwd (n : Fin 128) (q : Fin 4) (s : State) :
    exec (.dispatchBwd n q) s = .next (s.after (s.toMod.runFennel n.val q.val 0x42)) := rfl

theorem exec_combineBwd (n : Fin 128) (q : Fin 4) (s : State) :
    exec (.combineBwd n q) s = .next (s.after (s.toMod.runFennel n.val q.val 0x43)) := rfl

theorem exec_fenOpOpen (n : Fin 128) (q : Fin 4) (s : State) :
    exec (.fenOpOpen n q) s = .next (s.after (s.toMod.openFennel n.val q.val)) := rfl

theorem exec_fennelScanResult (i : Fin 4) (r : ScanResult) (s : State) :
    exec (.fennelScanResult i r) s = .next (s.after (onResult (s.scanHeld i.val) r (fun m => m.scanResult i.val) s.toMod)) := rfl

/-- Each of the four commands runs the descriptor of its own opcode. -/
theorem exec_fennel (n : Fin 128) (q : Fin 4) (s : State) :
    ∀ cmd ∈ [(Instr.dispatch n q, 0x40), (.combine n q, 0x41), (.dispatchBwd n q, 0x42), (.combineBwd n q, 0x43)],
      exec cmd.1 s = .next (s.after (s.toMod.runFennel n.val q.val cmd.2)) := by
  simp only [List.forall_mem_cons, List.not_mem_nil, false_imp_iff, implies_true, and_true]
  exact ⟨exec_dispatch n q s, exec_combine n q s, exec_dispatchBwd n q s, exec_combineBwd n q s⟩

/-! ## Opening (R142, R153) -/

theorem running_opcode {m : Mod} {n q op : Nat} {e : Desc} (h : m.running n q op = some e) : hOpcode e.bytes = op := by
  have hp := List.find?_some h
  simp only [Bool.and_eq_true, beq_iff_eq] at hp
  obtain ⟨⟨⟨⟨-, hop⟩, -⟩, -⟩, -⟩ := hp
  exact hop

/-- What an operation does as it opens, by its opcode: a DISPATCH waits for its scan; the others send their rows, take the packets that came
early, and may end at once. -/
def Mod.opensAs (m : Mod) (n q : Nat) (e : Desc) (pl : List Nat) : Mod :=
  let o := m.newOp n q e
  let t := m.opensOp n q e o
  let d := fenDesc e.bytes
  if hOpcode e.bytes = 0x40 then t.dispatchOpen o d
  else if hOpcode e.bytes = 0x42 then ((t.dispatchBwdOpen o d pl).deliverEarly o).fenEnd o
  else ((t.combineOpen o d pl).deliverEarly o).fenEnd o

/-- A descriptor that passes the checks of R142 opens as its opcode says. -/
theorem fenGo_checked {m t : Mod} {n q : Nat} {e : Desc} {pl : List Nat} (h : m.fenCheck n q e = (t, 0, pl)) :
    m.fenGo n q e = t.opensAs n q e pl := by
  simp only [Mod.fenGo, h, Mod.opensAs]
  split
  · rfl
  · split <;> rfl

section
variable {m t : Mod} {n q op : Nat} {e : Desc} (hd : m.running n q op = some e)
include hd

theorem runFennel_waits (hen : m.is FEN.CFG.ENABLE = true) (hfull : 4 ≤ m.fen.ops.length ∨ m.fenRequests ≠ []) :
    m.runFennel n q op = m.mapDesc n q e.num fun x => { x with wait := 5 } := by
  have hwait : m.is FEN.CFG.ENABLE = true ∧ (4 ≤ m.fen.ops.length ∨ (!m.fenRequests.isEmpty) = true) := by
    simpa [hen] using hfull
  simp only [Mod.runFennel, hd, if_pos hwait]

theorem runFennel_opens {pl : List Nat} (hroom : m.fen.ops.length < 4) (hnone : m.fenRequests = [])
    (hc : m.fenCheck n q e = (t, 0, pl)) : m.runFennel n q op = t.opensAs n q e pl := by
  have hgo : ¬(m.is FEN.CFG.ENABLE = true ∧ (4 ≤ m.fen.ops.length ∨ (!m.fenRequests.isEmpty) = true)) := by
    simp [hnone, hroom]
  simp only [Mod.runFennel, hd, if_neg hgo, fenGo_checked hc]

end

/-- With an operation's place free the waiting descriptor opens that the arbiter grants (R51, R153). -/
theorem openFennel_granted {m t : Mod} {n q g : Nat} {e : Desc} {pl : List Nat} (hg : m.grant 128 m.fenRequests (4 * n + q) = some g)
    (hw : m.waiter (g / 4) (g % 4) 5 = some e) (hroom : m.fen.ops.length < 4)
    (hc : (m.granted 128 m.fenRequests g).fenCheck (g / 4) (g % 4) e = (t, 0, pl)) :
    m.openFennel n q = t.opensAs (g / 4) (g % 4) e pl := by
  simp only [Mod.openFennel, hg, hw, if_neg (Nat.not_le.2 hroom), fenGo_checked hc]

section
variable {m : Mod} {n q : Nat} {e : Desc} (pl : List Nat)

theorem opensAs_dispatch (h : hOpcode e.bytes = 0x40) :
    m.opensAs n q e pl = (m.opensOp n q e (m.newOp n q e)).dispatchOpen (m.newOp n q e) (fenDesc e.bytes) := if_pos h

theorem opensAs_dispatchBwd (h : hOpcode e.bytes = 0x42) :
    m.opensAs n q e pl =
      (((m.opensOp n q e (m.newOp n q e)).dispatchBwdOpen (m.newOp n q e) (fenDesc e.bytes) pl).deliverEarly (m.newOp n q e)).fenEnd
        (m.newOp n q e) := by
  have hnot40 : hOpcode e.bytes ≠ 0x40 := by omega
  simp only [Mod.opensAs, if_neg hnot40, if_pos h]

/-- COMBINE and COMBINE_BWD open alike. -/
theorem opensAs_combine (h : hOpcode e.bytes = 0x41 ∨ hOpcode e.bytes = 0x43) :
    m.opensAs n q e pl =
      (((m.opensOp n q e (m.newOp n q e)).combineOpen (m.newOp n q e) (fenDesc e.bytes) pl).deliverEarly (m.newOp n q e)).fenEnd
        (m.newOp n q e) := by
  obtain ⟨hnot40, hnot42⟩ : hOpcode e.bytes ≠ 0x40 ∧ hOpcode e.bytes ≠ 0x42 := by omega
  simp only [Mod.opensAs, if_neg hnot40, if_neg hnot42]

end

/-! ## The scan returns (R146, R147) -/

section
variable {m : Mod} {i : Nat} {o : FenOp} {l : List (List Nat)} (ho : m.fen.ops[i]? = some o) (hop : o.op = 0x40)
  (hs : o.scanned = false) (hl : m.gathered kScan o.scanUse = some l)
include ho hop hs hl

/-- Dispatches that differ across the slice end the operation with FEN_GROUP. -/
theorem scanResult_differs (hsig : (l.any fun w => w.take 9 != (fenDesc o.bytes).signature) = true) :
    m.scanResult i = (m.smallTaken kScan o.scanUse).fenFail o 0x33 0 := by
  have hawaits : ¬(o.op ≠ 0x40 ∨ o.scanned = true) := by simp [hop, hs]
  simp only [Mod.scanResult, ho, if_neg hawaits, hl, if_pos hsig]

/-- Equal signatures and a readable placement table place the choices. -/
theorem scanResult_places {t : Mod} {pl : List Nat} (hsig : (l.any fun w => w.take 9 != (fenDesc o.bytes).signature) = false)
    (hpl : (m.smallTaken kScan o.scanUse).placement o.by_ (fenDesc o.bytes) = (t, some pl)) :
    m.scanResult i =
      (let rank := if l.length = 1 then 0 else t.rankOf o.ident
       ((t.scanPlaced o (fenDesc o.bytes) pl (fun key => (column (l.take rank) (9 + key)).sum)
         fun key => (column l (9 + key)).sum).deliverEarly o).fenEnd o) := by
  have hawaits : ¬(o.op ≠ 0x40 ∨ o.scanned = true) := by simp [hop, hs]
  simp only [Mod.scanResult, ho, if_neg hawaits, hl, hsig, if_neg Bool.false_ne_true, hpl]

end

/-- Settles O28: a descriptor waits or opens by the places that are free, the granted one opens when one is, and the scan's words decide. -/
theorem fennelCommandsComplete : Obligations.FennelCommandsComplete := by
  unfold Obligations.FennelCommandsComplete
  intro s n q e
  refine ⟨fun cmd hcmd hd hen hfull => ?_, fun m pl hroom hnone hc => ⟨fun hd => ?_, fun hd => ?_, fun hd => ?_, fun hd => ?_⟩,
    fun g m pl hg hw hroom hc => ?_, fun i o l ho hop hs hl r hr => ⟨fun hsig => ?_, fun m pl hsig hpl => ?_⟩⟩
  · rw [exec_fennel n q s cmd hcmd, runFennel_waits hd hen hfull]
  · rw [exec_dispatch, runFennel_opens hd hroom hnone hc, opensAs_dispatch pl (running_opcode hd)]
  · rw [exec_combine, runFennel_opens hd hroom hnone hc, opensAs_combine pl (.inl (running_opcode hd))]
  · rw [exec_dispatchBwd, runFennel_opens hd hroom hnone hc, opensAs_dispatchBwd pl (running_opcode hd)]
  · rw [exec_combineBwd, runFennel_opens hd hroom hnone hc, opensAs_combine pl (.inr (running_opcode hd))]
  · rw [exec_fenOpOpen, openFennel_granted hg hw hroom hc, Mod.opensAs]
  · rw [exec_fennelScanResult, onResult_held hr, scanResult_differs ho hop hs hl hsig]
  · rw [exec_fennelScanResult, onResult_held hr, scanResult_places ho hop hs hl hsig hpl]

end Sys2Proof.Machine
end

section
/-! SUPPORT. Accepted writes of the registers that command the engines (update, numeric health, memory, debug, collectives, snapshot): the
word, then what its command bits do. -/

namespace Sys2Proof.Machine

section

variable {m m' : Mod} {a : Agent} {v : Word}

/-! ## What a write says of a field of its own register, and of any other -/

theorem regW_one_own {off : Nat} {f : Field} (h : off = f.off) : (m.regW a off v).one f = decide (f.get v ≠ 0) := by
  rw [regW_one, decide_eq_true h, Bool.true_and]

theorem regW_one_other {off : Nat} {f : Field} (h : off ≠ f.off) : (m.regW a off v).one f = false := by
  rw [regW_one, decide_eq_false h, Bool.false_and]

theorem regW_sets_own {off : Nat} {f : Field} (h : off = f.off) :
    (m.regW a off v).sets f = decide (m.is f = false ∧ f.get v ≠ 0) := by
  rw [regW_sets, decide_eq_true h, Bool.true_and, ← Bool.decide_and]
  simp only [is_false]

theorem regW_sets_other {off : Nat} {f : Field} (h : off ≠ f.off) : (m.regW a off v).sets f = false := by
  rw [regW_sets, decide_eq_false h, Bool.false_and, Bool.false_and]

theorem regW_clears_own {off : Nat} {f : Field} (h : off = f.off) :
    (m.regW a off v).clears f = decide (m.is f = true ∧ f.get v = 0) := by
  rw [regW_clears, decide_eq_true h, Bool.true_and, ← Bool.decide_and]
  simp only [is_true]

theorem regW_block {off b : Nat} (h : off / 0x1000 = b) : (m.regW a off v).off / 0x1000 = b := h

/-! ## One equation for each register -/

/-- `SNAP.CTL` (R474). -/
theorem regApply_snapCtl : m.regApply a SNAP.CTL.o v =
    if SNAP.CTL.TAKE.get v ≠ 0 then (m.withWord a SNAP.CTL.o v).snapTake else m.withWord a SNAP.CTL.o v := by
  rw [regApply_of (by decide), regAct_SNAP (regW_block (by decide))]
  simp (disch := decide) only [regW_one_own, decide_eq_true_eq]

/-- `UPD.STK_CTL` (R199). -/
theorem regApply_stkCtl : m.regApply a UPD.STK_CTL.o v =
    if UPD.STK_CTL.CLEAR.get v ≠ 0 then { m.withWord a UPD.STK_CTL.o v with stalk := [] } else m.withWord a UPD.STK_CTL.o v := by
  rw [regApply_of (by decide), regAct_UPD (regW_block (by decide)), actUPD]
  simp (disch := decide) only [regW_one_own, regW_one_other, decide_eq_true_eq, Bool.false_eq_true, if_false]

/-- `UPD.TW_GO` (R216). -/
theorem regApply_twGo : m.regApply a UPD.TW_GO.o v =
    if UPD.TW_GO.GO.get v ≠ 0 then (m.withWord a UPD.TW_GO.o v).submitWrite else m.withWord a UPD.TW_GO.o v := by
  rw [regApply_of (by decide), regAct_UPD (regW_block (by decide)), actUPD]
  simp (disch := decide) only [regW_one_other, regW_one_own, decide_eq_true_eq, Bool.false_eq_true, if_false]

/-- `HLT.WIN_SEL` (R237). -/
theorem regApply_winSel : m.regApply a HLT.WIN_SEL.o v =
    if HLT.WIN_SEL.GO.get v ≠ 0 then (m.withWord a HLT.WIN_SEL.o v).windowGo else m.withWord a HLT.WIN_SEL.o v := by
  rw [regApply_of (by decide), regAct_HLT (regW_block (by decide))]
  simp (disch := decide) only [regW_one_own, decide_eq_true_eq]

/-- `MEM.WIN_CTL` of a window (R259). -/
theorem regApply_winCtl {w : Nat} (hw : w < 16) : m.regApply a (MEM.WIN_CTL.o w) v =
    if (MEM.WIN_CTL.CLEAR w).get v ≠ 0 then (m.withWord a (MEM.WIN_CTL.o w) v).clearWindow w else m.withWord a (MEM.WIN_CTL.o w) v := by
  have hblock : MEM.WIN_CTL.o w / 0x1000 = 17 := by simp only [MEM.WIN_CTL.o]; omega
  have hlow : 0x100 ≤ MEM.WIN_CTL.o w % 0x1000 := by simp only [MEM.WIN_CTL.o]; omega
  have hhigh : MEM.WIN_CTL.o w % 0x1000 < 0x300 := by simp only [MEM.WIN_CTL.o]; omega
  have hwin : (MEM.WIN_CTL.o w % 0x1000 - 0x100) / 0x20 = w := by simp only [MEM.WIN_CTL.o]; omega
  have hevt : MEM.EVT.o ≠ MEM.WIN_CTL.o w := by simp only [MEM.EVT.o, MEM.WIN_CTL.o]; omega
  have hplain : isEvt (MEM.WIN_CTL.o w) = false := by
    rw [isEvt, hblock]; exact beq_eq_false_iff_ne.2 fun h => hevt (Option.some.inj h)
  rw [regApply_of hplain, regAct_MEM hblock, actMEM_window (w := m.regW a (MEM.WIN_CTL.o w) v) hlow hhigh hwin]
  simp only [regW_one_own (off := MEM.WIN_CTL.o w) (f := MEM.WIN_CTL.CLEAR w) rfl, decide_eq_true_eq]

/-- `MPR.REMAP_REQ_HI` (R274). -/
theorem regApply_remapReqHi : m.regApply a MPR.REMAP_REQ_HI.o v =
    if MPR.REMAP_REQ_HI.GO.get v ≠ 0 then (m.withWord a MPR.REMAP_REQ_HI.o v).remapReq else m.withWord a MPR.REMAP_REQ_HI.o v := by
  rw [regApply_of (by decide), regAct_MPR (regW_block (by decide)), actMPR]
  simp (disch := decide) only [regW_one_other, regW_one_own, decide_eq_true_eq, Bool.false_eq_true, if_false]

/-- `MPR.SCRUB_CTL` (R278, R280). -/
theorem regApply_scrubCtl : m.regApply a MPR.SCRUB_CTL.o v =
    if MPR.SCRUB_CTL.GO.get v ≠ 0 then (m.withWord a MPR.SCRUB_CTL.o v).startScrub
    else if MPR.SCRUB_CTL.ABORT.get v ≠ 0 then (m.withWord a MPR.SCRUB_CTL.o v).endScrub true
    else m.withWord a MPR.SCRUB_CTL.o v := by
  rw [regApply_of (by decide), regAct_MPR (regW_block (by decide)), actMPR]
  simp (disch := decide) only [regW_one_own, regW_one_other, decide_eq_true_eq, Bool.false_eq_true, if_false]

/-- The effect of `COLL_CTL.ENABLE` where it changes (R332). -/
def Mod.collSwitch (m : Mod) (was : Bool) (v : Word) : Mod :=
  if was = false ∧ TOR.COLL_CTL.ENABLE.get v ≠ 0 then m.collEnable
  else if was = true ∧ TOR.COLL_CTL.ENABLE.get v = 0 then m.collDisable
  else m

/-- `TOR.COLL_CTL` (R332, R333). -/
theorem regApply_collCtl : m.regApply a TOR.COLL_CTL.o v =
    if TOR.COLL_CTL.RESUME.get v ≠ 0 then ((m.withWord a TOR.COLL_CTL.o v).collSwitch (m.is TOR.COLL_CTL.ENABLE) v).collResumeGo
    else (m.withWord a TOR.COLL_CTL.o v).collSwitch (m.is TOR.COLL_CTL.ENABLE) v := by
  rw [regApply_of (by decide), regAct_TOR (regW_block (by decide)), actTOR]
  simp (disch := decide) only [regW_off, ne_eq, not_true_eq_false, false_and, if_false, regW_sets_own, regW_clears_own, regW_one_own,
    decide_eq_true_eq, Mod.collSwitch]

theorem collSwitch_on (hv : TOR.COLL_CTL.ENABLE.get v ≠ 0) : m.collSwitch false v = m.collEnable := if_pos ⟨rfl, hv⟩

theorem collSwitch_off (hv : TOR.COLL_CTL.ENABLE.get v = 0) : m.collSwitch true v = m.collDisable := by
  rw [Mod.collSwitch, if_neg fun h => h.2 hv, if_pos ⟨rfl, hv⟩]

/-- A write that leaves `COLL_CTL.ENABLE` as it is neither enables nor disables. -/
theorem collSwitch_kept (hv : TOR.COLL_CTL.ENABLE.get v = m'.f TOR.COLL_CTL.ENABLE) : m.collSwitch (m'.is TOR.COLL_CTL.ENABLE) v = m := by
  rw [Mod.collSwitch, if_neg fun h => h.2 (hv.trans (is_false.1 h.1)), if_neg fun h => is_true.1 h.1 (hv.symm.trans h.2)]

/-- `DBG.ACC_SEL` (R127). -/
theorem regApply_accSel : m.regApply a DBG.ACC_SEL.o v =
    if DBG.ACC_SEL.GO.get v ≠ 0 then { (m.withWord a DBG.ACC_SEL.o v).set DBG.ACC_STAT.DONE 0 with accReq := some v }
    else m.withWord a DBG.ACC_SEL.o v := by
  rw [regApply_of (by decide), regAct_DBG (regW_block (by decide)), actDBG]
  simp (disch := decide) only [regW_one_other, regW_sets_other, regW_one_own, regW_new, decide_eq_true_eq, Bool.false_eq_true, if_false]

/-- `DBG.CTL`: it enters, then leaves (R493). -/
theorem regApply_debugCtl : m.regApply a DBG.CTL.o v =
    if DBG.CTL.LEAVE.get v ≠ 0 then
      (if DBG.CTL.ENTER.get v ≠ 0 then (m.withWord a DBG.CTL.o v).debugEnter else m.withWord a DBG.CTL.o v).debugLeave
    else if DBG.CTL.ENTER.get v ≠ 0 then (m.withWord a DBG.CTL.o v).debugEnter
    else m.withWord a DBG.CTL.o v := by
  rw [regApply_of (by decide), regAct_DBG (regW_block (by decide)), actDBG]
  simp (disch := decide) only [regW_one_own, regW_sets_other, regW_one_other, decide_eq_true_eq, Bool.false_eq_true, if_false]

/-- `DBG.TR_CTL` (R491). -/
theorem regApply_traceCtl : m.regApply a DBG.TR_CTL.o v =
    if m.is DBG.TR_CTL.EN = false ∧ DBG.TR_CTL.EN.get v ≠ 0 then (m.withWord a DBG.TR_CTL.o v).traceStart
    else m.withWord a DBG.TR_CTL.o v := by
  rw [regApply_of (by decide), regAct_DBG (regW_block (by decide)), actDBG]
  simp (disch := decide) only [regW_one_other, regW_sets_own, decide_eq_true_eq, Bool.false_eq_true, if_false]

/-! ## The commands -/

/-- A command that writes register `off` does what the accepted write does. -/
theorem exec_acceptedWrite {c : Instr} {s : State} {off : Nat} (hc : exec c s = runNow (fun m => m.writeFrom a off v) s)
    (h : s.accepts a off v = true) : exec c s = .next (s.now (s.toMod.regApply a off v)) := hc.trans (write_next h)

end

/-- Settles O14: each command is the write of its register, whose equation says what the bit set does. -/
theorem engineRegisterCommandsComplete : Obligations.EngineRegisterCommandsComplete := by
  unfold Obligations.EngineRegisterCommandsComplete
  refine fun s => ⟨fun a v h hv => ?_, fun a v h hv => ?_, fun a v h hv => ?_, fun a v h hv => ?_, fun a w v h hv => ?_,
    fun a v h hv => ?_, fun a v h hv => ?_, fun a v h hgo hv => ?_, fun a v h hwas hv hr => ?_, fun a v h hwas hv hr => ?_,
    fun a v h hsame hr => ?_, fun a v h hv => ?_, fun a v h he hl => ?_, fun a v h he hl => ?_, fun a v h hwas hv => ?_⟩
  · rw [exec_acceptedWrite rfl h, regApply_snapCtl, if_pos hv]
  · rw [exec_acceptedWrite rfl h, regApply_stkCtl, if_pos hv]
  · rw [exec_acceptedWrite rfl h, regApply_twGo, if_pos hv]
  · rw [exec_acceptedWrite rfl h, regApply_winSel, if_pos hv]
  · rw [exec_acceptedWrite rfl h, regApply_winCtl w.isLt, if_pos hv]
  · rw [exec_acceptedWrite rfl h, regApply_remapReqHi, if_pos hv]
  · rw [exec_acceptedWrite rfl h, regApply_scrubCtl, if_pos hv]
  · rw [exec_acceptedWrite rfl h, regApply_scrubCtl, if_neg (not_not_intro hgo), if_pos hv]
  · rw [exec_acceptedWrite rfl h, regApply_collCtl, if_neg (not_not_intro hr), hwas, collSwitch_on hv]
  · rw [exec_acceptedWrite rfl h, regApply_collCtl, if_neg (not_not_intro hr), hwas, collSwitch_off hv]
  · rw [exec_acceptedWrite rfl h, regApply_collCtl, if_pos hr, collSwitch_kept hsame]
  · rw [exec_acceptedWrite rfl h, regApply_accSel, if_pos hv]
  · rw [exec_acceptedWrite rfl h, regApply_debugCtl, if_neg (not_not_intro hl), if_pos he]
  · rw [exec_acceptedWrite rfl h, regApply_debugCtl, if_pos hl, if_neg (not_not_intro he)]
  · rw [exec_acceptedWrite rfl h, regApply_traceCtl, if_pos ⟨hwas, hv⟩]

end Sys2Proof.Machine
end

section
/-! SUPPORT. Packets of the collectives, of Fennel and of the squash adders, where they reach their units: what becomes of each, by the
judgement that the unit gives it. -/

namespace Sys2Proof.Machine

/-! ## Collectives (R329, R330, R333) -/

/-- RS and AG packets are taken by the one engine. -/
theorem exec_ring (port : Fin 8) (p : Pkt) (s : State) :
    ∀ cmd ∈ [(Instr.rs port p, asRow p 3 0), (.ag port p, asRow p 3 1)], ∀ m, s.handsOn port.val cmd.2 m →
      exec cmd.1 s = .next (s.after (m.takeColl port.val cmd.2)) := by
  simp only [List.forall_mem_cons, List.not_mem_nil, false_imp_iff, implies_true, and_true]
  exact ⟨fun _ h => exec_rs h, fun _ h => exec_ag h⟩

section
variable {m : Mod} {p : Pkt} (port : Nat)

/-- The unit that the current phase takes next is applied, and with it every unit that had waited for it. -/
theorem takeColl_due {kind a : Nat} (hj : m.collJudge (m.collPeek m.collCur) p = 0)
    (hph : (m.collPhases (m.collPeek m.collCur))[m.coll.phase]? = some (kind, a)) :
    m.takeColl port p =
      (let t := m.collUnit (m.collPeek m.collCur) kind a port p
       Mod.collDrain t.coll.early.length t) := by
  simp only [Mod.takeColl, hj, hph]

theorem takeColl_early (hj : m.collJudge (m.collPeek m.collCur) p = 1) :
    m.takeColl port p = m.collOf fun c => { c with early := c.early ++ [(port, p)] } := by
  simp only [Mod.takeColl, hj]

theorem takeColl_dropped (hj : m.collJudge (m.collPeek m.collCur) p = 2) : m.takeColl port p = m := by
  simp only [Mod.takeColl, hj]

theorem takeColl_refused (hj : m.collJudge (m.collPeek m.collCur) p = 3) : m.takeColl port p = m.collFail 3 (srcOf p) port := by
  simp only [Mod.takeColl, hj]

end

/-- A contribution to an internal collective that has not come before is kept (R367). -/
theorem takeSmall_new {m : Mod} {p : Pkt} (h : m.coll.smalls.contains (infoOf p % 16, srcOf p, tagOf p, p.payload) = false) :
    m.takeSmall p =
      (m.collOf fun c => { c with smalls := c.smalls ++ [(infoOf p % 16, srcOf p, tagOf p, p.payload)] }).progress 145 :=
  if_neg (by rw [h]; exact Bool.false_ne_true)

theorem takeSmall_again {m : Mod} {p : Pkt} (h : m.coll.smalls.contains (infoOf p % 16, srcOf p, tagOf p, p.payload) = true) :
    m.takeSmall p = m := if_pos h

/-! ## ROW packets (R152, R153) -/

/-- A row that R152 refuses whatever is open: Fennel is off, its header is malformed, or its operation is done. -/
def Mod.rowShutOut (m : Mod) (p : Pkt) : Prop :=
  let h := rowHdr p
  m.is FEN.CFG.ENABLE = false ∨ rowHdrOk h = false ∨
    m.fen.done.contains (m.tagStep (tagOf p), destOf p, rowOp h, rowLayer h, rowMb h) = true

theorem not_rowShutOut {m : Mod} {p : Pkt} (hen : m.is FEN.CFG.ENABLE = true) (hok : rowHdrOk (rowHdr p) = true)
    (hdone : m.fen.done.contains (m.tagStep (tagOf p), destOf p, rowOp (rowHdr p), rowLayer (rowHdr p), rowMb (rowHdr p)) = false) :
    ¬m.rowShutOut p := by
  rw [Mod.rowShutOut, hen, hok, hdone]
  decide

/-- The test with which a packet's receipt begins. -/
theorem rowShutOut_iff {m : Mod} {p : Pkt} :
    ((!m.is FEN.CFG.ENABLE) = true ∨ (!rowHdrOk (rowHdr p)) = true ∨
      m.fen.done.contains (m.tagStep (tagOf p), destOf p, rowOp (rowHdr p), rowLayer (rowHdr p), rowMb (rowHdr p)) = true) ↔
    m.rowShutOut p := by
  simp only [Mod.rowShutOut, Bool.not_eq_true']

section
variable {m : Mod} {p : Pkt} (port : Nat)

theorem takeRow_shutOut (h : m.rowShutOut p) : m.takeRow port p = m.refuseRow p := if_pos (rowShutOut_iff.2 h)

/-- The operation that the packet names has its scan: the packet is checked and written. -/
theorem takeRow_scanned (h : ¬m.rowShutOut p) {o : FenOp} (ho : m.rowTarget p = some o) (hs : o.scanned = true) :
    m.takeRow port p = m.rowFor o p := by
  simp only [Mod.takeRow, if_neg (mt rowShutOut_iff.1 h), ho, if_pos hs]

/-- The operation that the packet names is not open, or its scan has not returned: the packet is held. -/
theorem takeRow_early (h : ¬m.rowShutOut p) (hs : (m.rowTarget p).any FenOp.scanned = false) :
    m.takeRow port p = (m.fenOf fun f => { f with early := f.early ++ [(port, p)] }).count FEN.SN_EARLY_LO.o 1 := by
  cases ho : m.rowTarget p with
  | none => simp only [Mod.takeRow, if_neg (mt rowShutOut_iff.1 h), ho]
  | some o =>
    rw [ho, Option.any_some] at hs
    simp only [Mod.takeRow, if_neg (mt rowShutOut_iff.1 h), ho, hs, if_neg Bool.false_ne_true]

end

/-! ## ADD packets (R253, R256) -/

/-- Bytes of memory that the elements of an ADD packet take. -/
abbrev addSpan (p : Pkt) : Nat := addCount (infoOf p) * elemWidth (addFmt (infoOf p))

/-- The adds of an ADD packet whose first element lies at `a`: element address and addend. -/
abbrev addsFrom (a : Nat) (p : Pkt) : List (Nat × Nat) :=
  ((pieces (addWidth (addFmt (infoOf p))) (addCount (infoOf p)) p.payload).zipIdx).map fun x =>
    (a + x.2 * elemWidth (addFmt (infoOf p)), leNat x.1)

section
variable {m : Mod} {p : Pkt} (port : Nat)

theorem takeAdd_unserved (hs : m.servedAt (destOf p) (8 * addElem (infoOf p)) (addSpan p) = none) :
    m.takeAdd port p = m.refuseAdd p 1 := by
  simp only [Mod.takeAdd, hs]

/-! From here on the window check is made an unknown function and the case a lemma of its own: the kernel would otherwise evaluate the
check, which never ends in a value, to tell the branches of the receipt apart. -/

variable {a : Nat} (hs : m.servedAt (destOf p) (8 * addElem (infoOf p)) (addSpan p) = some a)
include hs

theorem takeAdd_outside {r : Nat} (hw : m.addWindow a (addSpan p) (addFmt (infoOf p)) = .inr r) :
    m.takeAdd port p = m.refuseAdd p r := by
  unfold Mod.takeAdd
  generalize Mod.addWindow = window at hw ⊢
  as_aux_lemma => simp only [hs, hw]

variable {w : Nat} {m₁ m₂ : Mod} (hw : m.addWindow a (addSpan p) (addFmt (infoOf p)) = .inl w)
include hw

theorem takeAdd_applied (hadm : m.addAdmission w (tagOf p) = (m₁, 0))
    (happ : m₁.applyAdds (By.hub (some (tagOf p))) w (addFmt (infoOf p)) (addsFrom a p) = (m₂, true)) :
    m.takeAdd port p = if addLast (infoOf p) then m₂.sendAck p else m₂ := by
  unfold Mod.takeAdd
  generalize Mod.addWindow = window at hw ⊢
  as_aux_lemma => simp only [hs, hw, hadm, happ]

theorem takeAdd_uncorrectable (hadm : m.addAdmission w (tagOf p) = (m₁, 0))
    (happ : m₁.applyAdds (By.hub (some (tagOf p))) w (addFmt (infoOf p)) (addsFrom a p) = (m₂, false)) :
    m.takeAdd port p = m₂.sendRefused p 6 := by
  unfold Mod.takeAdd
  generalize Mod.addWindow = window at hw ⊢
  as_aux_lemma => simp only [hs, hw, hadm, happ]

theorem takeAdd_late (hadm : m.addAdmission w (tagOf p) = (m₁, 1)) :
    m.takeAdd port p = (m₁.lateAdds w (addCount (infoOf p))).sendRefused p 5 := by
  unfold Mod.takeAdd
  generalize Mod.addWindow = window at hw ⊢
  as_aux_lemma => simp only [hs, hw, hadm]

theorem takeAdd_waits (hadm : m.addAdmission w (tagOf p) = (m₁, 2)) :
    m.takeAdd port p = m₁.mside fun x => { x with
      waitAdds := x.waitAdds ++ [⟨w, 0, 0, some (port, p), stackOf a / 4,
        (List.range 8).filter fun i => stackUnits i a (addSpan p) != 0, tagOf p⟩] } := by
  unfold Mod.takeAdd
  generalize Mod.addWindow = window at hw ⊢
  as_aux_lemma => simp only [hs, hw, hadm]

end

/-! ## The statement -/

/-- Settles O38: each packet is taken by its unit, and the unit's judgement of it decides what becomes of it. -/
theorem collectivePacketsComplete : Obligations.CollectivePacketsComplete := by
  unfold Obligations.CollectivePacketsComplete
  refine fun s port p m => ⟨fun cmd hcmd hq => ⟨fun kind a hj hph => ?_, fun hj => ?_, fun hj => ?_, fun hj => ?_⟩,
    fun hq => ⟨fun hnew => ?_, fun hagain => ?_⟩, fun hq hen hok hdone => ⟨fun o ho hs => ?_, fun hs => ?_⟩, fun hq hout => ?_,
    fun r hq => ⟨fun hs => ?_, fun a hs hw => ?_⟩,
    fun a w m₁ m₂ hq hs hw => ⟨fun hadm happ => ?_, fun hadm happ => ?_, fun hadm => ?_, fun hadm => ?_⟩⟩
  · rw [exec_ring port p s cmd hcmd m hq, takeColl_due _ hj hph]
  · rw [exec_ring port p s cmd hcmd m hq, takeColl_early _ hj]
  · rw [exec_ring port p s cmd hcmd m hq, takeColl_dropped _ hj]
  · rw [exec_ring port p s cmd hcmd m hq, takeColl_refused _ hj]
  · rw [exec_small hq, takeSmall_new hnew]
  · rw [exec_small hq, takeSmall_again hagain]
  · rw [exec_row hq, takeRow_scanned _ (not_rowShutOut hen hok hdone) ho hs]
  · rw [exec_row hq, takeRow_early _ (not_rowShutOut hen hok hdone) hs]
  · rw [exec_row hq, takeRow_shutOut _ hout]
  · rw [exec_add hq, takeAdd_unserved _ hs]
  · rw [exec_add hq, takeAdd_outside _ hs hw]
  · rw [exec_add hq, takeAdd_applied _ hs hw hadm happ]
  · rw [exec_add hq, takeAdd_uncorrectable _ hs hw hadm happ]
  · rw [exec_add hq, takeAdd_late _ hs hw hadm]
  · rw [exec_add hq, takeAdd_waits _ hs hw hadm]

end Sys2Proof.Machine
end

section
/-! SUPPORT. Accepted writes of a queue's `Q_CTL` and a context's `CTX_CTL`: the word, then what its command bits do. -/

namespace Sys2Proof.Machine

section

variable {m m' : Mod} {a : Agent} {n q c : Nat} {v : Word}

/-! ## `Q_CTL` (R170, R193) -/

/-- The effect of `Q_CTL.ENABLE` where it changes (R193). -/
def Mod.queueSwitch (m : Mod) (n q : Nat) (was : Bool) (v : Word) : Mod :=
  if was = false ∧ (CORE.Q_CTL.ENABLE n q).get v ≠ 0 then m.enableQueue n q
  else if was = true ∧ (CORE.Q_CTL.ENABLE n q).get v = 0 then m.disableQueue n q
  else m

theorem queueSwitch_on (hv : (CORE.Q_CTL.ENABLE n q).get v ≠ 0) : m.queueSwitch n q false v = m.enableQueue n q := if_pos ⟨rfl, hv⟩

theorem queueSwitch_off (hv : (CORE.Q_CTL.ENABLE n q).get v = 0) : m.queueSwitch n q true v = m.disableQueue n q := by
  rw [Mod.queueSwitch, if_neg fun h => h.2 hv, if_pos ⟨rfl, hv⟩]

/-- A write that leaves `Q_CTL.ENABLE` as it is neither enables nor disables. -/
theorem queueSwitch_kept (hv : (CORE.Q_CTL.ENABLE n q).get v = m'.f (CORE.Q_CTL.ENABLE n q)) :
    m.queueSwitch n q (m'.is (CORE.Q_CTL.ENABLE n q)) v = m := by
  rw [Mod.queueSwitch, if_neg fun h => h.2 (hv.trans (is_false.1 h.1)), if_neg fun h => is_true.1 h.1 (hv.symm.trans h.2)]

/-- `Q_CTL`: a changed `ENABLE` switches the queue, then `RESUME` lets it go on. -/
theorem regApply_queueCtl (hn : n < 128) (hq : q < 4) : m.regApply a (CORE.Q_CTL.o n q) v =
    if (CORE.Q_CTL.RESUME n q).get v ≠ 0 then
      ((m.withWord a (CORE.Q_CTL.o n q) v).queueSwitch n q (m.is (CORE.Q_CTL.ENABLE n q)) v).resumeQueue n q
    else (m.withWord a (CORE.Q_CTL.o n q) v).queueSwitch n q (m.is (CORE.Q_CTL.ENABLE n q)) v := by
  have hblock : CORE.Q_CTL.o n q / 0x1000 = 256 + n := by simp only [CORE.Q_CTL.o]; omega
  have hlow : 0x100 ≤ CORE.Q_CTL.o n q % 0x1000 := by simp only [CORE.Q_CTL.o]; omega
  have hhigh : CORE.Q_CTL.o n q % 0x1000 < 0x200 := by simp only [CORE.Q_CTL.o]; omega
  have hqueue : (CORE.Q_CTL.o n q % 0x1000 - 0x100) / 0x40 = q := by simp only [CORE.Q_CTL.o]; omega
  have hplain : isEvt (CORE.Q_CTL.o n q) = false := by
    rw [isEvt_core hblock hn]; simp only [CORE.Q_CTL.o, CORE.EVT.o, decide_eq_false_iff_not]; omega
  rw [regApply_of hplain, regAct_core hblock, actCORE_queue (w := m.regW a (CORE.Q_CTL.o n q) v) hlow hhigh hqueue]
  simp only [regW_off, if_neg (tail_ctl n q).symm, regW_sets_own (off := CORE.Q_CTL.o n q) (f := CORE.Q_CTL.ENABLE n q) rfl,
    regW_clears_own (off := CORE.Q_CTL.o n q) (f := CORE.Q_CTL.ENABLE n q) rfl,
    regW_one_own (off := CORE.Q_CTL.o n q) (f := CORE.Q_CTL.RESUME n q) rfl, decide_eq_true_eq, Mod.queueSwitch]

/-! ## `CTX_CTL` (R175, R177) -/

/-- `CTX_CTL`: `OPEN` opens the context; `TEARDOWN` without it tears the context down. -/
theorem regApply_contextCtl (hn : n < 128) (hc : c < 16) : m.regApply a (CORE.CTX_CTL.o n c) v =
    if (CORE.CTX_CTL.OPEN n c).get v ≠ 0 then (m.withWord a (CORE.CTX_CTL.o n c) v).set (CORE.CTX_STAT.STATE n c) 1
    else if (CORE.CTX_CTL.TEARDOWN n c).get v ≠ 0 then (m.withWord a (CORE.CTX_CTL.o n c) v).teardownCtx n c
    else m.withWord a (CORE.CTX_CTL.o n c) v := by
  have hblock : CORE.CTX_CTL.o n c / 0x1000 = 256 + n := by simp only [CORE.CTX_CTL.o]; omega
  have hlow : 0x300 ≤ CORE.CTX_CTL.o n c % 0x1000 := by simp only [CORE.CTX_CTL.o]; omega
  have hhigh : CORE.CTX_CTL.o n c % 0x1000 < 0x400 := by simp only [CORE.CTX_CTL.o]; omega
  have hctx : (CORE.CTX_CTL.o n c % 0x1000 - 0x300) / 0x10 = c := by simp only [CORE.CTX_CTL.o]; omega
  have hplain : isEvt (CORE.CTX_CTL.o n c) = false := by
    rw [isEvt_core hblock hn]; simp only [CORE.CTX_CTL.o, CORE.EVT.o, decide_eq_false_iff_not]; omega
  rw [regApply_of hplain, regAct_core hblock, actCORE_ctx (w := m.regW a (CORE.CTX_CTL.o n c) v) hlow hhigh hctx]
  simp only [regW_one_own (off := CORE.CTX_CTL.o n c) (f := CORE.CTX_CTL.OPEN n c) rfl,
    regW_one_own (off := CORE.CTX_CTL.o n c) (f := CORE.CTX_CTL.TEARDOWN n c) rfl, decide_eq_true_eq]

end

/-- Settles O13: each command is the write of its register, whose equation says what each command bit does alone. -/
theorem queueRegisterCommandsComplete : Obligations.QueueRegisterCommandsComplete := by
  unfold Obligations.QueueRegisterCommandsComplete
  refine fun s => ⟨fun a n q v h => ?_, fun a n q v h hwas hv hr => ?_, fun a n q v h hwas hv hr => ?_, fun a n q v h hsame hr => ?_,
    fun a n c v h hv => ?_, fun a n c v h ho hv => ?_⟩
  · rw [exec_acceptedWrite rfl h, regApply_tail n.isLt q.isLt]
  · rw [exec_acceptedWrite rfl h, regApply_queueCtl n.isLt q.isLt, if_neg (not_not_intro hr), hwas, queueSwitch_on hv]
  · rw [exec_acceptedWrite rfl h, regApply_queueCtl n.isLt q.isLt, if_neg (not_not_intro hr), hwas, queueSwitch_off hv]
  · rw [exec_acceptedWrite rfl h, regApply_queueCtl n.isLt q.isLt, if_pos hr, queueSwitch_kept hsame]
  · rw [exec_acceptedWrite rfl h, regApply_contextCtl n.isLt c.isLt, if_pos hv]
  · rw [exec_acceptedWrite rfl h, regApply_contextCtl n.isLt c.isLt, if_neg (not_not_intro ho), if_pos hv]

end Sys2Proof.Machine
end

section
/-! SUPPORT. The pace of a queue (R166–R170, R175): how its next descriptor starts, and how the oldest that may complete does. -/

namespace Sys2Proof.Machine

theorem exec_descriptorStart (n : Fin 128) (q : Fin 4) (s : State) :
    exec (.descriptorStart n q) s = .next (s.after (s.toMod.startDesc n.val q.val)) := rfl

theorem exec_descriptorComplete (n : Fin 128) (q : Fin 4) (s : State) :
    exec (.descriptorComplete n q) s = .next (s.after (s.toMod.completeDesc n.val q.val)) := rfl

/-! ## Start (R166, R169, R175) -/

/-- A descriptor as it starts, with the tag and the `CTX_STAT.INSTANCE` of its context that it then has (R174, R175). -/
abbrev Mod.begun (m : Mod) (n q : Nat) (d : Desc) : Desc :=
  { d with tag := m.descTag n q d, inst := m.f (CORE.CTX_STAT.INSTANCE n (hCtx d.bytes)), phase := 1 }

/-- A descriptor of another engine, or one that keeps R171, is no control descriptor that breaks it. -/
theorem not_badField {bs : List Byte} (h : engineOf (hOpcode bs) ≠ 0 ∨ controlOk bs = true) :
    ¬(engineOf (hOpcode bs) = 0 ∧ (!controlOk bs) = true) := by
  rintro ⟨hcontrol, hbad⟩
  rcases h with hengine | hok
  · exact hengine hcontrol
  · rw [hok] at hbad; cases hbad

section
variable {m : Mod} {n q : Nat} {d : Desc} (hd : m.nextStart n q = some d)
include hd

theorem startDesc_badField (he : engineOf (hOpcode d.bytes) = 0) (hok : controlOk d.bytes = false) :
    m.startDesc n q = (m.mapDesc n q d.num fun _ => m.begun n q d).endDesc n q (m.begun n q d) sQ_FIELD := by
  have hbad : engineOf (hOpcode d.bytes) = 0 ∧ (!controlOk d.bytes) = true := ⟨he, by rw [hok]; rfl⟩
  simp only [Mod.startDesc, hd, if_pos hbad]

variable (hgood : engineOf (hOpcode d.bytes) ≠ 0 ∨ controlOk d.bytes = true)
include hgood

theorem startDesc_closed (hc : m.f (CORE.CTX_STAT.STATE n (hCtx d.bytes)) ≠ 1) :
    m.startDesc n q = (m.mapDesc n q d.num fun _ => m.begun n q d).endDesc n q (m.begun n q d) sCTX_CLOSED := by
  simp only [Mod.startDesc, hd, if_neg (not_badField hgood)]
  exact if_pos hc

theorem startDesc_open (hc : m.f (CORE.CTX_STAT.STATE n (hCtx d.bytes)) = 1) :
    m.startDesc n q = (m.mapDesc n q d.num fun _ => m.begun n q d).traceRec n q 1 (hTag d.bytes) (m.begun n q d).tag
      (leBytes 4 d.num ++ leBytes 1 (hOpcode d.bytes) ++ leBytes 1 (hCtx d.bytes)) := by
  simp only [Mod.startDesc, hd, if_neg (not_badField hgood)]
  exact if_neg (not_not_intro hc)

end

/-! ## Completion (R167) -/

/-- A descriptor of the present numbering whose work has ended completes; one whose header was refused (phase 3) once the halt is over. -/
theorem completeDesc_ended {m : Mod} {n q : Nat} {idle rest : List Desc} {d : Desc} (hl : m.completing n q = (idle, d :: rest))
    (hend : d.ended = true) (hgo : d.phase ≠ 3 ∨ m.halted n q = false) (hnum : d.num < 2 ^ 32) :
    m.completeDesc n q = m.completes n q d (idle ++ rest) := by
  have hfree : (!d.ended || (d.phase == 3 && m.halted n q)) = false := by
    rcases hgo with h | h <;> simp [hend, h]
  simp only [Mod.completeDesc, hl, hfree, if_neg Bool.false_ne_true, if_neg (Nat.not_le.2 hnum)]

/-- Settles O23: the descriptor that starts next by its fields and its context; the oldest that may complete by its work's end. -/
theorem queueCommandsComplete : Obligations.QueueCommandsComplete := by
  unfold Obligations.QueueCommandsComplete
  refine fun s n q => ⟨fun d hd => ⟨fun he hok => ?_, fun hgood hc => ?_, fun hgood hc => ?_⟩, fun idle d rest hl hend hgo hnum => ?_⟩
  · rw [exec_descriptorStart, startDesc_badField hd he hok]
  · rw [exec_descriptorStart, startDesc_closed hd hgood hc]
  · rw [exec_descriptorStart, startDesc_open hd hgood hc]
  · rw [exec_descriptorComplete, completeDesc_ended hl hend hgo hnum]

end Sys2Proof.Machine
end

section
/-! SUPPORT. Control descriptors (R171–R174): each where it runs, or where what it waits for has come. -/

namespace Sys2Proof.Machine

theorem exec_nop (n : Fin 128) (q : Fin 4) (s : State) : exec (.nop n q) s = .next (s.after (s.toMod.runNop n.val q.val)) := rfl

theorem exec_sync (n : Fin 128) (q : Fin 4) (s : State) : exec (.sync n q) s = .next (s.after (s.toMod.runSync n.val q.val)) := rfl

theorem exec_syncPoll (n : Fin 128) (q : Fin 4) (s : State) :
    exec (.syncPoll n q) s = .next (s.after (s.toMod.runSyncPoll n.val q.val)) := rfl

theorem exec_enqueue (n : Fin 128) (q : Fin 4) (s : State) :
    exec (.enqueue n q) s = .next (s.after (s.toMod.runEnqueue n.val q.val)) := rfl

theorem exec_enqueueSpace (n : Fin 128) (q : Fin 4) (s : State) :
    exec (.enqueueSpace n q) s = .next (s.after (s.toMod.runEnqueueSpace n.val q.val)) := rfl

theorem exec_stepMark (n : Fin 128) (q : Fin 4) (s : State) :
    exec (.stepMark n q) s = .next (s.after (s.toMod.stepMark n.val q.val)) := rfl

section
variable {m : Mod} {n q : Nat} {d : Desc}

/-! ## NOP and SYNC (R171, R172) -/

theorem runNop_running (hd : m.running n q 0x00 = some d) : m.runNop n q = m.endDesc n q d sOK := by
  simp only [Mod.runNop, hd]

theorem runSync_polls (hd : m.running n q 0x01 = some d) (ha : m.syncAddrOk (dfield d.bytes 8 6) = true) :
    m.runSync n q = m.pollSync n q d := by
  simp only [Mod.runSync, hd, ha, Bool.not_true, if_neg Bool.false_ne_true]

theorem runSync_outside (hd : m.running n q 0x01 = some d) (ha : m.syncAddrOk (dfield d.bytes 8 6) = false) :
    m.runSync n q = m.endDesc n q d sQ_RANGE := by
  simp only [Mod.runSync, hd, ha, Bool.not_false, if_true]

theorem runSyncPoll_waiting (hd : m.waiter n q 4 = some d) : m.runSyncPoll n q = m.pollSync n q d := by
  simp only [Mod.runSyncPoll, hd]

/-- SYNC ends once its word has reached the value that it waits for, counted modulo `2 ^ 32`. -/
theorem pollSync_reached {t : Mod} {w : Nat} (hs : d.stopped = false) (hw : m.loadNat (By.core n d.tag) (dfield d.bytes 8 6) 4 = (t, some w))
    (hreach : (w + 2 ^ 32 - dfield d.bytes 16 4) % 2 ^ 32 < 2 ^ 31) : m.pollSync n q d = t.endDesc n q d sOK := by
  simp only [Mod.pollSync, hs, if_neg Bool.false_ne_true, hw, if_pos hreach]

/-! ## ENQUEUE (R173) -/

theorem runEnqueueSpace_waiting (hd : m.waiter n q 3 = some d) : m.runEnqueueSpace n q = m.tryEnqueue n q d := by
  simp only [Mod.runEnqueueSpace, hd]

section
variable {src units tq : Nat} (hs : dfield d.bytes 8 6 = src) (hu : dbits d.bytes 16 17 0 = units) (ht : dbits d.bytes 16 19 18 = tq)
include hs hu ht

/-- An ENQUEUE whose image lies in WORK or in its core's store, and whose target is a feeding ring that can hold it, asks for room; into its
own ring only where it stands last. -/
theorem runEnqueue_asks (hd : m.running n q 0x02 = some d) (hsrc : m.inWork src (64 * units) = true ∨ inStore n src (64 * units) = true)
    (hfeed : m.is (CORE.Q_CTL.FEED n tq) = true)
    (hself : tq ≠ q ∨ (d.off + d.units) % max (m.ringSize n q) 1 = m.f (CORE.Q_TAIL.OFFSET n q))
    (hsize : units + 1 + (if tq = q then d.units else 0) ≤ m.ringSize n tq) : m.runEnqueue n q = m.tryEnqueue n q d := by
  have hread : (m.inWork src (64 * units) || inStore n src (64 * units)) = true := by rwa [Bool.or_eq_true]
  have hlast : (tq == q && !((d.off + d.units) % max (m.ringSize n q) 1 == m.f (CORE.Q_TAIL.OFFSET n q))) = false := by
    rcases hself with h | h <;> simp [h]
  simp only [Mod.runEnqueue, hd, hs, hu, ht, hread, hfeed, hlast, decide_eq_false (Nat.not_lt.2 hsize), Bool.not_true, Bool.or_false,
    if_neg Bool.false_ne_true]

/-- With room in the ring and its arbiter's grant the image is copied to the target's tail, and the target takes it. -/
theorem tryEnqueue_copies {m₁ m₂ : Mod} {bs : List Byte} (hstop : d.stopped = false) (hroom : units ≤ m.ringFree n tq)
    (hg : m.grant (1024 + 4 * n + tq) (m.roomRequests n tq q) q = some q)
    (hload : (m.granted (1024 + 4 * n + tq) (m.roomRequests n tq q) q).load (By.core n d.tag) src (64 * units) = (m₁, some bs))
    (hput : m₁.unitStores (By.core n d.tag)
      (ringPieces (m₁.ringBase n tq) (m₁.ringSize n tq) (m₁.f (CORE.Q_TAIL.OFFSET n tq)) bs) = (m₂, true)) :
    m.tryEnqueue n q d =
      ((m₂.set (CORE.Q_TAIL.OFFSET n tq) ((m₁.f (CORE.Q_TAIL.OFFSET n tq) + units) % m₁.ringSize n tq)).endDesc n q d sOK).take n tq := by
  have hgo : ¬(m.ringFree n tq < units ∨ m.grant (1024 + 4 * n + tq) (m.roomRequests n tq q) q ≠ some q) :=
    not_or.2 ⟨Nat.not_lt.2 hroom, not_not_intro hg⟩
  simp only [Mod.tryEnqueue, hstop, if_neg Bool.false_ne_true, hs, hu, ht, if_neg hgo, hload, hput]

end

/-! ## STEP_MARK (R174) -/

/-- Once every earlier descriptor has started, the queue's later transfers carry the next step's tag, and that step opens. -/
theorem runStepMark_opens (hd : m.running n q 0x03 = some d) (hb : (earlier (m.queue n q).taken d).any (·.phase == 0) = false) :
    m.runStepMark n q =
      (let k := m.tagStep (m.f (CORE.Q_STAT.GEN n q)) + 1
       ((m.set (CORE.Q_STAT.GEN n q) (m.tagFor k)).endDesc n q d sOK).openStep k) := by
  simp only [Mod.runStepMark, hd, hb, if_neg Bool.false_ne_true]

end

/-- Settles O24: each descriptor where it runs by its own checks; a waiting one by the word read, or by the room and the grant. -/
theorem controlDescriptorsComplete : Obligations.ControlDescriptorsComplete := by
  unfold Obligations.ControlDescriptorsComplete
  refine fun s n q d => ⟨fun hd => ?_, fun hd ha => ?_, fun hd ha => ?_, fun hd hs m w hw hreach => ?_,
    fun hd hsrc hfeed hself hsize => ?_, fun hd => ?_, fun m bs t hd hs hroom hg hload hput => ?_, fun hd hb => ?_⟩
  · rw [exec_nop, runNop_running hd]
  · rw [exec_sync, runSync_polls hd ha]
  · rw [exec_sync, runSync_outside hd ha]
  · rw [exec_syncPoll, runSyncPoll_waiting hd, pollSync_reached hs hw hreach]
  · rw [exec_enqueue, runEnqueue_asks rfl rfl rfl hd hsrc hfeed hself hsize]
  · rw [exec_enqueueSpace, runEnqueueSpace_waiting hd]
  · rw [exec_enqueueSpace, runEnqueueSpace_waiting hd, tryEnqueue_copies rfl rfl rfl hs hroom hg hload hput]
  · rw [exec_stepMark, Mod.stepMark, runStepMark_opens hd hb]

end Sys2Proof.Machine
end

section
/-! SUPPORT. Contexts and replies (R176, R177): a context whose teardown is done closes, and a reply finds its requests or comes too late. -/

namespace Sys2Proof.Machine

theorem exec_ctxDone (n : Fin 128) (c : Fin 16) (s : State) :
    exec (.ctxDone n c) s = .next (s.after (s.toMod.closeContext n.val c.val)) := rfl

theorem exec_requestReply (n : Fin 128) (c : Fin 16) (inst : Byte) (gen : BitVec 16) (count : Nat) (s : State) :
    exec (.requestReply n c inst gen count) s =
      .next (s.after (s.toMod.requestReply n.val c.val inst.toNat gen.toNat count)) := rfl

section
variable {m : Mod} {n c : Nat}

theorem closeContext_drained (hst : m.ctxState n c = 2) (hout : m.f (CORE.CTX_OUT.COUNT n c) = 0)
    (hbusy : ([0, 1, 2, 3].any fun q => (m.queue n q).taken.any fun d =>
      hCtx d.bytes == c && (d.phase == 1 || (d.phase == 2 && d.status != sCTX_CLOSED && d.status != sQ_FIELD))) = false) :
    m.closeContext n c =
      (m.sets [(CORE.CTX_STAT.STATE n c, 0), (CORE.CTX_STAT.INSTANCE n c, m.f (CORE.CTX_STAT.INSTANCE n c) + 1)]).raiseCORE n 3
        [(CORE.EVT_INFO.CTX n, c)] := by
  rw [Mod.closeContext, hbusy, if_pos ⟨hst, hout, rfl⟩]

variable {inst gen : Nat} {waiting : List Req} (hr : (m.reqs.filter fun r => r.core == n && r.ctx == c && r.tag == gen && !r.dead) = waiting)
  (count : Nat)
include hr

theorem requestReply_answers (hi : inst = m.f (CORE.CTX_STAT.INSTANCE n c)) (hw : waiting ≠ []) :
    m.requestReply n c inst gen count = (waiting.take count).foldl (fun t r => t.answer r (· == r)) m := by
  subst hr
  exact if_neg (not_or.2 ⟨not_not_intro hi, hw⟩)

theorem requestReply_late (h : inst ≠ m.f (CORE.CTX_STAT.INSTANCE n c) ∨ waiting = []) :
    m.requestReply n c inst gen count = m.count (CORE.SN_LATE_LO.o n) 1 := by
  subst hr
  exact if_pos h

end

/-- Settles O27: the context closes when nothing of it is outstanding or running; a reply answers what waits for it, else it is counted. -/
theorem contextCommandsComplete : Obligations.ContextCommandsComplete := by
  unfold Obligations.ContextCommandsComplete
  refine fun s n c => ⟨fun hst hout hbusy => ?_, fun inst gen count => ⟨fun hi hw => ?_, fun h => ?_⟩⟩
  · rw [exec_ctxDone, closeContext_drained hst hout hbusy]
  · rw [exec_requestReply, requestReply_answers rfl count hi hw]
  · rw [exec_requestReply, requestReply_late rfl count h]

end Sys2Proof.Machine
end

section
/-! SUPPORT. Frames of a NOP and of a CAPS packet (R171, R288): a NOP changes its own queue alone, a CAPS packet its own port alone. -/

namespace Sys2Proof.Machine

/-! ## One queue, one port -/

/-- Every queue but the one that is set is as before. -/
theorem queue_setQueue_other (m : Mod) {n n' : Fin 128} {q q' : Fin 4} (h : (n', q') ≠ (n, q)) (x : Queue) :
    (m.setQueue n.val q.val x).queue n'.val q'.val = m.queue n'.val q'.val := by
  refine tget_tset_other _ x fun hkey => h ?_
  have hcore : n' = n := Fin.ext (by omega)
  have hqueue : q' = q := Fin.ext (by omega)
  rw [hcore, hqueue]

/-- The end of a descriptor that no teardown stopped changes its queue alone. -/
theorem endDesc_unstopped {d : Desc} (hs : d.stopped = false) (m : Mod) (n q status : Nat) : ∃ x, m.endDesc n q d status = m.setQueue n q x := by
  rw [Mod.endDesc, hs, if_neg Bool.false_ne_true]
  exact ⟨_, rfl⟩

/-- What no change of port `p` touches, a CAPS packet of port `p` keeps (R288, R289). -/
theorem takeCaps_keeps {γ : Type} (g : Mod → γ) {m : Mod} {p : Nat} (h : ∀ x, g (m.setPort p x) = g m) (fibre : Nat) (b : List Byte) :
    g (m.takeCaps p fibre b) = g m := by
  unfold Mod.takeCaps
  dsimp only
  split
  · rfl
  · split
    · split
      · exact h _
      · rfl
    · split
      · exact h _
      · rfl

/-- Whether anything is left to be done does not rest on what the ports hold. -/
theorem setPort_still (m : Mod) (p : Nat) (x : Port) : (m.setPort p x).still = m.still := rfl

theorem exec_caps (p : Fin 8) (fibre : Fin 4) (b : List Byte) (s : State) :
    exec (.caps p fibre b) s = .next (s.after (s.toMod.takeCaps p.val fibre.val b)) := rfl

/-- A still module asks for no window read. -/
theorem still_winDue {m : Mod} (h : m.still = true) : m.health.winDue = false := by
  simp only [Mod.still, Bool.and_eq_true, Bool.not_eq_true'] at h
  obtain ⟨⟨-, hwin⟩, -⟩ := h
  exact hwin

/-- Settles O60: neither command has consequences, so what it leaves is the one queue or the one port that it sets. -/
theorem otherPartsUnchanged : Obligations.OtherPartsUnchanged := by
  unfold Obligations.OtherPartsUnchanged
  refine fun s => ⟨fun n q d t hd hs hstill hexec => ?_, fun p fibre b t hstill hexec => ?_⟩
  · obtain ⟨x, hx⟩ := endDesc_unstopped hs s.toMod n.val q.val sOK
    rw [hx] at hstill
    have hwin : s.health.winDue = false := by rw [← Mod.setQueue_health s.toMod n.val q.val x]; exact still_winDue hstill
    rw [exec_nop, runNop_running hd, hx, after_still hstill hwin] at hexec
    rw [← Host.Outcome.next.inj hexec]
    exact ⟨rfl, rfl, rfl, rfl, rfl, fun n' q' hne => queue_setQueue_other s.toMod hne x⟩
  · have hcalm : (s.toMod.takeCaps p.val fibre.val b).still = true :=
      (takeCaps_keeps (·.still) (setPort_still s.toMod p.val) fibre.val b).trans hstill
    rw [exec_caps, after_still hcalm (still_winDue hstill)] at hexec
    rw [← Host.Outcome.next.inj hexec]
    exact ⟨takeCaps_keeps (·.mem) (fun _ => rfl) fibre.val b, takeCaps_keeps (·.regs) (fun _ => rfl) fibre.val b,
      takeCaps_keeps (·.queues) (fun _ => rfl) fibre.val b, rfl,
      fun p' hne => takeCaps_keeps (·.port p'.val) (fun x => tget_tset_other _ x fun hp => hne (Fin.ext hp)) fibre.val b⟩

end Sys2Proof.Machine
end

section
/-! SUPPORT. Packets between the modules of a pair, where they reach the duplex logic: what becomes of each where its checks pass (R216,
R347–R350, R360, R370, R380, R384). -/

namespace Sys2Proof.Machine

/-! ## PAIR (R347, R386) -/

section
variable {m : Mod} {port : Nat} {p : Pkt} (hen : m.is DUP.CFG.ENABLE = true) (hport : port = m.pport)
include hen hport

/-- The partner port of a module whose duplex logic is enabled takes PAIR packets. -/
theorem pair_due : ¬((!m.is DUP.CFG.ENABLE) = true ∨ port ≠ m.pport) := by simp [hen, hport]

/-- A PAIR packet that names no reason for a refusal pairs the modules. -/
theorem takePair_accepted (hr : m.pairReason p = 0) :
    m.takePair port p =
      (let peer := payNat p 0 2 % 8192
       let r := payNat p 6 1 % 8
       let fill := (m.role == 2 && r == 0) || (r == 2 && m.role == 0)
       let fresh := m.dup.paired = false
       let t := m.dupOf fun d => { d with
         paired := true, peerRole := r, peerId := peer, cmpFrom := if fill = true ∧ fresh then some (2 ^ 48) else d.cmpFrom }
       let t := if fresh ∧ r = 2 ∧ t.role ≠ 1 then t.stepsOf fun x => { x with oldest := checkedIn (payNat p 12 6) } else t
       let t := if t.dup.swapping = true ∧ fresh ∧ t.dup.rm = 0 ∧ t.dup.swapAt.isNone = true ∧ r ≠ 2 then t.startFill 1 else t
       let t := if t.role = 0 ∧ r = 2 then t.dupOf fun d => { d with swapping := true } else t
       let t := (t.raiseDUP 1 peer 0 0).progress 151
       if fresh ∧ m.dup.pairSent = true ∧ (m.dup.pairBad = true ∨ r = 2) then t.sendPair else t) := by
  rw [Mod.takePair, if_neg (pair_due hen hport)]
  simp only [hr, Bool.not_eq_true', Bool.and_eq_true, Bool.or_eq_true, beq_iff_eq, and_assoc]

/-- Any other leaves them unpaired, and says why. -/
theorem takePair_refused (hr : m.pairReason p ≠ 0) :
    m.takePair port p = (m.dupOf fun d => { d with paired := false, pairBad := true }).raiseDUP 2 (payNat p 0 2 % 8192) (m.pairReason p) 0 := by
  rw [Mod.takePair, if_neg (pair_due hen hport)]
  cases h : m.pairReason p with
  | zero => exact absurd h hr
  | succ n => rfl

end

section
variable {m : Mod} {p : Pkt}

/-! ## SHARD and DIGEST (R348–R350) -/

/-- The entry of the program that a SHARD packet names. -/
abbrev Mod.shardEntry (m : Mod) (p : Pkt) : CollE := m.collPeek (infoOf p % 2 ^ 16)

/-- Offset in the entry's shard of the unit that a SHARD packet carries. -/
abbrev shardOff (p : Pkt) : Nat := 256 * (infoOf p / 2 ^ 18)

/-- The bytes of the unit that belong to the shard. -/
abbrev Mod.shardBytes (m : Mod) (p : Pkt) : List Byte := p.payload.take (4 * (m.shardEntry p).chunk - shardOff p)

theorem takeShard_lands (hp : (m.shardEntry p).partner = true) (ho : shardOff p < 4 * (m.shardEntry p).chunk)
    (hw : m.inWork ((m.shardEntry p).pdst + shardOff p) (m.shardBytes p).length = true) :
    m.takeShard p =
      (let e := m.shardEntry p
       let j := infoOf p % 2 ^ 16
       let t := (m.store (By.hub (some (tagOf p))) (e.pdst + shardOff p) (m.shardBytes p)).1
       let got := t.shardUnits (tagOf p) j + 1
       let t := (t.collOf fun c => { c with
         shardGot := (c.shardGot.filter fun x => !(x.1 == tagOf p && x.2.1 == j)) ++ [(tagOf p, j, got)] }).sendDup
           (tagOf p) 4 (1 + 16 * p.seq.toNat) []
       let k := t.tagStep (tagOf p)
       if got = (4 * e.chunk + 255) / 256 ∧ !t.upd.shards.contains (k, j, 1) then
         ({ t with upd := { t.upd with shards := t.upd.shards ++ [(k, j, 1)] } } : Mod).shardReport k
       else t) := by
  refine if_neg ?_
  simp only [hp, hw, Bool.not_true, Bool.false_eq_true, false_or, or_false]
  exact Nat.not_le.2 ho

theorem takeDigest_kept (hen : m.is DUP.CFG.ENABLE = true) (hp : m.dup.paired = true) (hk : m.steps.oldest ≤ payNat p 0 6) :
    m.takeDigest p =
      (let k := payNat p 0 6
       let again := payNat p 40 1 % 2 == 1
       let t := m.dupOf fun x => { x with
         digests := (x.digests.filter fun y => !(y.step == k && y.recheck == again)) ++
           [⟨k, payNat p 6 2, payNat p 8 16, payNat p 24 16, again⟩] }
       if again ∧ !t.dup.recheck ∧ k = t.steps.oldest ∧ t.healthDone k then
         ((t.dupOf fun x => { x with recheck := true, sentDigest := false }).count DUP.SN_RECHECK_LO.o 1).progress 151
       else t.progress 151) :=
  if_neg (by simp [hen, hp, hk])

/-! ## TW and DUP_ACK (R216, R348) -/

theorem takeTw_pending (hp : m.dup.paired = true) :
    m.takeTw p =
      (let w : TableWrite := ⟨payNat p 0 6, payNat p 6 1, payNat p 8 2, payNat p 10 4,
         (List.range 4).map fun i => BitVec.ofNat 32 (payNat p (16 + 4 * i) 4), infoOf p % 65536, true, true⟩
       (m.updOf fun u => { u with writes := (u.writes.filter fun x => !x.same w) ++ [w] }).sendDup (tagOf p) 4
         (3 + 16 * p.seq.toNat) []) :=
  if_neg (by simp [hp])

theorem takeDupAck_shard (hi : infoOf p % 16 = 1) : m.takeDupAck p = m.ackShard := by
  simp only [Mod.takeDupAck, hi]

theorem takeDupAck_podCopy (hi : infoOf p % 16 = 5) : m.takeDupAck p = m.ackHost (infoOf p / 16 % 2 ^ 24) := by
  simp only [Mod.takeDupAck, hi]

/-- The table write that the acknowledged packet carried is acknowledged. -/
theorem takeDupAck_tw {n x : Nat} (hi : infoOf p % 16 = 3) (hn : infoOf p / 16 % 2 ^ 24 = n)
    (ha : m.dup.acks.find? (fun a => a.1 == n) = some (n, x)) :
    m.takeDupAck p =
      (m.dupOf fun d => { d with acks := d.acks.filter (·.1 != n) }).updOf fun u => { u with
        writes := u.writes.map fun w => if w.number = x ∧ !w.mirror then { w with acked := true } else w } := by
  simp only [Mod.takeDupAck, hi, hn, ha]

/-! ## POD_COPY (R360, R361) -/

/-- The host write that a POD_COPY carries. -/
abbrev copiedPod (p : Pkt) : Pkt := { pktOfBytes p.payload with replay := false }

/-- Whether a segment holds the partner's copies for the step of a POD_COPY. -/
abbrev Mod.holdsCopy (m : Mod) (p : Pkt) (x : Segment) : Bool := x.step == m.tagStep (tagOf p) && x.copy

/-- The segment that the first copy for a step opens. -/
abbrev Mod.copySegment (m : Mod) (p : Pkt) : Segment := ⟨m.tagStep (tagOf p), tagOf p, m.dup.peerId, false, true, false, []⟩

/-- The input ring has room for the copy. -/
abbrev Mod.copyFits (m : Mod) (p : Pkt) : Prop :=
  ringUsed m.ledger.input + (podBytes (copiedPod p) + (if m.ledger.input.any (m.holdsCopy p) then 0 else 64)) ≤ m.inRing

section
variable (hl : m.is LDG.CFG.ENABLE = true)
  (hopen : ¬(m.ledger.fullSteps.contains (m.tagStep (tagOf p)) = true ∧ m.ledger.input.any (fun x => m.holdsCopy p x && x.unprot) = true))
include hl hopen

/-- The ledger is enabled, and has not given up the copies of the step (R361). -/
theorem copy_due : ¬((!m.is LDG.CFG.ENABLE) = true ∨ m.ledger.fullSteps.contains (m.tagStep (tagOf p)) = true ∧
    m.ledger.input.any (fun x => m.holdsCopy p x && x.unprot) = true) := by
  rintro (h | h)
  · simp [hl] at h
  · exact hopen h

variable (hp : m.dup.paired = true)
include hp

theorem takePodCopy_recorded (hfit : m.copyFits p) :
    m.takePodCopy p =
      (((m.onInput (addPod (m.holdsCopy p) (m.copySegment p) (copiedPod p))).count LDG.SN_PODS_LO.o 1).count LDG.SN_POD_BYTES_LO.o
        (podBytes (copiedPod p))).sendDup (tagOf p) 4 (5 + 16 * p.seq.toNat) [] := by
  rw [Mod.takePodCopy, if_neg (by simp [hp])]
  dsimp only
  rw [if_neg (copy_due hl hopen), if_pos hfit]

/-- Without room the step is left unprotected, and the copy is acknowledged all the same. -/
theorem takePodCopy_unprotected (hfit : ¬m.copyFits p) :
    m.takePodCopy p =
      (((m.onInput (markUnprot (m.holdsCopy p) (m.copySegment p))).countUnprot m).ledgerFull (m.tagStep (tagOf p))).sendDup (tagOf p) 4
        (5 + 16 * p.seq.toNat) [] := by
  rw [Mod.takePodCopy, if_neg (by simp [hp])]
  dsimp only
  rw [if_neg (copy_due hl hopen), if_neg hfit]

end

/-! ## RM_DATA and RM_REQ (R380, R381, R384) -/

/-- Offset in its region of the bytes that an RM_DATA packet carries. -/
abbrev fillOff (p : Pkt) : Nat := 16 * bits (infoOf p) 35 2

section
variable (hp : m.dup.paired = true) (ho : fillOff p + p.payload.length ≤ m.sizeS)
include hp ho

/-- Bytes from the partner that lie within a region are taken. -/
theorem fill_due : ¬((!m.dup.paired) = true ∨ m.sizeS < fillOff p + p.payload.length) := by simp [hp, ho]

theorem takeRmData_reply (hi : (infoOf p).testBit 1 = true) :
    m.takeRmData p = m.fetchReply (tagOf p) (infoOf p % 2) (fillOff p) p.payload := by
  simp only [Mod.takeRmData, if_neg (fill_due hp ho), if_pos hi]

variable (hi : (infoOf p).testBit 1 = false)
include hi

/-- A mirror fill does not enter a module whose update engine is enabled. -/
theorem takeRmData_dropped (hk : m.fillKind (infoOf p % 2) = 4) (hu : m.is UPD.CFG.ENABLE = true) : m.takeRmData p = m := by
  simp only [Mod.takeRmData, if_neg (fill_due hp ho), hi, if_neg Bool.false_ne_true, if_pos (And.intro hk hu)]

theorem takeRmData_fills {kind : Nat} (hkind : m.fillKind (infoOf p % 2) = kind) (hk : kind ≠ 4 ∨ m.is UPD.CFG.ENABLE = false) {t : Mod}
    (hs : (m.fillStarts kind).store ⟨3, none, 3, 128⟩ ((m.fillStarts kind).fetchBase (infoOf p % 2) + fillOff p) p.payload = (t, true)) :
    m.takeRmData p =
      (let t := t.dupOf fun d => { d with rmGot := joinRange d.rmGot (infoOf p % 2, fillOff p, fillOff p + p.payload.length) }
       let got := gotBytes t.dup.rmGot
       let t := (t.set DUP.RM_STAT.UNITS (got / 4096)).progress 151
       let t := if kind = 3 ∧ infoOf p % 2 = 0 ∧ !t.upd.running ∧ t.steps.six = [] then t.setStepRegs (t.tagStep (tagOf p)) 0 else t
       if got = (if kind = 3 then 2 * t.sizeS else t.sizeS) then t.fillDone kind (t.updatesOf (tagOf p)) else t) := by
  have hfill : ¬(kind = 4 ∧ m.is UPD.CFG.ENABLE = true) := by rintro ⟨h4, hu⟩; simp [h4, hu] at hk
  simp only [Mod.takeRmData, if_neg (fill_due hp ho), hi, if_neg Bool.false_ne_true, hkind, if_neg hfill, hs]

end

theorem takeRmReq_waits (hp : m.dup.paired = true) :
    m.takeRmReq p = m.dupOf fun d => { d with replies := d.replies ++ [(payNat p 0 1 % 2, payNat p 8 6, tagOf p)] } :=
  if_neg (by simp [hp])

/-! ## PROBE and PROBE_REPLY (R370) -/

theorem takeProbe_answered (hen : m.is DUP.CFG.ENABLE = true) (hdead : m.dup.dead = false) (hup : m.down 151 = false) :
    m.takeProbe p = m.sendTo (srcOf p) (tagOf p) clsDUP 9 0 [] :=
  if_neg (by simp [hen, hdead, hup])

/-- The partner that is probed is alive. -/
theorem takeProbeReply_alive {c : Nat} (hc : m.dup.probing = some c) (hsrc : srcOf p = m.dup.peerId) :
    m.takeProbeReply p =
      ((m.dupOf fun d => { d with probing := none }).set DUP.ROLE.DETOUR 1).detourWaiting.raiseDUP 4 m.dup.peerId c m.steps.oldest := by
  rw [Mod.takeProbeReply, hc]
  exact if_neg (not_not.2 hsrc)

end

/-! ## The statement -/

/-- Settles O40: each packet is taken by the duplex logic, and its checks decide what becomes of it. -/
theorem duplexPacketsComplete : Obligations.DuplexPacketsComplete := by
  unfold Obligations.DuplexPacketsComplete
  refine fun s port p m => ⟨fun hq hen hport => ⟨fun hr => ?_, fun hr => ?_⟩, fun hq hp ho hw => ?_, fun hq hen hp hk => ?_, fun hq hp => ?_,
    fun x hq => ⟨fun hi => ?_, fun hi => ?_, fun hi ha => ?_⟩, fun hq hp hl hopen => ⟨fun hfit => ?_, fun hfit => ?_⟩,
    fun hq hp ho => ⟨fun hi => ?_, fun hi hk hu => ?_, fun hi hk t hs => ?_⟩, fun hq hp => ?_, fun hq hen hdead hup => ?_,
    fun c hq hc hsrc => ?_⟩
  · rw [exec_pair hq, takePair_accepted hen hport hr]
  · rw [exec_pair hq, takePair_refused hen hport hr]
  · rw [exec_shard hq, takeShard_lands hp ho hw]
  · rw [exec_digest hq, takeDigest_kept hen hp hk]
  · rw [exec_tw hq, takeTw_pending hp]
  · rw [exec_dupAck hq, takeDupAck_shard hi]
  · rw [exec_dupAck hq, takeDupAck_podCopy hi]
  · rw [exec_dupAck hq, takeDupAck_tw hi rfl ha]
  · rw [exec_podCopy hq, takePodCopy_recorded hl hopen hp hfit]
  · rw [exec_podCopy hq, takePodCopy_unprotected hl hopen hp hfit]
  · rw [exec_rmData hq, takeRmData_reply hp ho hi]
  · rw [exec_rmData hq, takeRmData_dropped hp ho hi hk hu]
  · rw [exec_rmData hq, takeRmData_fills hp ho hi rfl hk hs]
  · rw [exec_rmReq hq, takeRmReq_waits hp]
  · rw [exec_probe hq, takeProbe_answered hen hdead hup]
  · rw [exec_probeReply hq, takeProbeReply_alive hc hsrc]

end Sys2Proof.Machine
end

section
/-! SUPPORT. The places of HBM (R241): a block puts one of its units in each stack, and the place of a unit gives its address back. -/

namespace Sys2Proof.Machine

/-! ## A block of eight stacks (R241) -/

/-- What a block's address contributes to the stacks of its units. -/
def stackMix (a : Nat) : Nat := bits a 20 18 ^^^ bits a 30 28

theorem stackOf_eq (a : Nat) : stackOf a = bits a 10 8 ^^^ stackMix a := Nat.xor_assoc ..

theorem bits_lt (x hi lo : Nat) : bits x hi lo < 2 ^ (hi + 1 - lo) := Nat.mod_lt _ (Nat.two_pow_pos _)

theorem stackMix_lt (a : Nat) : stackMix a < 8 := Nat.xor_lt_two_pow (bits_lt a 20 18) (bits_lt a 30 28)

theorem xor_stackMix_lt {s : Nat} (hs : s < 8) (a : Nat) : s ^^^ stackMix a < 8 := Nat.xor_lt_two_pow (n := 3) hs (stackMix_lt a)

theorem stackOf_lt (a : Nat) : stackOf a < 8 := by
  rw [stackOf_eq]; exact xor_stackMix_lt (bits_lt a 10 8) a

/-- Addresses of one 2 KiB block mix alike. -/
theorem stackMix_congr {a a' : Nat} (h : a / 2048 = a' / 2048) : stackMix a = stackMix a' := by
  have h20 : bits a 20 18 = bits a' 20 18 := by simp only [bits]; omega
  have h30 : bits a 30 28 = bits a' 30 28 := by simp only [bits]; omega
  rw [stackMix, stackMix, h20, h30]

/-- Byte `low` of the 256-byte unit that a block puts in stack `s`. -/
def unitAt (blk s low : Nat) : Nat := blk + 256 * (s ^^^ stackMix blk) + low

section
variable {blk s low : Nat} (hblk : blk % 2048 = 0) (hs : s < 8) (hlow : low < 256)
include hblk hs hlow

theorem unitAt_div : unitAt blk s low / 2048 = blk / 2048 := by
  have hx := xor_stackMix_lt hs blk
  simp only [unitAt]; omega

omit hs in
theorem unitAt_mod : unitAt blk s low % 256 = low := by
  simp only [unitAt]; omega

theorem stackOf_unitAt : stackOf (unitAt blk s low) = s := by
  have hx := xor_stackMix_lt hs blk
  have hbits : bits (unitAt blk s low) 10 8 = s ^^^ stackMix blk := by simp only [bits, unitAt]; omega
  rw [stackOf_eq, hbits, stackMix_congr (unitAt_div hblk hs hlow), Nat.xor_xor_cancel_right]

end

/-- Every address is a byte of the unit that its block puts in its stack. -/
theorem unitAt_stackOf (a : Nat) : unitAt (a / 2048 * 2048) (stackOf a) (a % 256) = a := by
  have hmix : stackMix (a / 2048 * 2048) = stackMix a := stackMix_congr (by omega)
  rw [unitAt, hmix, stackOf_eq, Nat.xor_xor_cancel_right]
  simp only [bits]; omega

/-- Each 2 KiB block puts one of its eight 256-byte units in each stack. -/
theorem existsUnique_unit (b : Nat) (st : Fin 8) : ∃! i : Fin 8, stackOf (2048 * b + 256 * i.val) = st.val := by
  have hstack : ∀ i : Fin 8, stackOf (2048 * b + 256 * i.val) = i.val ^^^ stackMix (2048 * b) := fun i => by
    have hbits : bits (2048 * b + 256 * i.val) 10 8 = i.val := by simp only [bits]; omega
    rw [stackOf_eq, hbits, stackMix_congr (a' := 2048 * b) (by omega)]
  refine ⟨⟨st.val ^^^ stackMix (2048 * b), xor_stackMix_lt st.isLt _⟩, ?_, fun i hi => Fin.ext ?_⟩
  · exact (hstack _).trans (Nat.xor_xor_cancel_right ..)
  · exact (Nat.xor_xor_cancel_right i.val _).symm.trans (congrArg (· ^^^ _) ((hstack i).symm.trans hi))

/-! ## The place of a unit (R241) -/

theorem inStack_eq_bits (a : Nat) : inStack a = bits a 38 11 * 256 + bits a 7 0 := by
  simp only [inStack, bits]; omega

/-- The address within the stack of the unit at a place. -/
def Place.inStack (p : Place) : Nat :=
  p.row * 2 ^ 20 + (p.bank ^^^ p.row / 32 % 16) * 2 ^ 16 + p.column * 2 ^ 13 + (p.channel ^^^ p.row % 32) * 2 ^ 8 + p.quarter * 64

theorem Place.addr_eq_unitAt (p : Place) : p.addr = unitAt (p.inStack / 256 * 2048) p.stack (p.inStack % 256) := by
  have hmix : stackMix (p.inStack / 256 * 2048 + p.inStack % 256) = stackMix (p.inStack / 256 * 2048) := stackMix_congr (by omega)
  have haddr : p.addr = p.inStack / 256 * 2048 + p.inStack % 256 +
      (p.stack ^^^ stackMix (p.inStack / 256 * 2048 + p.inStack % 256)) * 256 := by rw [stackMix, ← Nat.xor_assoc]; rfl
  rw [haddr, hmix, unitAt]; omega

/-- The row undoes what it mixed into bank and channel, so a unit's place gives its address within the stack back. -/
theorem inStack_placeOf {a : Nat} (h64 : a % 64 = 0) : (placeOf a).inStack = inStack a := by
  have hl : inStack a < 2 ^ 36 := by simp only [inStack, bits]; omega
  have hl64 : inStack a % 64 = 0 := by simp only [inStack]; omega
  simp only [placeOf, Place.inStack]
  generalize inStack a = l at hl hl64
  have hbank : bits l 35 20 / 32 % 16 = bits l 28 25 := by simp only [bits]; omega
  have hchannel : bits l 35 20 % 32 = bits l 24 20 := by simp only [bits]; omega
  rw [hbank, hchannel, Nat.xor_xor_cancel_right, Nat.xor_xor_cancel_right]
  simp only [bits]; omega

/-- The place of a 64-byte unit names that unit and no other. -/
theorem addr_placeOf {a : Nat} (ha : a < hbmTop) (h64 : a % 64 = 0) : (placeOf a).addr = a := by
  have hblock : inStack a / 256 = a / 2048 := by
    simp only [hbmTop] at ha
    simp only [inStack, bits]; omega
  have hlow : inStack a % 256 = a % 256 := by simp only [inStack]; omega
  rw [Place.addr_eq_unitAt, inStack_placeOf h64, hblock, hlow]
  exact unitAt_stackOf a

theorem placeOf_ranges (a : Nat) : (placeOf a).stack < 8 ∧ (placeOf a).channel < 32 ∧ (placeOf a).bank < 16 ∧ (placeOf a).row < 65536 ∧
    (placeOf a).column < 8 ∧ (placeOf a).quarter < 4 :=
  ⟨stackOf_lt a, Nat.xor_lt_two_pow (n := 5) (bits_lt _ 12 8) (bits_lt _ 24 20), Nat.xor_lt_two_pow (n := 4) (bits_lt _ 19 16) (bits_lt _ 28 25),
    bits_lt _ 35 20, bits_lt _ 15 13, bits_lt _ 7 6⟩

/-- Settles O49: the formulas are those of `placeOf`, a place is put together again, and a block's mix permutes its eight units. -/
theorem placesAreOneToOne : Obligations.PlacesAreOneToOne := by
  unfold Obligations.PlacesAreOneToOne
  refine ⟨fun a _ => ?_, by decide, fun a ha h64 => ⟨addr_placeOf ha h64, placeOf_ranges a⟩, fun b _ st => existsUnique_unit b st⟩
  rw [← inStack_eq_bits]
  exact ⟨rfl, rfl, rfl, rfl, rfl⟩

end Sys2Proof.Machine
end

section
/-! SUPPORT. The views of a window (R244): a view moves whole 256-byte units within their window, into the stack that it names. -/

namespace Sys2Proof.Machine

/-- The stack that a die-local (1) or stack-local (2) view names for an offset. -/
def viewStack (view w o : Nat) : Nat := if view = 1 then o / (w / 8) else 4 * (o / (w / 2)) + o % (w / 2) / 256 % 4

/-- The block of the window that holds the offset's unit, counted from the window's base. -/
def viewBlock (view w o : Nat) : Nat := if view = 1 then o % (w / 8) / 256 else o % (w / 2) / 256 / 4

/-- A view other than the interleaved one takes the unit that the offset's block puts in the stack the view names. -/
theorem viewAddr_eq_unitAt {view : Nat} (hv : view ≠ 0) (b w o : Nat) :
    viewAddr view b w o = unitAt (b + viewBlock view w o * 2048) (viewStack view w o) (o % 256) := by
  rw [unitAt, stackMix, ← Nat.xor_assoc]
  exact if_neg hv

/-- The offset of byte `low` of the unit in stack `s` of the window's block `u`. -/
def viewOffset (view w s u low : Nat) : Nat :=
  if view = 1 then w / 8 * s + 256 * u + low else w / 2 * (s / 4) + 1024 * u + 256 * (s % 4) + low

theorem viewStack_lt {view w o : Nat} (hw : w % 0x200000 = 0) (ho : o < w) : viewStack view w o < 8 := by
  unfold viewStack
  split
  · exact Nat.div_lt_of_lt_mul (by omega)
  · have hhalf : o / (w / 2) < 2 := Nat.div_lt_of_lt_mul (by omega)
    omega

theorem viewBlock_fits {view w o : Nat} (hw : w % 0x200000 = 0) (ho : o < w) : viewBlock view w o * 2048 + 2048 ≤ w := by
  unfold viewBlock
  split
  · have hrest : o % (w / 8) < w / 8 := Nat.mod_lt _ (by omega)
    omega
  · have hrest : o % (w / 2) < w / 2 := Nat.mod_lt _ (by omega)
    omega

/-- Stack, block and byte of the unit give the offset back. -/
theorem viewOffset_of_offset (view : Nat) {w : Nat} (hw : w % 0x200000 = 0) (o : Nat) :
    viewOffset view w (viewStack view w o) (viewBlock view w o) (o % 256) = o := by
  unfold viewOffset viewStack viewBlock
  split
  · have hdiv := Nat.div_add_mod o (w / 8)
    have hlow : o % (w / 8) % 256 = o % 256 := Nat.mod_mod_of_dvd o (by omega)
    omega
  · have hdiv := Nat.div_add_mod o (w / 2)
    have hlow : o % (w / 2) % 256 = o % 256 := Nat.mod_mod_of_dvd o (by omega)
    have hdie : (4 * (o / (w / 2)) + o % (w / 2) / 256 % 4) / 4 = o / (w / 2) := by omega
    rw [hdie]; omega

section
variable {view b w o : Nat} (hv : view ≠ 0) (hb : b % 0x200000 = 0) (hw : w % 0x200000 = 0) (ho : o < w)
include hv hb hw ho

theorem viewAddr_div : viewAddr view b w o / 2048 = b / 2048 + viewBlock view w o := by
  rw [viewAddr_eq_unitAt hv, unitAt_div (by omega) (viewStack_lt hw ho) (Nat.mod_lt _ (by decide))]
  omega

theorem stackOf_viewAddr : stackOf (viewAddr view b w o) = viewStack view w o := by
  rw [viewAddr_eq_unitAt hv, stackOf_unitAt (by omega) (viewStack_lt hw ho) (Nat.mod_lt _ (by decide))]

end

/-- A view keeps an address's byte within its 256-byte unit. -/
theorem viewAddr_mod (view : Nat) {b : Nat} (hb : b % 0x200000 = 0) (w o : Nat) : viewAddr view b w o % 256 = o % 256 := by
  by_cases hv : view = 0
  · rw [viewAddr, if_pos hv]; omega
  · rw [viewAddr_eq_unitAt hv, unitAt_mod (by omega) (Nat.mod_lt _ (by decide))]

/-- A view stays in its window. -/
theorem viewAddr_mem_window (view : Nat) {b w o : Nat} (hb : b % 0x200000 = 0) (hw : w % 0x200000 = 0) (ho : o < w) :
    b ≤ viewAddr view b w o ∧ viewAddr view b w o < b + w := by
  by_cases hv : view = 0
  · rw [viewAddr, if_pos hv]; omega
  · have hdiv := viewAddr_div hv hb hw ho
    have hfits := viewBlock_fits (view := view) hw ho
    omega

/-- Two offsets that a view sends to one address are one. -/
theorem viewAddr_inj {view b w o o' : Nat} (hb : b % 0x200000 = 0) (hw : w % 0x200000 = 0) (ho : o < w) (ho' : o' < w)
    (h : viewAddr view b w o = viewAddr view b w o') : o = o' := by
  by_cases hv : view = 0
  · rw [viewAddr, viewAddr, if_pos hv, if_pos hv] at h; omega
  · have hstack : viewStack view w o = viewStack view w o' := by
      rw [← stackOf_viewAddr hv hb hw ho, h, stackOf_viewAddr hv hb hw ho']
    have hblock : viewBlock view w o = viewBlock view w o' := by
      have hdiv := viewAddr_div hv hb hw ho
      rw [h, viewAddr_div hv hb hw ho'] at hdiv
      omega
    have hlow : o % 256 = o' % 256 := by rw [← viewAddr_mod view hb w o, h, viewAddr_mod view hb w o']
    rw [← viewOffset_of_offset view hw o, hstack, hblock, hlow, viewOffset_of_offset view hw o']

/-- Settles O50: a view other than the interleaved one puts whole units in the stack it names, and the offset can be read back. -/
theorem viewsPermuteTheirWindow : Obligations.ViewsPermuteTheirWindow := by
  unfold Obligations.ViewsPermuteTheirWindow
  refine fun view b w _ hb hw _ _ => ⟨fun o ho => ?_, fun o o' ho ho' h => viewAddr_inj hb hw ho ho' h,
    fun o ho => ⟨fun hv => ?_, fun hv => ?_⟩⟩
  · obtain ⟨hlo, hhi⟩ := viewAddr_mem_window view hb hw ho
    exact ⟨hlo, hhi, by rw [viewAddr_mod view hb]; omega⟩
  · exact (stackOf_viewAddr (by omega) hb hw ho).trans (if_pos hv)
  · exact (stackOf_viewAddr (by omega) hb hw ho).trans (if_neg (by omega))

end Sys2Proof.Machine
end

section
/-! SUPPORT. The memory sides' events (R239, R256, R271, R275, R278), each where it is due. -/

namespace Sys2Proof.Machine

theorem exec_waitingAddRelease (w : Fin 16) (s : State) :
    exec (.waitingAddRelease w) s = .next (s.after (s.toMod.releaseAdds w.val)) := rfl

theorem exec_hbmRefresh (st : Fin 8) (bank : Nat) (s : State) :
    exec (.hbmRefresh st bank) s = .next (s.after (s.toMod.refreshBank st.val bank)) := rfl

theorem exec_hbmTempRead (st : Fin 8) (temp : Byte) (s : State) :
    exec (.hbmTempRead st temp) s = .next (s.after (s.toMod.readTemp st.val temp.toNat)) := rfl

theorem exec_remapCopyDone (st : Fin 8) (s : State) : exec (.remapCopyDone st) s = .next (s.after (s.toMod.copyDone st.val)) := rfl

theorem exec_scrubSlice (z : Noise) (dropped : Bool) (s : State) :
    exec (.scrubSlice z dropped) s = .next (s.after (s.toMod.runSlice z dropped)) := rfl

theorem exec_blockFetchDone (data : List Byte) (s : State) :
    exec (.blockFetchDone data) s = .next (s.after (s.toMod.fetchDone data)) := rfl

section
variable {m : Mod}

theorem releaseAdds_free {w : Nat} (hfree : m.is (MEM.WIN_STAT.OPEN w) = false) :
    m.releaseAdds w = (m.memside.waitAdds.filter (·.win == w)).foldl Mod.retryAdd
      (m.mside fun x => { x with waitAdds := x.waitAdds.filter (·.win != w) }) :=
  if_neg (by simp [hfree])

theorem refreshBank_inService {st : Nat} (hst : m.inService st = true) (bank : Nat) :
    m.refreshBank st bank = m.mside fun x => { x with
      acts := terase (fun k => k / 512 == st && k % 16 == bank % 16) x.acts
      refreshed := tset (fun _ => 0) x.refreshed (64 * st + bank % 16) (tget (fun _ => 0) x.refreshed (64 * st + bank % 16) + 1) } :=
  if_neg (by simp [hst])

theorem readTemp_inService {st : Nat} (hst : m.inService st = true) (temp : Nat) :
    m.readTemp st temp = m.sets [(MEM.STK_STAT.TEMP st, temp), (MEM.STK_STAT.HOT st, if 85 < temp then 1 else 0)] :=
  if_neg (by simp [hst])

/-- The oldest copy of a stack is of that stack. -/
theorem stack_of_oldestCopy {st : Nat} {j : RemapJob} (hj : m.memside.remaps.find? (·.stack == st) = some j) : j.stack = st := by
  simpa using List.find?_some hj

theorem copyDone_oldest {st : Nat} {j : RemapJob} (hj : m.memside.remaps.find? (·.stack == st) = some j) :
    m.copyDone st = m.slotFilled j := by
  rw [Mod.copyDone, hj]

theorem runSlice_due (z : Noise) (dropped : Bool) (hbusy : m.is MPR.STAT.SCRUB_BUSY = true) (hbudget : m.budget 0 ≠ 0)
    (hrest : m.stacksRest = false) : m.runSlice z dropped = m.sliceRun z dropped :=
  if_neg (by simp [hbusy, hbudget, hrest])

section
variable {f : Fetch} (hf : m.memside.fetches.find? (fun f => f.sent && !f.lost) = some f) {data : List Byte}
include hf

theorem fetchDone_written {t : Mod} (hlen : data.length = 2048)
    (hstore : m.store ⟨3, none, 3, 128⟩ (m.fetchBase f.target + f.off) data = (t, true)) : m.fetchDone data = t.fetchEnds f := by
  simp only [Mod.fetchDone, hf, if_pos hlen, hstore]

/-- A block of another length says that the partner cannot read it (log entry 59). -/
theorem fetchDone_unreadable (hlen : data.length ≠ 2048) : m.fetchDone data = m.loseFetch f := by
  simp only [Mod.fetchDone, hf, if_neg hlen]

end
end

/-- Settles O31: each event finds what it is due for, and does the one thing that is left to do. -/
theorem memoryCommandsComplete : Obligations.MemoryCommandsComplete := by
  unfold Obligations.MemoryCommandsComplete
  refine fun s => ⟨fun w hfree => ?_, fun st bank hst => ?_, fun st temp hst => ?_, fun st j hj => ?_, fun z dropped hbusy hbudget hrest => ?_,
    fun data f hf => ⟨fun t hlen hstore => ?_, fun hlen => ?_⟩⟩
  · rw [exec_waitingAddRelease, releaseAdds_free hfree]
  · rw [exec_hbmRefresh, refreshBank_inService hst]
  · rw [exec_hbmTempRead, readTemp_inService hst]
  · rw [exec_remapCopyDone, copyDone_oldest hj, ← stack_of_oldestCopy hj]
    rfl
  · rw [exec_scrubSlice, runSlice_due z dropped hbusy hbudget hrest]
  · rw [exec_blockFetchDone, fetchDone_written hf hlen hstore]
  · rw [exec_blockFetchDone, fetchDone_unreadable hf hlen]

end Sys2Proof.Machine
end

section
/-! SUPPORT. The units of a packet (R300): its header's fields, the header in its first unit, the payload in the units after it; and what a
receiver reads back from a stream of them (R291, R293). -/

namespace Sys2Proof.Machine

/-! ## The header (R300) -/

/-- The header is `hdrNat`'s sum of fields, none of which reaches into the next. -/
theorem hdrNat_fields (p : Pkt) :
    bits (hdrNat p) 12 0 = p.dest.toNat ∧ bits (hdrNat p) 25 13 = p.src.toNat ∧ bits (hdrNat p) 41 26 = p.gen.toNat ∧
    bits (hdrNat p) 65 42 = p.seq.toNat ∧ bits (hdrNat p) 70 66 = p.len.toNat ∧ bits (hdrNat p) 73 71 = p.cls.toNat ∧
    bits (hdrNat p) 77 74 = p.typ.toNat ∧ bits (hdrNat p) 78 78 = p.replay.toNat ∧ bits (hdrNat p) 79 79 = p.marked.toNat ∧
    bits (hdrNat p) 127 80 = p.info.toNat ∧ hdrNat p < 2 ^ 128 := by
  have hdest := p.dest.isLt; have hsrc := p.src.isLt; have hgen := p.gen.isLt; have hseq := p.seq.isLt; have hlen := p.len.isLt
  have hcls := p.cls.isLt; have htyp := p.typ.isLt; have hreplay := p.replay.toNat_lt; have hmarked := p.marked.toNat_lt
  have hinfo := p.info.isLt
  simp only [bits, hdrNat]
  refine ⟨?_, ?_, ?_, ?_, ?_, ?_, ?_, ?_, ?_, ?_, ?_⟩ <;> omega

theorem hdrNat_lt (p : Pkt) : hdrNat p < 2 ^ 128 := by
  obtain ⟨-, -, -, -, -, -, -, -, -, -, hlt⟩ := hdrNat_fields p
  exact hlt

theorem hdrNat_len (p : Pkt) : bits (hdrNat p) 70 66 = p.len.toNat := by
  obtain ⟨-, -, -, -, hlen, -⟩ := hdrNat_fields p
  exact hlen

/-- `LEN`, class and type stand side by side; a unit where all three are 0 is idle (R291). -/
theorem hdrNat_idle {p : Pkt} : bits (hdrNat p) 77 66 = 0 ↔ p.len = 0 ∧ p.cls = 0 ∧ p.typ = 0 := by
  obtain ⟨-, -, -, -, hlen, hcls, htyp, -⟩ := hdrNat_fields p
  simp only [bits] at hlen hcls htyp ⊢
  simp only [BitVec.toNat_eq, BitVec.ofNat_eq_ofNat, BitVec.toNat_ofNat, Nat.zero_mod, ← hlen, ← hcls, ← htyp]
  omega

theorem bool_of_bit {n : Nat} {b : Bool} (h : n % 2 = b.toNat) : (n % 2 == 1) = b := by
  cases b <;> simp_all

/-- A header spells the packet that it was made from. -/
theorem ofHdr_hdrNat (p : Pkt) : ofHdr (hdrNat p) p.payload = p := by
  obtain ⟨hdest, hsrc, hgen, hseq, hlen, hcls, htyp, hreplay, hmarked, hinfo, -⟩ := hdrNat_fields p
  simp only [bits, Nat.reduceAdd, Nat.reduceSub, pow_zero, Nat.div_one, pow_one] at hdest hsrc hgen hseq hlen hcls htyp hreplay hmarked hinfo
  simp only [ofHdr, bool_of_bit hreplay, bool_of_bit hmarked]
  congr 1 <;> exact BitVec.eq_of_toNat_eq (by assumption)

/-! ## The units -/

/-- The unit that sixteen bytes spell. -/
def unitOf (bs : List Byte) : Unit16 := BitVec.ofNat 128 (leNat bs)

theorem leBytes_unitOf {bs : List Byte} (h : bs.length = 16) : leBytes 16 (unitOf bs).toNat = bs := by
  have hlt := leNat_lt bs
  rw [h] at hlt
  rw [unitOf, BitVec.toNat_ofNat, Nat.mod_eq_of_lt (hlt.trans_le (by decide)), ← h, leBytes_leNat]

/-- The units of a packet's payload. -/
def payloadUnits (p : Pkt) : List Unit16 := (pieces 16 p.len.toNat p.payload).map unitOf

@[simp] theorem length_pieces {α : Type} (k n : Nat) (l : List α) : (pieces k n l).length = n := by
  induction n generalizing l with
  | zero => rfl
  | succ n ih => rw [pieces, List.length_cons, ih]

@[simp] theorem length_payloadUnits (p : Pkt) : (payloadUnits p).length = p.len.toNat := by
  rw [payloadUnits, List.length_map, length_pieces]

/-- The first unit of a packet is its header; the units of its payload follow. -/
theorem pktUnits_eq_cons (p : Pkt) : pktUnits p = BitVec.ofNat 128 (hdrNat p) :: payloadUnits p := by
  have hhead : (pktBytes p).take 16 = leBytes 16 (hdrNat p) := List.take_left' (length_leBytes ..)
  have htail : (pktBytes p).drop 16 = p.payload := List.drop_left' (length_leBytes ..)
  have hnum : leNat (leBytes 16 (hdrNat p)) = hdrNat p := (leNat_leBytes ..).trans (Nat.mod_eq_of_lt (hdrNat_lt p))
  rw [pktUnits, Nat.add_comm, pieces, List.map_cons, hhead, htail, hnum]
  rfl

theorem length_pktUnits (p : Pkt) : (pktUnits p).length = 1 + p.len.toNat := by
  rw [pktUnits_eq_cons, List.length_cons, length_payloadUnits, Nat.add_comm]

/-- Whole units spell the bytes that were cut into them. -/
theorem flatMap_leBytes_pieces {n : Nat} {bs : List Byte} (h : bs.length = 16 * n) :
    ((pieces 16 n bs).map unitOf).flatMap (fun u => leBytes 16 u.toNat) = bs := by
  induction n generalizing bs with
  | zero => exact (List.eq_nil_of_length_eq_zero h).symm
  | succ n ih =>
    have hhead : (bs.take 16).length = 16 := by rw [List.length_take]; omega
    have htail : (bs.drop 16).length = 16 * n := by rw [List.length_drop]; omega
    rw [pieces, List.map_cons, List.flatMap_cons, leBytes_unitOf hhead, ih htail, List.take_append_drop]

/-- Settles O45: the header's fields do not overlap, and its units are its header and its payload's units. -/
theorem packetHeaderLayout : Obligations.PacketHeaderLayout := by
  unfold Obligations.PacketHeaderLayout
  intro p
  obtain ⟨hdest, hsrc, hgen, hseq, hlen, hcls, htyp, hreplay, hmarked, hinfo, hlt⟩ := hdrNat_fields p
  have hhead : (pktUnits p).head? = some (BitVec.ofNat 128 (hdrNat p)) := by rw [pktUnits_eq_cons, List.head?_cons]
  exact ⟨hdest, hsrc, hgen, hseq, hlen, hcls, htyp, hreplay, hmarked, hinfo, hlt, hhead, length_pktUnits p⟩

/-! ## A stream of units is read back -/

/-- A packet of the form of R300, whose header is not that of an idle unit (R291). -/
def readable (p : Pkt) : Prop := p.payload.length = 16 * p.len.toNat ∧ ¬(p.len = 0 ∧ p.cls = 0 ∧ p.typ = 0)

/-- The header unit of a packet is read as a header. -/
theorem parseUnits_header {p : Pkt} (hidle : ¬(p.len = 0 ∧ p.cls = 0 ∧ p.typ = 0)) (fuel : Nat) (us : List Unit16) :
    parseUnits (fuel + 1) (BitVec.ofNat 128 (hdrNat p) :: us) =
      if us.length < p.len.toNat then ([], BitVec.ofNat 128 (hdrNat p) :: us)
      else (ofHdr (hdrNat p) ((us.take p.len.toNat).flatMap fun x => leBytes 16 x.toNat) :: (parseUnits fuel (us.drop p.len.toNat)).1,
        (parseUnits fuel (us.drop p.len.toNat)).2) := by
  have hnum : (BitVec.ofNat 128 (hdrNat p)).toNat = hdrNat p := (BitVec.toNat_ofNat ..).trans (Nat.mod_eq_of_lt (hdrNat_lt p))
  have hhdr : bits (hdrNat p) 77 66 ≠ 0 := fun h => hidle (hdrNat_idle.1 h)
  simp only [parseUnits, hnum, hdrNat_len, if_neg hhdr]

theorem parseUnits_packet {p : Pkt} (h : readable p) (fuel : Nat) (us : List Unit16) :
    parseUnits (fuel + 1) (pktUnits p ++ us) = (p :: (parseUnits fuel us).1, (parseUnits fuel us).2) := by
  obtain ⟨hpay, hidle⟩ := h
  have htake : (payloadUnits p ++ us).take p.len.toNat = payloadUnits p := List.take_left' (length_payloadUnits p)
  have hdrop : (payloadUnits p ++ us).drop p.len.toNat = us := List.drop_left' (length_payloadUnits p)
  have hall : ¬(payloadUnits p ++ us).length < p.len.toNat := by rw [List.length_append, length_payloadUnits]; omega
  rw [pktUnits_eq_cons, List.cons_append, parseUnits_header hidle, if_neg hall, htake, hdrop, payloadUnits, flatMap_leBytes_pieces hpay,
    ofHdr_hdrNat]

/-- The first units of a packet, not all of them, are kept. -/
theorem parseUnits_incomplete {p : Pkt} (h : readable p) (fuel : Nat) {k : Nat} (hk : 0 < k) (hlen : k ≤ p.len.toNat) :
    parseUnits (fuel + 1) ((pktUnits p).take k) = ([], (pktUnits p).take k) := by
  obtain ⟨k, rfl⟩ := Nat.exists_eq_add_one.2 hk
  have hfew : ((payloadUnits p).take k).length < p.len.toNat := by rw [List.length_take, length_payloadUnits]; omega
  rw [pktUnits_eq_cons, List.take_succ_cons, parseUnits_header h.2, if_pos hfew]

/-- Settles O46, by induction on the packets: each takes one unit of fuel and is read whole, and the last is kept. -/
theorem packetStreamRoundTrip : Obligations.PacketStreamRoundTrip := by
  unfold Obligations.PacketStreamRoundTrip
  intro ps last k fuel hform hk hlen hfuel
  obtain ⟨hlast, hps⟩ := List.forall_mem_cons.1 hform
  induction ps generalizing fuel with
  | nil =>
    obtain ⟨fuel, rfl⟩ := Nat.exists_eq_add_one.2 (Nat.zero_lt_of_lt hfuel)
    exact parseUnits_incomplete hlast fuel hk hlen
  | cons p ps ih =>
    obtain ⟨hp, hps⟩ := List.forall_mem_cons.1 hps
    rw [List.flatMap_cons, List.length_append, length_pktUnits] at hfuel
    obtain ⟨fuel, rfl⟩ := Nat.exists_eq_add_one.2 (Nat.zero_lt_of_lt hfuel)
    rw [List.flatMap_cons, List.append_assoc, parseUnits_packet hp,
      ih fuel (List.forall_mem_cons.2 ⟨hlast, hps⟩) (by omega) hps]

end Sys2Proof.Machine
end

section
/-! SUPPORT. Accepted writes of a port's `PORT_CTL` (R288, R310, R312): the word, then what its command bits do. -/

namespace Sys2Proof.Machine

section

variable {m m' : Mod} {a : Agent} {p : Nat} {v : Word}

/-- The effect of `PORT_CTL.ENABLE` where it changes (R288). -/
def Mod.portSwitch (m : Mod) (p : Nat) (was : Bool) (v : Word) : Mod :=
  if was = false ∧ (LNK.PORT_CTL.ENABLE p).get v ≠ 0 then m.enablePort p
  else if was = true ∧ (LNK.PORT_CTL.ENABLE p).get v = 0 then m.disablePort p
  else m

theorem portSwitch_on (hv : (LNK.PORT_CTL.ENABLE p).get v ≠ 0) : m.portSwitch p false v = m.enablePort p := if_pos ⟨rfl, hv⟩

theorem portSwitch_off (hv : (LNK.PORT_CTL.ENABLE p).get v = 0) : m.portSwitch p true v = m.disablePort p := by
  rw [Mod.portSwitch, if_neg fun h => h.2 hv, if_pos ⟨rfl, hv⟩]

/-- A write that leaves `PORT_CTL.ENABLE` as it is neither enables nor disables. -/
theorem portSwitch_kept (hv : (LNK.PORT_CTL.ENABLE p).get v = m'.f (LNK.PORT_CTL.ENABLE p)) :
    m.portSwitch p (m'.is (LNK.PORT_CTL.ENABLE p)) v = m := by
  rw [Mod.portSwitch, if_neg fun h => h.2 (hv.trans (is_false.1 h.1)), if_neg fun h => is_true.1 h.1 (hv.symm.trans h.2)]

/-- The effect of the command bits `RETRAIN`, `FENCE` and `UNFENCE`, in this order (R310, R312). -/
def Mod.portOrders (m : Mod) (p : Nat) (v : Word) : Mod :=
  let m := if (LNK.PORT_CTL.RETRAIN p).get v ≠ 0 then m.retrainPort p else m
  let m := if (LNK.PORT_CTL.FENCE p).get v ≠ 0 then m.fencePort p else m
  if (LNK.PORT_CTL.UNFENCE p).get v ≠ 0 then m.unfencePort p else m

/-- `PORT_CTL`: a changed `ENABLE` switches the port, then the command bits act. -/
theorem regApply_portCtl (hp : p < 8) : m.regApply a (LNK.PORT_CTL.o p) v =
    ((m.withWord a (LNK.PORT_CTL.o p) v).portSwitch p (m.is (LNK.PORT_CTL.ENABLE p)) v).portOrders p v := by
  have hblock : LNK.PORT_CTL.o p / 0x1000 = 10 := by simp only [LNK.PORT_CTL.o]; omega
  have hlow : 0x100 ≤ LNK.PORT_CTL.o p % 0x1000 := by simp only [LNK.PORT_CTL.o]; omega
  have hhigh : LNK.PORT_CTL.o p % 0x1000 < 0x500 := by simp only [LNK.PORT_CTL.o]; omega
  have hport : (LNK.PORT_CTL.o p % 0x1000 - 0x100) / 0x80 = p := by simp only [LNK.PORT_CTL.o]; omega
  have hevt : LNK.EVT.o ≠ LNK.PORT_CTL.o p := by simp only [LNK.EVT.o, LNK.PORT_CTL.o]; omega
  have hplain : isEvt (LNK.PORT_CTL.o p) = false := by
    rw [isEvt, hblock]; exact beq_eq_false_iff_ne.2 fun h => hevt (Option.some.inj h)
  rw [regApply_of hplain, regAct_LNK hblock, actLNK_port (w := m.regW a (LNK.PORT_CTL.o p) v) hlow hhigh hport]
  simp only [regW_sets_own (off := LNK.PORT_CTL.o p) (f := LNK.PORT_CTL.ENABLE p) rfl,
    regW_clears_own (off := LNK.PORT_CTL.o p) (f := LNK.PORT_CTL.ENABLE p) rfl,
    regW_one_own (off := LNK.PORT_CTL.o p) (f := LNK.PORT_CTL.RETRAIN p) rfl,
    regW_one_own (off := LNK.PORT_CTL.o p) (f := LNK.PORT_CTL.FENCE p) rfl,
    regW_one_own (off := LNK.PORT_CTL.o p) (f := LNK.PORT_CTL.UNFENCE p) rfl, decide_eq_true_eq, Mod.portSwitch, Mod.portOrders]

section

variable (hr : (LNK.PORT_CTL.RETRAIN p).get v = 0) (hf : (LNK.PORT_CTL.FENCE p).get v = 0) (hu : (LNK.PORT_CTL.UNFENCE p).get v = 0)

include hr hf hu in
theorem portOrders_none : m.portOrders p v = m := by
  simp only [Mod.portOrders, hr, hf, hu, ne_eq, not_true_eq_false, if_false]

include hf hu in
theorem portOrders_retrain (hv : (LNK.PORT_CTL.RETRAIN p).get v ≠ 0) : m.portOrders p v = m.retrainPort p := by
  simp only [Mod.portOrders, if_pos hv, hf, hu, ne_eq, not_true_eq_false, if_false]

include hr hu in
theorem portOrders_fence (hv : (LNK.PORT_CTL.FENCE p).get v ≠ 0) : m.portOrders p v = m.fencePort p := by
  simp only [Mod.portOrders, if_pos hv, hr, hu, ne_eq, not_true_eq_false, if_false]

include hr hf in
theorem portOrders_unfence (hv : (LNK.PORT_CTL.UNFENCE p).get v ≠ 0) : m.portOrders p v = m.unfencePort p := by
  simp only [Mod.portOrders, if_pos hv, hr, hf, ne_eq, not_true_eq_false, if_false]

end

end

/-- Settles O15: each command is the write of the port's `PORT_CTL`, whose equation says what each bit does alone. -/
theorem linkRegisterCommandsComplete : Obligations.LinkRegisterCommandsComplete := by
  unfold Obligations.LinkRegisterCommandsComplete
  refine fun s => ⟨fun a p v h hwas hv hr hf hu => ?_, fun a p v h hwas hv hr hf hu => ?_, fun a p v h hsame hv hf hu => ?_,
    fun a p v h hsame hv hr hu => ?_, fun a p v h hsame hv hr hf => ?_⟩
  · rw [exec_acceptedWrite rfl h, regApply_portCtl p.isLt, hwas, portSwitch_on hv, portOrders_none hr hf hu]
  · rw [exec_acceptedWrite rfl h, regApply_portCtl p.isLt, hwas, portSwitch_off hv, portOrders_none hr hf hu]
  · rw [exec_acceptedWrite rfl h, regApply_portCtl p.isLt, portSwitch_kept hsame, portOrders_retrain hf hu hv]
  · rw [exec_acceptedWrite rfl h, regApply_portCtl p.isLt, portSwitch_kept hsame, portOrders_fence hr hu hv]
  · rw [exec_acceptedWrite rfl h, regApply_portCtl p.isLt, portSwitch_kept hsame, portOrders_unfence hr hf hv]

end Sys2Proof.Machine
end

section
/-! SUPPORT. Control packets (R306, R308, R309, R321, R538), where they reach their port. -/

namespace Sys2Proof.Machine

/-- Whether a port hands on the control packets that it receives: it is UP, the module runs outside field test, and no parity error is to come
on the way from it. -/
structure Mod.controls (m : Mod) (port : Nat) : Prop where
  up : m.pstate port = pUP
  runs : m.fetching_ = false
  noTest : m.is TST.CFG.MODE = false
  noParity : m.memside.paths.contains (136 + port) = false

/-- A control packet's row whose port hands it on has the effect of its type. -/
theorem row_controls {s : State} {port : Fin 8} {p : Pkt} {typ : Nat} (h : s.controls port.val) (hok : pktOk (asRow p 0 typ) = true) :
    run (fun m => m.rowPacket port p 0 typ) s = .next (s.after (s.takeControl port.val (asRow p 0 typ))) := by
  rw [run_next]
  exact congrArg (fun m => Host.Outcome.next (s.after m)) (receivePkt_control h.up h.runs hok h.noTest h.noParity rfl)

section

variable {s : State} {port : Fin 8} {p : Pkt}

theorem exec_heartbeat (h : s.controls port.val) (hok : pktOk (asRow p 0 1) = true) :
    exec (.heartbeat port p) s = .next (s.after (s.takeHeartbeat port.val (asRow p 0 1))) := row_controls h hok

theorem exec_aliasPkt (h : s.controls port.val) (hok : pktOk (asRow p 0 2) = true) :
    exec (.aliasPkt port p) s = .next (s.after (s.takeAlias port.val (asRow p 0 2))) := row_controls h hok

theorem exec_fence (h : s.controls port.val) (hok : pktOk (asRow p 0 3) = true) :
    exec (.fence port p) s = .next (s.after
      (if s.mine (destOf (asRow p 0 3)) then s.fenceIn port.val (asRow p 0 3) else s.forward (asRow p 0 3) (cameOn port.val))) :=
  row_controls h hok

theorem exec_fenceAck (h : s.controls port.val) (hok : pktOk (asRow p 0 5) = true) :
    exec (.fenceAck port p) s = .next (s.after
      (if s.mine (destOf (asRow p 0 5)) then s.takeFenceAck (asRow p 0 5) else s.forward (asRow p 0 5) (cameOn port.val))) :=
  row_controls h hok

theorem exec_fault (h : s.controls port.val) (hok : pktOk (asRow p 0 6) = true) :
    exec (.fault port p) s = .next (s.after (s.faultIn port.val (asRow p 0 6))) := row_controls h hok

end

section

variable {m : Mod} {port : Nat} {p : Pkt}

theorem takeAlias_entered {t : Mod}
    (h : m.enterAlias (payNat p 0 2 % 8192) (payNat p 2 2 % 8192) (payNat p 4 6) (payNat p 10 2) = (t, true)) :
    m.takeAlias port p = t.broadcast p (some port) := by
  rw [Mod.takeAlias, h]

theorem fenceIn_other (h : payNat p 0 2 % 8192 ≠ m.id) : m.fenceIn port p = m.takeFence port p := if_neg h

theorem fenceIn_own (h : payNat p 0 2 % 8192 = m.id) : m.fenceIn port p = (m.takeFence port p).warmCause 5 255 := if_pos h

theorem takeFenceAck_awaited (ht : m.dup.takeover ≠ none) (hp : payNat p 0 2 % 8192 = m.dup.peerId) :
    m.takeFenceAck p = m.dupOf fun d => { d with awaiting := d.awaiting.filter (· != srcOf p) } :=
  if_pos ⟨Option.isSome_iff_ne_none.2 ht, hp⟩

/-- A FAULT that names the current attempt of a step held here, one that has not failed yet (R538). -/
theorem faultIn_current (hj : m.steps.oldest ≤ payNat p 0 6) (ht : m.tagFor (payNat p 0 6) = payNat p 6 2)
    (hf : (m.steps.failed.any fun f => f.1 == payNat p 0 6) = false) :
    m.faultIn port p = (m.broadcast p (some port)).takeFault p := by
  refine if_neg ?_
  rintro (h | h | h)
  · exact absurd hj (Nat.not_le.2 h)
  · exact h ht
  · exact Bool.false_ne_true (hf.symm.trans h)

end

/-- Settles O37: each packet reaches its port, whose rule for the type says what becomes of it. -/
theorem controlPacketsComplete : Obligations.ControlPacketsComplete := by
  unfold Obligations.ControlPacketsComplete
  intro s port p hup hruns htest hparity
  have h : s.controls port.val := ⟨hup, hruns, htest, hparity⟩
  refine ⟨fun hok => exec_heartbeat h hok, fun m hok he => ?_,
    fun hok => ⟨fun hm hid => ?_, fun hm hid => ?_, fun hm => ?_⟩,
    fun hok => ⟨fun hm ht hid => ?_, fun hm => ?_⟩, fun hok hj ht hf => ?_⟩
  · rw [exec_aliasPkt h hok, takeAlias_entered he]
  · rw [exec_fence h hok, if_pos hm, fenceIn_other hid]
  · rw [exec_fence h hok, if_pos hm, fenceIn_own hid]
  · rw [exec_fence h hok, hm, if_neg Bool.false_ne_true]
  · rw [exec_fenceAck h hok, if_pos hm, takeFenceAck_awaited ht hid]
  · rw [exec_fenceAck h hok, hm, if_neg Bool.false_ne_true]
  · rw [exec_fault h hok, faultIn_current hj ht hf]

end Sys2Proof.Machine
end

section
/-! SUPPORT. Fabric requests (R302, R303, R459): what a WRITE and a READ do and answer, case by case. -/

namespace Sys2Proof.Machine

section

variable {m m₁ m₂ : Mod} {p : Pkt} {a : Agent} {ans : Answer} {x : Nat}

/-! ## WRITE (R303) -/

theorem doWrite_refused {r : Nat} (h : m.fabricAddr (destOf p) (ioSpace (infoOf p)) (ioOffset (infoOf p)) (ioBytes p) = .inr r) :
    m.doWrite p a ans = refuseBy ans p r m := by
  simp only [Mod.doWrite, h]

section

variable (hx : m.fabricAddr (destOf p) (ioSpace (infoOf p)) (ioOffset (infoOf p)) (ioBytes p) = .inl x)
include hx

theorem doWrite_registers (hs : ioSpace (infoOf p) = 2) : m.doWrite p a ans =
    if ioLast (infoOf p) then ackBy ans p (m.regWrites a (regWords (x - regBase) (writeBytes p))).1
    else (m.regWrites a (regWords (x - regBase) (writeBytes p))).1 := by
  simp only [Mod.doWrite, hx, if_pos hs]

theorem doWrite_stored (hs : ioSpace (infoOf p) ≠ 2) (hr : m.canRead (By.hub (some (tagOf p))) (m.writeStops x (ioBytes p)) = (m₁, true))
    (hw : m₁.store (By.hub (some (tagOf p))) x (writeBytes p) = (m₂, true)) :
    m.doWrite p a ans = if ioLast (infoOf p) then ackBy ans p m₂ else m₂ := by
  simp only [Mod.doWrite, hx, if_neg hs, hr, hw]

/-- A unit beyond correction stops the WRITE (R268, R270). -/
theorem doWrite_uncorrectable (hs : ioSpace (infoOf p) ≠ 2)
    (hr : m.canRead (By.hub (some (tagOf p))) (m.writeStops x (ioBytes p)) = (m₁, false)) : m.doWrite p a ans = refuseBy ans p 6 m₁ := by
  simp only [Mod.doWrite, hx, if_neg hs, hr]

end

/-! ## READ (R302, R303) -/

/-- The data of a READ are answered in packets of 256 bytes, the last padded to whole units. -/
def readAnswers (ans : Answer) (p : Pkt) (m : Mod) (bs : List Byte) : Mod :=
  (pieces 256 ((payNat p 0 4 + 255) / 256) bs).zipIdx.foldl
    (fun m y => ans m 1 (payNat p 4 4 + 2 ^ 32 * y.2) (padUnits (y.1.take 256))) m

theorem doRead_badCount (h : payNat p 0 4 = 0 ∨ 65536 < payNat p 0 4) : m.doRead p ans = refuseBy ans p 1 m := if_pos h

section

variable (h0 : payNat p 0 4 ≠ 0) (hmax : payNat p 0 4 ≤ 65536)
include h0 hmax

theorem readSize_ok : ¬(payNat p 0 4 = 0 ∨ 65536 < payNat p 0 4) := not_or_intro h0 (Nat.not_lt.2 hmax)

theorem doRead_refused {r : Nat} (h : m.fabricAddr (destOf p) (ioSpace (infoOf p)) (ioOffset (infoOf p)) (payNat p 0 4) = .inr r) :
    m.doRead p ans = refuseBy ans p r m := by
  simp only [Mod.doRead, if_neg (readSize_ok h0 hmax), h]

variable (hx : m.fabricAddr (destOf p) (ioSpace (infoOf p)) (ioOffset (infoOf p)) (payNat p 0 4) = .inl x)
include hx

theorem doRead_uncorrectable (hs : ioSpace (infoOf p) ≠ 2) (hl : m.load (By.hub (some (tagOf p))) x (payNat p 0 4) = (m₁, none)) :
    m.doRead p ans = refuseBy ans p 6 m₁ := by
  simp only [Mod.doRead, if_neg (readSize_ok h0 hmax), hx, if_neg hs, hl]

theorem doRead_memory {bs : List Byte} (hs : ioSpace (infoOf p) ≠ 2)
    (hl : m.load (By.hub (some (tagOf p))) x (payNat p 0 4) = (m₁, some bs)) : m.doRead p ans = readAnswers ans p m₁ bs := by
  simp only [Mod.doRead, if_neg (readSize_ok h0 hmax), hx, if_neg hs, hl, readAnswers]

theorem doRead_registers (hs : ioSpace (infoOf p) = 2) :
    m.doRead p ans = readAnswers ans p m (m.regBytes (x - regBase) (payNat p 0 4)) := by
  simp only [Mod.doRead, if_neg (readSize_ok h0 hmax), hx, if_pos hs, readAnswers]

end

end

/-- Settles O34: the packet reaches its rule, whose cases are the answers; over the router each leaves as the identity that the packet names. -/
theorem requestPacketsComplete : Obligations.RequestPacketsComplete := by
  unfold Obligations.RequestPacketsComplete
  refine fun s port p => ⟨fun m x hq hx => ⟨fun m₁ m₂ hs hr hw => ?_, fun m₁ hs hr => ?_, fun hs => ?_⟩, fun m r hq hr => ?_,
    fun m hq => ⟨fun hn => ?_, fun r h0 hmax hr => ?_, fun x m₁ h0 hmax hx hs hl => ?_⟩,
    fun m x hq h0 hmax hx => ⟨fun m₁ bs hs hl => ?_, fun hs => ?_⟩⟩
  · rw [exec_write hq, doWrite_stored hx hs hr hw]; rfl
  · rw [exec_write hq, doWrite_uncorrectable hx hs hr]; rfl
  · rw [exec_write hq, doWrite_registers hx hs]; rfl
  · rw [exec_write hq, doWrite_refused hr]; rfl
  · rw [exec_read hq, doRead_badCount hn]; rfl
  · rw [exec_read hq, doRead_refused h0 hmax hr]; rfl
  · rw [exec_read hq, doRead_uncorrectable h0 hmax hx hs hl]; rfl
  · rw [exec_read hq, doRead_memory h0 hmax hx hs hl]; rfl
  · rw [exec_read hq, doRead_registers h0 hmax hx hs]; rfl

end Sys2Proof.Machine
end

section
/-! SUPPORT. Responses (R176, R197, R302, R303) that answer a request of this module's own: which requests end, and where read data goes. -/

namespace Sys2Proof.Machine

section

variable {m : Mod} {p : Pkt} {r : Req}

/-! ## ACK and REFUSED (R302, R303) -/

theorem takeAck_found
    (h : m.reqFor (fun r => r.dest == srcOf p && r.tag == tagOf p && r.seq == infoOf p % 2 ^ 24 && r.kind != 1 && r.kind != 3) = some r) :
    m.takeAck p = m.answer r (covers r) := by
  simp only [Mod.takeAck, h]

section

variable (h : m.reqFor (fun r => r.dest == srcOf p && r.tag == tagOf p && r.seq == infoOf p % 2 ^ 24 && r.kind != 3) = some r)
include h

theorem takeRefused_inForce (hl : m.reqLate r = false) : m.takeRefused p =
    ((m.noteStatus r.core r.q r.num (if infoOf p / 2 ^ 24 % 256 = 6 then 0x44 else 0x43)).readEnds r).answer r (covers r) := by
  simp only [Mod.takeRefused, h, hl, if_neg Bool.false_ne_true]

theorem takeRefused_late (hl : m.reqLate r = true) : m.takeRefused p = m.answer r (covers r) := by
  simp only [Mod.takeRefused, h, if_pos hl]

end

/-! ## READ_DATA (R176, R197, R302) -/

/-- How many bytes of a READ a READ_DATA brings, the bytes, and where they go. -/
def readCount (r : Req) (p : Pkt) : Nat := min r.bytes (min 256 p.payload.length)
def readBytes (r : Req) (p : Pkt) : List Byte := p.payload.take (readCount r p)
def readLand (r : Req) (p : Pkt) : Nat := r.land + 256 * (infoOf p / 2 ^ 32)

/-- The module with the bytes of a READ_DATA counted. -/
def Mod.readCounted (m : Mod) (r : Req) (p : Pkt) : Mod := m.count (CORE.SN_DMA_BYTES_LO.o r.core) (readCount r p)

/-- `k` bytes of a READ have come, and others have not. -/
def Mod.readRest (m : Mod) (r : Req) (k : Nat) : Mod :=
  { m with reqs := m.reqs.map fun x => if x = r then { r with bytes := r.bytes - k } else x }

/-- After `k` bytes of a READ in force: it is answered once all its bytes have come. -/
def Mod.readGoesOn (m : Mod) (r : Req) (k : Nat) : Mod :=
  if r.bytes ≤ k then (m.readEnds r).answer r (· == r) else m.readRest r k

@[simp] theorem byPacket_readCounted (m : Mod) (r : Req) (p : Pkt) (a : Nat) : (m.readCounted r p).byPacket a = m.byPacket a := rfl

@[simp] theorem queue_readCounted (m : Mod) (r : Req) (p : Pkt) (n q : Nat) : (m.readCounted r p).queue n q = m.queue n q := rfl

section

variable (h : m.reqFor (fun r => r.dest == srcOf p && r.tag == tagOf p && r.kind == 1 && r.seq == infoOf p % 2 ^ 32 % 2 ^ 24) = some r)
include h

theorem takeReadData_late (hl : m.reqLate r = true) : m.takeReadData p =
    if r.bytes ≤ readCount r p then m.answer r (· == r) else (m.readRest r (readCount r p)).replyLate r.core := by
  simp only [Mod.takeReadData, h, if_pos hl]
  rfl

variable {d : Desc} (hl : m.reqLate r = false) (hd : (m.queue r.core r.q).taken.find? (·.num == r.num) = some d)
include hl hd

/-- The bytes of a READ in force go on in WRITEs unless its descriptor has stopped, or land on this module. -/
theorem takeReadData_inForce : m.takeReadData p =
    (if m.byPacket (readLand r p) then
       if d.stopped then m.readCounted r p
       else (m.readCounted r p).queueWrites r.core r.q d ((readBytes r p).length + 1) (readLand r p) (readBytes r p)
     else (m.readCounted r p).landData r.core r.q d (readLand r p) (readBytes r p)).readGoesOn r (readCount r p) := by
  rw [← queue_readCounted m r p] at hd
  rw [Mod.readCounted, readCount] at hd
  simp only [Mod.takeReadData, h, hl, if_neg Bool.false_ne_true, hd]
  rfl

theorem takeReadData_goesOn (hb : m.byPacket (readLand r p) = true) (hs : d.stopped = false) : m.takeReadData p =
    ((m.readCounted r p).queueWrites r.core r.q d ((readBytes r p).length + 1) (readLand r p) (readBytes r p)).readGoesOn r
      (readCount r p) := by
  rw [takeReadData_inForce h hl hd, if_pos hb, hs, if_neg Bool.false_ne_true]

variable (hb : m.byPacket (readLand r p) = false)
include hb

theorem takeReadData_lands {t : Mod}
    (hs : (m.readCounted r p).stalkHeld r.core r.q d [(fabLocal (readLand r p), (readBytes r p).length)] = false)
    (hw : ((m.readCounted r p).fillGranules d.tag [(fabLocal (readLand r p), (readBytes r p).length)]).store (By.core r.core d.tag)
      (fabLocal (readLand r p)) (readBytes r p) = (t, true)) : m.takeReadData p = t.readGoesOn r (readCount r p) := by
  rw [takeReadData_inForce h hl hd, hb, if_neg Bool.false_ne_true]
  simp only [Mod.landData, hs, if_neg Bool.false_ne_true, hw]

/-- Others still read a granule that the bytes would land on (R197). -/
theorem takeReadData_waits
    (hs : (m.readCounted r p).stalkHeld r.core r.q d [(fabLocal (readLand r p), (readBytes r p).length)] = true) :
    m.takeReadData p =
      ({ m.readCounted r p with heldWrites := (m.readCounted r p).heldWrites ++
          [⟨r.core, r.q, d.num, readLand r p, readBytes r p, true⟩] } : Mod).readGoesOn r (readCount r p) := by
  rw [takeReadData_inForce h hl hd, hb, if_neg Bool.false_ne_true]
  simp only [Mod.landData, if_pos hs]

end

end

/-! ## A response that no relayed access awaits (R460) -/

section

variable {s : State} {port : Fin 8} {p : Pkt} {m : Mod}

theorem exec_ack_own (h : s.handsOn port.val (asRow p 2 0) m) (hr : m.relayFor (asRow p 2 0) = none) :
    exec (.ack port p) s = .next (s.after (m.takeAck (asRow p 2 0))) := by
  rw [exec_ack h, Mod.takeResponse, hr]; rfl

theorem exec_readData_own (h : s.handsOn port.val (asRow p 2 1) m) (hr : m.relayFor (asRow p 2 1) = none) :
    exec (.readData port p) s = .next (s.after (m.takeReadData (asRow p 2 1))) := by
  rw [exec_readData h, Mod.takeResponse, hr]; rfl

theorem exec_refused_own (h : s.handsOn port.val (asRow p 2 2) m) (hr : m.relayFor (asRow p 2 2) = none) :
    exec (.refused port p) s = .next (s.after (m.takeRefused (asRow p 2 2))) := by
  rw [exec_refused h, Mod.takeResponse, hr]; rfl

end

/-- Settles O36: the response finds its request; read data by where it goes, then by whether it is the last. -/
theorem responsePacketsComplete : Obligations.ResponsePacketsComplete := by
  unfold Obligations.ResponsePacketsComplete
  refine fun s port p m => ⟨fun r hq hrelay hr => ?_, fun r hq hrelay hr => ⟨fun hl => ?_, fun hl => ?_⟩,
    fun r hq hrelay hr => ⟨fun d m' hl hd hb hs hw => ?_, fun d hl hd hb hs => ?_, fun d hl hd hb hs => ?_, fun hl => ?_⟩⟩
  · rw [exec_ack_own hq hrelay, takeAck_found hr]
  · rw [exec_refused_own hq hrelay, takeRefused_inForce hr hl]
  · rw [exec_refused_own hq hrelay, takeRefused_late hr hl]
  · rw [exec_readData_own hq hrelay, takeReadData_lands hr hl hd hb hs hw]; rfl
  · rw [exec_readData_own hq hrelay, takeReadData_waits hr hl hd hb hs]; rfl
  · rw [exec_readData_own hq hrelay, takeReadData_goesOn hr hl hd hb hs]; rfl
  · rw [exec_readData_own hq hrelay, takeReadData_late hr hl]; rfl

end Sys2Proof.Machine
end

section
/-! SUPPORT. Negotiation of a port (R288–R290, R313): base training, a candidate's window, CAPS, a new start and a lost link, each where it is
due. -/

namespace Sys2Proof.Machine

theorem exec_baseTrainingEnd (p : Fin 8) (s : State) : exec (.baseTrainingEnd p) s = .next (s.after (s.toMod.baseEnd p.val)) := rfl

theorem exec_candidateQualifyEnd (p : Fin 8) (fibres : BitVec 4) (s : State) :
    exec (.candidateQualifyEnd p fibres) s = .next (s.after (s.toMod.candidateEnd p.val fibres.toNat)) := rfl

theorem exec_negotiationRestart (p : Fin 8) (s : State) :
    exec (.negotiationRestart p) s = .next (s.after (s.toMod.negRestart p.val)) := rfl

theorem exec_linkLost (p : Fin 8) (s : State) : exec (.linkLost p) s = .next (s.after (s.toMod.linkLost p.val)) := rfl

/-! ## One port changed twice -/

/-- A second store at a key replaces the first, which is listed unless it is the value of an unlisted key. -/
theorem tset_tset {α : Type} [DecidableEq α] {d : Nat → α} {k : Nat} {v : α} (hv : v ≠ d k) (t : Tbl α) (v' : α) :
    tset d (tset d t k v) k v' = tset d t k v' := by
  induction t with
  | nil => simp only [tset, if_neg hv, if_true]; rfl
  | cons e r ih =>
    obtain ⟨j, w⟩ := e
    rcases Nat.lt_trichotomy j k with hlt | rfl | hgt
    · simp only [tset, if_neg (Nat.ne_of_lt hlt), if_neg (Nat.lt_asymm hlt), ih]
    · simp only [tset, if_neg hv, if_true]
    · have hkeep : terase (· == k) ((j, w) :: r) = (j, w) :: terase (· == k) r := by simp [terase, hgt.ne']
      simp only [tset, if_neg hgt.ne', if_pos hgt, if_neg hv, if_true, hkeep]

@[simp] theorem Mod.onPort_port (m : Mod) (p : Nat) (f : Port → Port) : (m.onPort p f).port p = f (m.port p) := tget_tset_same ..

theorem Mod.onPort_onPort {m : Mod} {p : Nat} {f : Port → Port} (h : f (m.port p) ≠ Port.init) (g : Port → Port) :
    (m.onPort p f).onPort p g = m.onPort p fun x => g (f x) := by
  rw [Mod.onPort, Mod.onPort_port]
  exact congrArg (fun t => ({ m with ports := t } : Mod)) (tset_tset (d := fun _ => Port.init) h _ _)

section

variable {m : Mod} {p : Nat}

/-! ## Base training (R288, R290) -/

section

variable (hst : m.pstate p = pTRAINING) (hb : (m.port p).base = true)
include hst hb

theorem training_base : ¬(decide (m.pstate p ≠ pTRAINING) || !(m.port p).base) = true := by simp [hst, hb]

/-- No fibre has trained, or none can with the resonator stopped (R17). -/
theorem baseEnd_silent (h : (m.port p).caps = [] ∨ m.power.resonator = false) : m.baseEnd p = m.negFail p 6 0 := by
  have hnone : (if m.power.resonator then (m.port p).caps else []) = [] := by
    rcases h with h | h
    · rw [h, ite_self]
    · rw [h, if_neg Bool.false_ne_true]
  simp only [Mod.baseEnd, if_neg (training_base hst hb), hnone]

theorem baseEnd_trained {c : Nat × List Byte} {rest : List (Nat × List Byte)} (hc : (m.port p).caps = c :: rest)
    (hon : m.power.resonator = true)
    (hwired : ((m.port p).caps.any fun d => !peerPortOk p (capsPort d.2) || capsId d.2 != capsId c.2) = false)
    (hver : (capsVersions c.2).testBit 0 = true) :
    m.baseEnd p = ((m.onPort p fun x => { x with known := true }).sets
      [(LNK.PORT_STAT.PEER p, capsId c.2), (LNK.PORT_STAT.PEER_PORT p, capsPort c.2)]).nextCandidate p 0 := by
  rw [hc] at hwired
  simp only [Mod.baseEnd, if_neg (training_base hst hb), if_pos hon, hc, hwired, hver, Bool.not_true, Bool.false_eq_true, if_false]

end

/-! ## A candidate's window (R289) -/

/-- A port that was not UP and has come UP is checked for its wiring (R318). -/
theorem candidateEnd_training (hst : m.pstate p = pTRAINING) (fibres : Nat) : m.candidateEnd p fibres =
    if (m.qualifyEnd p fibres).pstate p = pUP then (m.qualifyEnd p fibres).wiringCheck p else m.qualifyEnd p fibres := by
  simp only [Mod.candidateEnd, hst, show (pTRAINING != pUP) = true from rfl, Bool.true_and, beq_iff_eq]

/-- The port as it reports its own results. -/
def Mod.reporting (m : Mod) (p fibres : Nat) (x : Port) : Port :=
  { x with capsOut := m.capsPayload p (m.port p).rank (fibres &&& (m.port p).fibres) }

theorem reporting_ne_init (fibres : Nat) (x : Port) : m.reporting p fibres x ≠ Port.init := fun h => by
  have hcaps : m.capsPayload p (m.port p).rank (fibres &&& (m.port p).fibres) = [] := congrArg Port.capsOut h
  exact List.cons_ne_nil _ _ (List.append_eq_nil_iff.1 hcaps).2

section

variable (hst : m.pstate p = pTRAINING) (hb : (m.port p).base = false) (hk : (m.port p).rank ≠ 0)
include hst hb hk

theorem training_candidate : ¬(decide (m.pstate p ≠ pTRAINING) || (m.port p).base || (m.port p).rank == 0) = true := by
  simp [hst, hb, hk]

/-- Both ends report every fibre that the candidate uses. -/
theorem qualifyEnd_passes {fibres r : Nat} (hon : m.power.resonator = true) (hr : (m.port p).peerReport = some r)
    (hall : r &&& fibres &&& (m.port p).fibres = (m.port p).fibres) :
    m.qualifyEnd p fibres = (m.onPort p (m.reporting p fibres)).enterUp p := by
  simp only [Mod.qualifyEnd, if_neg (training_candidate hst hb hk), hr, hall, Mod.onPort_power, hon, and_self, if_true]
  rfl

/-- No report has come from the peer. -/
theorem qualifyEnd_unreported (hr : (m.port p).peerReport = none) (hf : (m.port p).fibres ≠ 0) (fibres : Nat) :
    m.qualifyEnd p fibres = (m.onPort p (m.reporting p fibres)).nextCandidate p (m.port p).rank := by
  simp only [Mod.qualifyEnd, if_neg (training_candidate hst hb hk), hr, hf.symm, false_and, if_false, Option.isSome_none,
    Bool.false_eq_true]
  rfl

/-- Fibres that both ends report are remembered for the lane rate; the next candidate is tried. -/
theorem qualifyEnd_fails {fibres r : Nat} (hr : (m.port p).peerReport = some r)
    (hsome : r &&& fibres &&& (m.port p).fibres ≠ (m.port p).fibres) :
    m.qualifyEnd p fibres = (m.onPort p fun y => { m.reporting p fibres y with
      passed := if r &&& fibres &&& (m.port p).fibres = 0 then y.passed else
        (y.passed.filter fun e => e.1 != (modeOf (m.port p).rank).2) ++
          [((modeOf (m.port p).rank).2, r &&& fibres &&& (m.port p).fibres)] }).nextCandidate p (m.port p).rank := by
  simp only [Mod.qualifyEnd, if_neg (training_candidate hst hb hk), hr, hsome, false_and, if_false, Option.isSome_some, true_and]
  congr 1
  by_cases hz : r &&& fibres &&& (m.port p).fibres = 0
  · simp only [hz, ne_eq, not_true_eq_false, if_false, if_true]
    rfl
  · simp only [hz, ne_eq, not_false_eq_true, if_true, if_false]
    exact Mod.onPort_onPort (reporting_ne_init fibres _) _

end

/-! ## A new start, CAPS, and a lost link (R288, R290, R313) -/

theorem negRestart_due (hst : m.pstate p = pDOWN) (hen : m.is (LNK.PORT_CTL.ENABLE p) = true) (hw : (m.port p).wiring = false)
    (hd : m.down (136 + p) = false) : m.negRestart p = m.startBase p :=
  if_pos ⟨hst, hen, by rw [hw]; rfl, by rw [hd]; rfl⟩

section

variable {b : List Byte} (hst : m.pstate p = pTRAINING) (hlen : b.length = 16) (hrest : leNat (b.drop 8) = 0)
include hst hlen hrest

theorem caps_taken : ¬(m.pstate p ≠ pTRAINING ∨ b.length ≠ 16 ∨ leNat (b.drop 8) ≠ 0) := by simp [hst, hlen, hrest]

theorem takeCaps_base (hb : (m.port p).base = true) (hr : capsRank b = 0) (fibre : Nat) : m.takeCaps p fibre b =
    m.onPort p fun x => { x with live := x.live ||| 2 ^ fibre, caps := (x.caps.filter fun c => c.1 != fibre) ++ [(fibre, b)] } := by
  simp only [Mod.takeCaps, if_neg (caps_taken hst hlen hrest), hb, hr, if_true]

theorem takeCaps_candidate (hb : (m.port p).base = false) (hr : capsRank b = (m.port p).rank) (fibre : Nat) :
    m.takeCaps p fibre b = m.onPort p fun x => { x with peerReport := some (capsPass b) } := by
  simp only [Mod.takeCaps, if_neg (caps_taken hst hlen hrest), hb, hr, if_neg Bool.false_ne_true, if_true]

end

end

/-- Settles O32: each command where the port awaits it. -/
theorem negotiationCommandsComplete : Obligations.NegotiationCommandsComplete := by
  unfold Obligations.NegotiationCommandsComplete
  refine fun s p => ⟨fun hst hb => ⟨fun h => ?_, fun c rest hc hon hwired hver => ?_⟩,
    fun fibres hst hb hk hon => ⟨fun r hr hall => ?_, fun hr hf => ?_, fun r hr hsome => ?_⟩, fun hst hen hw hd => ?_,
    fun fibre b hst hlen hrest => ⟨fun hb hr => ?_, fun hb hr => ?_⟩, fun peer pp hre => ?_⟩
  · rw [exec_baseTrainingEnd, baseEnd_silent hst hb h]
  · rw [exec_baseTrainingEnd, baseEnd_trained hst hb hc hon hwired hver]
  · rw [exec_candidateQualifyEnd, candidateEnd_training hst, qualifyEnd_passes hst hb hk hon hr hall]; rfl
  · rw [exec_candidateQualifyEnd, candidateEnd_training hst, qualifyEnd_unreported hst hb hk hr hf]; rfl
  · rw [exec_candidateQualifyEnd, candidateEnd_training hst, qualifyEnd_fails hst hb hk hr hsome]; rfl
  · rw [exec_negotiationRestart, negRestart_due hst hen hw hd]
  · rw [exec_caps, takeCaps_base hst hlen hrest hb hr]
  · rw [exec_caps, takeCaps_candidate hst hlen hrest hb hr]
  · rw [exec_linkLost, Mod.linkLost, hre]

end Sys2Proof.Machine
end

section
/-! SUPPORT. The link and its heartbeats (R291–R299, R306, R310, R312): frames in and out, link control units, packets sent, silence. -/

namespace Sys2Proof.Machine

theorem exec_frameReceive (p : Fin 8) (fseq : BitVec 16) (units : List Unit16) (fcrc : Word) (ce ue : Nat) (s : State) :
    exec (.frameReceive p fseq units fcrc ce ue) s = .next (s.after (s.toMod.takeFrame p.val fseq.toNat units fcrc ce ue)) := rfl

theorem exec_frameSend (p : Fin 8) (s : State) : exec (.frameSend p) s = .next (s.after (s.toMod.frameSend p.val)) := rfl

theorem exec_lcu (p : Fin 8) (u : Unit16) (s : State) : exec (.lcu p u) s = .next (s.after (s.toMod.takeLcu p.val u)) := rfl

theorem exec_packetSend (p c : Fin 8) (s : State) :
    exec (.packetSend p c) s = .next (s.after (s.toMod.packetSend p.val c.val)) := rfl

theorem exec_lcuTimeout (p : Fin 8) (s : State) : exec (.lcuTimeout p) s = .next (s.after (s.toMod.linkDown p.val)) := rfl

theorem exec_heartbeatSend (s : State) : exec .heartbeatSend s = .next (s.after s.toMod.heartbeatSend) := rfl

theorem exec_hbMiss (p : Fin 8) (s : State) : exec (.hbMiss p) s = .next (s.after (s.toMod.hbMiss p.val)) := rfl

section

variable {m : Mod} {p : Nat}

/-! ## Frames (R291–R295) -/

theorem takeFrame_delivers {fseq ce ue : Nat} {units : List Unit16} {fcrc : Word} {t : Mod} {ps : List Pkt}
    (h : m.frameIn p fseq units fcrc ce ue = (t, ps)) : m.takeFrame p fseq units fcrc ce ue = t.receiveAll p ps := by
  simp only [Mod.takeFrame, h]

section

variable (hl : m.lit = true)
include hl

/-- A FENCED port sends idle units under new numbers (R310). -/
theorem frameSend_fenced (hst : m.pstate p = pFENCED) : m.frameSend p =
    (m.putFrame p (m.port p).fseq idleUnits).onPort p fun y => { y with fseq := ((m.port p).fseq + 1) % 65536 } := by
  simp only [Mod.frameSend, hl, hst, Bool.not_true, Bool.false_eq_true, if_false, if_true]

variable (hst : m.pstate p = pUP)
include hst

theorem frameSend_resends {f : Nat} (hr : (m.port p).resend = some f) : m.frameSend p = m.resendFrame p f := by
  simp only [Mod.frameSend, hl, hst, hr, Bool.not_true, Bool.false_eq_true, ne_eq, not_true_eq_false, if_false,
    if_neg (show pUP ≠ pFENCED by decide)]

/-- Fewer than 256 frames await an acknowledgement: a new one goes out (R294). -/
theorem frameSend_new (hr : (m.port p).resend = none) (hroom : ((m.port p).fseq + 65536 - (m.port p).acked) % 65536 < 256) :
    m.frameSend p =
      (let us := ((m.port p).stream ++ idleUnits).take 255
       (m.onPort p fun y => { y with
         stream := y.stream.drop 255, retry := y.retry ++ [((m.port p).fseq, us)], fseq := ((m.port p).fseq + 1) % 65536 }).putFrame p
           (m.port p).fseq us) := by
  simp only [Mod.frameSend, hl, hst, hr, Bool.not_true, Bool.false_eq_true, ne_eq, not_true_eq_false, if_false,
    if_neg (show pUP ≠ pFENCED by decide), ge_iff_le, if_neg (Nat.not_le.2 hroom)]

end

/-! ## Link control units (R292, R310) -/

section

variable {u : Unit16} (hl : m.lit = true) (hst : m.pstate p = pUP)
include hl hst

theorem takeLcu_up : m.takeLcu p u =
    if lcuFence u then (m.onPort p fun x => { x with peerFences := lcuFence u }).peerFence p
    else (m.onPort p fun x => { x with peerFences := lcuFence u }).lcuCounts p u := by
  have hruns : ¬(pUP = pDISABLED ∨ pUP = pDOWN ∨ (!m.lit) = true) := by rw [hl]; decide
  simp only [Mod.takeLcu, hst, if_neg hruns, if_neg (show pUP ≠ pFENCED by decide), if_true]

theorem takeLcu_counts (hf : lcuFence u = false) :
    m.takeLcu p u = (m.onPort p fun x => { x with peerFences := false }).lcuCounts p u := by
  rw [takeLcu_up hl hst, hf, if_neg Bool.false_ne_true]

theorem takeLcu_fences (hf : lcuFence u = true) :
    m.takeLcu p u = (m.onPort p fun x => { x with peerFences := true }).peerFence p := by
  rw [takeLcu_up hl hst, hf, if_pos rfl]

end

/-! ## Packets sent, and silence (R298, R299, R306, R312) -/

theorem packetSend_granted {c g : Nat} {e : Pkt × Option Nat} (hst : m.pstate p = pUP) (hp : (m.port p).peerFences = false)
    (hfull : (m.port p).fifoFull = false) (hg : m.grant (512 + p) ((m.port p).sendRequests p) c = some g)
    (he : (m.port p).sendable p g = some e) :
    m.packetSend p c = ((((m.granted (512 + p) ((m.port p).sendRequests p) g).onPort p fun x => { x with
      ready := x.ready.erase e, stream := x.stream ++ pktUnits e.1
      used := tset (fun _ => 0) x.used g ((tget (fun _ => 0) x.used g + pktSize e.1) % 65536) }).count
        (LNK.SN_TX_UNITS_LO.o p) (pktSize e.1)).progress (136 + p)) := by
  have hmay : ¬(m.pstate p ≠ pUP ∨ (m.port p).peerFences = true ∨ (m.port p).fifoFull = true) := by simp [hst, hp, hfull]
  simp only [Mod.packetSend, if_neg hmay, hg, he]

theorem linkDown_up (hst : m.pstate p = pUP) : m.linkDown p =
    ((m.onPort p fun x => { x with reup := some (m.peer p, m.peerPort p) }).enterDown p).raiseLNK 2 p (m.peer p) :=
  if_neg (not_not_intro hst)

theorem heartbeatSend_alive (hd : m.dup.dead = false) : m.heartbeatSend =
    (let pay := leBytes 6 m.vine.step ++ leBytes 6 (checkedOut m.vine.checked) ++ leBytes 2 m.dup.hbNumber ++ leBytes 1 m.role ++ [0]
     ((List.range 8).foldl (fun t p =>
       if t.is (LNK.PORT_CTL.HB_EN p) && t.pstate p == pUP then
         t.sendOut p (t.peer p) (t.tagFor t.steps.oldest) clsCTRL 1 0 pay else t) m).dupOf fun d => { d with
         hbNumber := (m.dup.hbNumber + 1) % 65536 }) :=
  if_neg (by rw [hd]; exact Bool.false_ne_true)

theorem hbMiss_due (hen : m.is (LNK.PORT_CTL.HB_EN p) = true) (hs : (m.port p).hbSilent = false) : m.hbMiss p =
    (let t := (m.onPort p fun x => { x with hbSilent := true }).raiseLNK 7 p (m.peer p)
     if p = t.pport then t.dupOf fun d => { d with signal := some 2 } else t) :=
  if_neg (by simp [hen, hs])

end

/-- Settles O33: each command where the port is in the state that the command needs. -/
theorem linkCommandsComplete : Obligations.LinkCommandsComplete := by
  unfold Obligations.LinkCommandsComplete
  refine fun s p => ⟨fun fseq units fcrc ce ue m ps h => ?_, fun hl hst hr hroom => ?_, fun f hl hst hr => ?_, fun hl hst => ?_,
    fun u hl hst => ⟨fun hf => ?_, fun hf => ?_⟩, fun c g e hst hp hfull hg he => ?_, fun hst => ?_, fun hd => ?_, fun hen hs => ?_⟩
  · rw [exec_frameReceive, takeFrame_delivers h]
  · rw [exec_frameSend, frameSend_new hl hst hr hroom]
  · rw [exec_frameSend, frameSend_resends hl hst hr]
  · rw [exec_frameSend, frameSend_fenced hl hst]
  · rw [exec_lcu, takeLcu_counts hl hst hf]
  · rw [exec_lcu, takeLcu_fences hl hst hf]
  · rw [exec_packetSend, packetSend_granted hst hp hfull hg he]
  · rw [exec_lcuTimeout, linkDown_up hst]
  · rw [exec_heartbeatSend, heartbeatSend_alive hd]
  · rw [exec_hbMiss, hbMiss_due hen hs]

end Sys2Proof.Machine
end

section
/-! SUPPORT. The host adapter on P7 of the bridge (R320, R335, R459, R460): its packets reach the rule that names them, and what each rule answers. -/

namespace Sys2Proof.Machine

/-- Whether a packet on P7 goes to the host adapter's rules once it has passed the header checks: the port is UP and faces a host adapter, the
module is the active bridge and runs outside field test, the packet is not late, and no parity error is to come on its way. -/
structure Mod.hosts (m : Mod) (p : Pkt) : Prop where
  up : m.pstate 7 = pUP
  runs : m.fetching_ = false
  adapter : m.hostPort 7 = true
  bridge : m.bridging = true
  inTime : m.lateWarm p = false
  noTest : m.is TST.CFG.MODE = false
  noParity : m.memside.paths.contains 143 = false

section

variable {m : Mod} {p : Pkt}

theorem fromHost_request (hb : m.bridging = true) (hc : p.cls.toNat = clsREQ) (ht : p.typ.toNat ≤ 1) : m.fromHost p = true := by
  simp [Mod.fromHost, hb, hc, ht]

/-- A READ or WRITE of the host adapter that passes the header checks is taken by the rule that names it (R320). -/
theorem receivePkt_host (h : m.hosts p) (hok : pktOk p = true) (hc : p.cls.toNat = clsREQ) (ht : p.typ.toNat ≤ 1) :
    m.receivePkt 7 p = m.takeHost p := by
  have hctl : p.cls.toNat ≠ 0 := by rw [hc]; decide
  unfold Mod.receivePkt Mod.portPacket
  rw [if_neg (not_not_intro h.up), if_neg (by simp [h.runs]), if_neg (by simp [hok]), if_neg (by simp [h.inTime]), if_neg (by simp [h.noTest]),
    if_neg (by rw [h.noParity]; decide), if_neg hctl, if_pos h.adapter, if_pos (fromHost_request h.bridge hc ht)]

/-- A request's row is late exactly when its packet is: the row leaves the tag alone. -/
theorem hosts_asRow (h : m.hosts p) (cls typ : Nat) : m.hosts (asRow p cls typ) :=
  ⟨h.up, h.runs, h.adapter, h.bridge, h.inTime, h.noTest, h.noParity⟩

end

section

variable {s : State} {p : Pkt} (h : s.hosts p)
include h

theorem row_hosts {typ : Nat} (hok : pktOk (asRow p 1 typ) = true) (ht : (asRow p 1 typ).typ.toNat ≤ 1) :
    run (fun m => m.rowPacket 7 p 1 typ) s = .next (s.after (s.takeHost (asRow p 1 typ))) := by
  rw [run_next]
  exact congrArg (fun m => Host.Outcome.next (s.after m)) (receivePkt_host (hosts_asRow h 1 typ) hok rfl ht)

theorem exec_write_host (hok : pktOk (asRow p 1 0) = true) :
    exec (.write 7 p) s = .next (s.after (s.takeHost (asRow p 1 0))) := row_hosts h hok (Nat.zero_le 1)

theorem exec_read_host (hok : pktOk (asRow p 1 1) = true) :
    exec (.read 7 p) s = .next (s.after (s.takeHost (asRow p 1 1))) := row_hosts h hok (Nat.le_refl 1)

end

section

variable {m : Mod} {p : Pkt}

/-! ## Which rule takes a request (R320) -/

/-- A WRITE that the bridge takes into its input window: of memory, addressed to the bridge, of 15 units at most, and inside both the window
and the workspace (R335; log entry 82). -/
def Mod.windowWrite (m : Mod) (p : Pkt) : Prop :=
  ioSpace (infoOf p) = 0 ∧ destOf p = m.id ∧ p.len.toNat ≤ 15 ∧ m.inWindow (ioOffset (infoOf p)) (ioBytes p) = true ∧
    m.inWork (ioOffset (infoOf p)) (ioBytes p) = true

theorem takeHost_window (hc : p.cls.toNat = 1) (ht : p.typ.toNat = 0) (h : m.windowWrite p) :
    m.takeHost p = m.hostWrite p (ioOffset (infoOf p)) (writeBytes p) := by
  have hspace : ioSpace (infoOf p) = 0 := h.1
  have hs : ioSpace (infoOf p) ≠ 2 := by rw [hspace]; decide
  unfold Mod.windowWrite at h
  simp only [Mod.takeHost, hc, ht, if_neg hs, if_pos h]

theorem takeHost_outside (hc : p.cls.toNat = 1) (ht : p.typ.toNat = 0) (h : ¬m.windowWrite p) (hs : ioSpace (infoOf p) ≠ 2) :
    m.takeHost p = refuseBy (toHost p) p 1 m := by
  unfold Mod.windowWrite at h
  simp only [Mod.takeHost, hc, ht, if_neg hs, if_neg h]

theorem takeHost_read (hc : p.cls.toNat = 1) (ht : p.typ.toNat = 1) (hs : ioSpace (infoOf p) ≠ 2) :
    m.takeHost p = m.doRead p (toHost p) := by
  simp only [Mod.takeHost, hc, ht, if_neg hs]

theorem takeHost_register (hc : p.cls.toNat = 1) (ht : p.typ.toNat = 0 ∨ p.typ.toNat = 1) (hs : ioSpace (infoOf p) = 2) :
    m.takeHost p = m.relayIn p := by
  rcases ht with ht | ht
  · simp only [Mod.takeHost, hc, ht, if_pos hs]
  · simp only [Mod.takeHost, hc, ht, if_pos hs]

/-! ## A WRITE into the input window (R335, R360) -/

/-- Whether a segment is the one of step `k` for the bridge's own input, which a copy of its partner's is not. -/
def ownInput (k : Nat) (x : Segment) : Bool := x.step == k && !x.copy

/-- The WRITE recorded as a Pod of the local step, unless no ledger is kept or the step has become unprotected (R357, R361). -/
def Mod.hostRecorded (m : Mod) (p : Pkt) : Mod :=
  let k := m.localStep
  if m.is LDG.CFG.ENABLE = true ∧
      ¬(m.ledger.fullSteps.contains k && m.ledger.input.any fun x => ownInput k x && x.unprot) = true then
    ((m.onInput (addPod (ownInput k) ⟨k, m.tagFor k, m.id, false, false, false, []⟩ { p with replay := false })).count
      LDG.SN_PODS_LO.o 1).count LDG.SN_POD_BYTES_LO.o (podBytes { p with replay := false })
  else m

/-- The WRITE recorded and its bytes written. -/
def Mod.hostStored (m : Mod) (p : Pkt) : Mod :=
  let t := m.hostRecorded p
  (t.store (By.hub (some (t.tagFor m.localStep))) (ioOffset (infoOf p)) (writeBytes p)).1.progress 150

/-- A WRITE of the step with tag `g` copied to the partner; the copy's number is noted, so that the partner's answer to it acknowledges the
WRITE. -/
def Mod.copyHostWrite (m : Mod) (g : Nat) (p : Pkt) : Mod :=
  (m.sendDup g 5 0 (pktBytes { p with replay := false })).ldg fun l => { l with inputAcks := l.inputAcks ++
    [(tget (fun _ => 0) m.router.seqs (((m.id * 8192 + m.dup.peerId) * 65536 + g) * 8 + clsDUP), p)] }

/-- What becomes of a WRITE once it is recorded and written depends on whether there is a partner. -/
theorem hostWrite_eq (m : Mod) (p : Pkt) : m.hostWrite p (ioOffset (infoOf p)) (writeBytes p) =
    if (m.hostStored p).dup.paired = true then (m.hostStored p).copyHostWrite ((m.hostStored p).tagFor m.localStep) p
    else toHost p (m.hostStored p) 0 p.seq.toNat [] := by
  unfold Mod.hostWrite Mod.hostStored Mod.hostRecorded
  simp only [Bool.not_eq_true, Bool.not_eq_true']
  rfl

theorem hostWrite_alone (hp : (m.hostStored p).dup.paired = false) :
    m.hostWrite p (ioOffset (infoOf p)) (writeBytes p) = toHost p (m.hostStored p) 0 p.seq.toNat [] := by
  rw [hostWrite_eq, if_neg (Bool.eq_false_iff.1 hp)]

theorem hostWrite_paired (hp : (m.hostStored p).dup.paired = true) : m.hostWrite p (ioOffset (infoOf p)) (writeBytes p) =
    (m.hostStored p).copyHostWrite ((m.hostStored p).tagFor m.localStep) p := by
  rw [hostWrite_eq, if_pos hp]

/-! ## Register accesses of the slice (R320, R460) -/

theorem relayIn_outside (h : m.inSlice (destOf p) = false) : m.relayIn p = refuseBy (toHost p) p 1 m := by
  rw [Mod.relayIn, h, if_neg Bool.false_ne_true]

theorem relayIn_inside (h : m.inSlice (destOf p) = true) : m.relayIn p = m.relayOn p := by
  rw [Mod.relayIn, if_pos h]

/-- A register access goes to the relay whether it reads or writes. -/
theorem exec_hostRegister {s : State} {cmd : Instr × Pkt} (h : s.hosts p)
    (hcmd : cmd ∈ [(Instr.write 7 p, asRow p 1 0), (.read 7 p, asRow p 1 1)])
    (hok : pktOk cmd.2 = true) (hs : ioSpace (infoOf cmd.2) = 2) : exec cmd.1 s = .next (s.after (s.relayIn cmd.2)) := by
  rcases List.mem_pair.1 hcmd with rfl | rfl
  · rw [exec_write_host h hok, takeHost_register rfl (.inl rfl) hs]
  · rw [exec_read_host h hok, takeHost_register rfl (.inr rfl) hs]

end

/-- Settles O35: the request reaches the host adapter's rule, which takes a WRITE by its window, a READ by its cases as of any request, and a
register access by its destination. -/
theorem hostRequestsComplete : Obligations.HostRequestsComplete := by
  unfold Obligations.HostRequestsComplete
  intro s p hup hruns hport hbridge hlate htest hparity
  have h : s.hosts p := ⟨hup, hruns, hport, hbridge, hlate, htest, hparity⟩
  refine ⟨fun hok => ⟨fun hfits hp => ?_, fun hfits hp => ?_, fun hfits hs => ?_⟩,
    fun hok hs => ⟨fun hn => ?_, fun r h0 hmax hr => ?_, fun x m bs h0 hmax hx hl => ?_, fun x m h0 hmax hx hl => ?_⟩,
    fun cmd hcmd hok hs => ⟨fun hd => ?_, fun hd => ?_⟩⟩
  · have halone : (s.hostStored (asRow p 1 0)).dup.paired = false := hp
    rw [exec_write_host h hok, takeHost_window rfl rfl hfits, hostWrite_alone halone]; rfl
  · have hpair : (s.hostStored (asRow p 1 0)).dup.paired = true := hp
    rw [exec_write_host h hok, takeHost_window rfl rfl hfits, hostWrite_paired hpair]; rfl
  · rw [exec_write_host h hok, takeHost_outside rfl rfl hfits hs]; rfl
  · rw [exec_read_host h hok, takeHost_read rfl rfl hs, doRead_badCount hn]; rfl
  · rw [exec_read_host h hok, takeHost_read rfl rfl hs, doRead_refused h0 hmax hr]; rfl
  · rw [exec_read_host h hok, takeHost_read rfl rfl hs, doRead_memory h0 hmax hx hs hl]; rfl
  · rw [exec_read_host h hok, takeHost_read rfl rfl hs, doRead_uncorrectable h0 hmax hx hs hl]; rfl
  · rw [exec_hostRegister h hcmd hok hs, relayIn_outside hd]; rfl
  · rw [exec_hostRegister h hcmd hok hs, relayIn_inside hd]; rfl

end Sys2Proof.Machine
end

section
/-! SUPPORT. The Vine (R28, R337–R339) and the collectives engine's own events (R332): packets between parent and child, the timers, the
step boundary, and the start and end of an entry. -/

namespace Sys2Proof.Machine

section

variable {s : State} {port : Fin 8} {p : Pkt}

theorem exec_vineSyncReq {t2 t3 : DWord} (h : s.admits port.val (syncRow p 0) = true) :
    exec (.vineSyncReq port p t2 t3) s = .next (s.after (s.syncReq port.val (syncRow p 0) t2 t3)) :=
  congrArg (fun m => Host.Outcome.next (s.after m)) (if_pos h)

theorem exec_vineSyncResp {t4 : DWord} (h : s.admits port.val (syncRow p 1) = true) :
    exec (.vineSyncResp port p t4) s = .next (s.after (s.syncResp (syncRow p 1) t4)) :=
  congrArg (fun m => Host.Outcome.next (s.after m)) (if_pos h)

theorem exec_vineSyncTimer (t1 : DWord) (s : State) :
    exec (.vineSyncTimer t1) s = .next (s.after (s.toMod.syncTimer t1)) := rfl

theorem exec_holdover (s : State) : exec .holdover s = .next (s.after s.toMod.holdover) := rfl

theorem exec_vineUpTimer (s : State) : exec .vineUpTimer s = .next (s.after s.toMod.upTimer) := rfl

theorem exec_stepBoundary (s : State) : exec .stepBoundary s = .next (s.after s.toMod.announced) := rfl

theorem exec_collWaitPoll (s : State) : exec .collWaitPoll s = .next (s.after s.toMod.collPoll) := rfl

theorem exec_collEntryDone (s : State) : exec .collEntryDone s = .next (s.after s.toMod.entryDone) := rfl

end

section

variable {m : Mod} {p : Pkt} {port : Nat}

/-! ## The exchange with the parent, and what goes up and down the tree (R337, R339) -/

section

variable (hon : m.vineOn = true)
include hon

theorem vine_runs : ¬(!m.vineOn) = true := by simp [hon]

theorem syncReq_answered (t2 t3 : DWord) : m.syncReq port p t2 t3 =
    (m.vineSend port (srcOf p) 3 1 (leBytes 8 t2.toNat ++ leBytes 8 t3.toNat)).progress 149 := if_neg (vine_runs hon)

/-- The answer to a request that is open corrects time and rate, and the module locks. -/
theorem syncResp_awaited {t1 : Nat} (ht : m.vine.t1 = some t1) (t4 : DWord) : m.syncResp p t4 =
    (let d := vineDelta t1 (payNat p 0 8) (payNat p 8 8) t4.toNat
     let t := m.vineOf fun v => { v with
       t1 := none, time := v.time + BitVec.ofInt 64 (d.tdiv 2), rate := Config.rateTrend v.rate d }
     (((t.lset VIN.SN_CORR.o (BitVec.ofInt 32 (d * 500)).toNat).count VIN.SN_SYNC_LO.o 1).vineLock).progress 149) := by
  simp only [Mod.syncResp, ht, if_neg (vine_runs hon)]

theorem takeUp_child (hchild : m.children.contains port = true) : m.takeUp port p =
    (m.vineOf fun v => { v with
      below := (v.below.filter (·.1 != port)) ++ [(port, payNat p 0 6, checkedIn (payNat p 6 6))] }).progress 149 :=
  if_neg (by rw [hon, hchild]; decide)

theorem takeAnn_waits : m.takeAnn port p =
    ((m.vineOf fun v => { v with anns := v.anns ++ [(payNat p 0 6, checkedIn (payNat p 6 6), payNat p 16 8)] }).sendAnn
      (payNat p 0 6) (checkedIn (payNat p 6 6)) (payNat p 16 8) (some port)).progress 149 := if_neg (vine_runs hon)

/-! ## The timers (R337–R339) -/

theorem syncTimer_root (hroot : m.noteParent.isRoot = true) (t1 : DWord) : m.syncTimer t1 = m.noteParent.vineLock := by
  simp only [Mod.syncTimer, if_neg (vine_runs hon), if_pos hroot]

theorem syncTimer_asks {q id : Nat} (hroot : m.noteParent.isRoot = false) (hparent : m.noteParent.parentOf m.noteParent.id = some (q, id))
    (hup : m.noteParent.pstate q = pUP) (t1 : DWord) : m.syncTimer t1 =
    (m.noteParent.vineOf fun v => { v with t1 := some t1.toNat }).vineSend q id 3 0 (List.replicate 16 0) := by
  simp only [Mod.syncTimer, if_neg (vine_runs hon), hroot, if_neg Bool.false_ne_true, hparent, if_neg (not_not_intro hup)]

theorem upTimer_member (hroot : m.isRoot = false) : m.upTimer = m.sendUp := if_pos ⟨hon, by rw [hroot]; rfl⟩

end

theorem holdover_enabled (hen : m.is VIN.CFG.ENABLE = true) (hdown : m.down 149 = false) :
    m.holdover = (m.sets [(VIN.STAT.HOLDOVER, 1), (VIN.STAT.LOCKED, 0)]).raiseVIN 2 :=
  if_neg (by rw [hen, hdown]; decide)

/-! ## The step boundary (R28, R339, R394) -/

/-- With no checkpoint under way, what a checkpoint reads from now on is of the step before the announced one. -/
def Mod.boundaryTag (m : Mod) (x : Nat) : Mod :=
  if m.ckpt.order = 0 then m.ckptOf fun y => { y with tag := m.tagFor (x - 1) } else m

theorem boundaryTag_vine (m : Mod) (x : Nat) : (m.boundaryTag x).vine = m.vine := by
  unfold Mod.boundaryTag
  split <;> rfl

section

variable {x c t : Nat} {rest : List (Nat × Nat × Nat)} (h : m.vine.anns = (x, c, t) :: rest)
include h

theorem stepBoundary_earliest : m.stepBoundary = (m.vineOf fun v => { v with anns := rest }).boundary x c := by
  simp only [Mod.stepBoundary, h]

/-- The earliest announcement is taken; where it advances the step counter the start word follows. -/
theorem announced_earliest : m.announced =
    (let m' := ((m.boundaryTag x).vineOf fun v => { v with anns := rest }).boundary x c
     if m.vine.step < x then m'.submitStart x t else m') := by
  have hb : (m.boundaryTag x).stepBoundary = ((m.boundaryTag x).vineOf fun v => { v with anns := rest }).boundary x c :=
    stepBoundary_earliest ((congrArg Vine.anns (boundaryTag_vine m x)).trans h)
  rw [← hb]
  simp only [Mod.announced, h, decide_eq_true_eq]
  rfl

end

/-! ## The collectives engine (R332) -/

/-- The engine's next entry passes its checks and its count is reached: it starts on the source words read. -/
theorem collPoll_starts {m₁ m₂ m₃ : Mod} {e : CollE} {w : Nat} {bs : List Byte}
    (hruns : m.collRuns = true) (hidle : m.coll.started = false) (hrerun : m.steps.rerun = none)
    (hin : m.collMark.inWork (m.collMark.collProg + 64 * m.collMark.collCur) 64 = true)
    (hentry : m.collMark.collRead m.collMark.collCur = (m₁, some e)) (hok : m₁.collCheck e = 0)
    (hcount : m₁.loadNat (By.hub (some m.collMark.coll.tag)) e.waitAddr 4 = (m₂, some w))
    (hdue : (w + 2 ^ 32 - (e.waitVal + m₂.coll.iter * e.waitInc) % 2 ^ 32) % 2 ^ 32 < 2 ^ 31)
    (hsrc : m₂.load (By.hub (some m.collMark.coll.tag)) e.src (m₂.srcBytes e) = (m₃, some bs)) :
    m.collPoll = m₃.collStart e bs := by
  simp only [Mod.collPoll, hruns, hidle, hrerun, hin, hentry, hok, hcount, hsrc, Bool.not_true, Bool.false_eq_true, if_false,
    Option.isSome_none, if_neg (Nat.not_le.2 hdue)]

theorem entryDone_visible (hruns : m.collRuns = true) (hstarted : m.coll.started = true)
    (hphase : (m.collPhases (m.collPeek m.collCur)).length ≤ m.coll.phase) (hack : m.coll.partnerAck = 0) :
    m.entryDone = m.entryEnds := by
  simp only [Mod.entryDone, hruns, hstarted, hack, Bool.not_true, Bool.false_eq_true, ne_eq, not_true_eq_false, false_or, or_false,
    if_neg (Nat.not_lt.2 hphase)]

end

/-- Settles O39: each packet reaches the Vine, which runs. -/
theorem vinePacketsComplete : Obligations.VinePacketsComplete := by
  unfold Obligations.VinePacketsComplete
  refine fun s port p hs => ⟨fun t2 t3 hq => ?_, fun t4 t1 hq ht => ?_, fun m hq hon hchild => ?_, fun m hq hon => ?_⟩
  · rw [exec_vineSyncReq hq, syncReq_answered hs]
  · rw [exec_vineSyncResp hq, syncResp_awaited hs ht]
  · rw [exec_vineUp hq, takeUp_child hon hchild]
  · rw [exec_vineAnn hq, takeAnn_waits hon]

/-- Settles O42: each event where the engine or the Vine is in the state that the event is for. -/
theorem collectiveAndVineEventsComplete : Obligations.CollectiveAndVineEventsComplete := by
  unfold Obligations.CollectiveAndVineEventsComplete
  refine fun s => ⟨fun m₁ m₂ m₃ e w bs hruns hidle hrerun hin hentry hok hcount hdue hsrc => ?_, fun hruns hstarted hphase hack => ?_,
    fun t1 hon => ⟨fun hroot => ?_, fun p id hroot hparent hup => ?_⟩, fun hen hdown => ?_, fun hon hroot => ?_, fun x c t rest h => ?_⟩
  · rw [exec_collWaitPoll, collPoll_starts hruns hidle hrerun hin hentry hok hcount hdue hsrc]
  · rw [exec_collEntryDone, entryDone_visible hruns hstarted hphase hack]
  · rw [exec_vineSyncTimer, syncTimer_root hon hroot]
  · rw [exec_vineSyncTimer, syncTimer_asks hon hroot hparent hup]
  · rw [exec_holdover, holdover_enabled hen hdown]
  · rw [exec_vineUpTimer, upTimer_member hon hroot]
  · rw [exec_stepBoundary, announced_earliest h]; rfl

end Sys2Proof.Machine
end

section
/-! SUPPORT. No step leaves a fault uncharged (R538): a command ends with the charging of its faults, and what follows that brings up none. -/

namespace Sys2Proof.Machine

/-- The two ways in which a command ends: its work waits while a PHY is stopped with the resonator (R17), or it waits for none. -/
inductive Ends (s : State) : Host.Outcome State Fault Refusal → Prop
  | waits (f : Mod → Mod) : Ends s (run f s)
  | now (f : Mod → Mod) : Ends s (runNow f s)

/-- Every command ends in one of the two ways. -/
theorem exec_ends (c : Instr) (s : State) : Ends s (exec c s) := by
  unfold exec
  cases c <;> constructor

/-! ## The end of a command -/

theorem chargeFaults_noFaultLeft (m : Mod) : m.chargeFaults.noFaultLeft := by
  unfold Mod.chargeFaults
  split
  next h => exact List.isEmpty_iff.1 h
  next => rfl

theorem settle_noFaultLeft (m : Mod) : m.settle.noFaultLeft := chargeFaults_noFaultLeft _

theorem sets_steps (m : Mod) (l : List (Field × Nat)) : (m.sets l).steps = m.steps :=
  foldl_keeps (f := fun (t : Mod) (e : Field × Nat) => t.set e.1 e.2) Mod.steps (fun t e _ => Mod.set_steps t e.1 e.2) m

/-- A window read fills registers and touches no step (R237). -/
@[simp] theorem windowRead_steps (m : Mod) : m.windowRead.steps = m.steps := by
  simp only [Mod.windowRead, Mod.hltOf_steps, sets_steps]
  exact foldl_keeps Mod.steps (fun t _ _ => Mod.wr_steps t _ _) m

@[simp] theorem windowDone_steps (m : Mod) : m.windowDone.steps = m.steps := by
  unfold Mod.windowDone
  split
  · exact windowRead_steps m
  · rfl

@[simp] theorem leaves_steps (m t : Mod) : (m.leaves t).steps = t.steps := by
  unfold Mod.leaves
  dsimp only
  split <;> split <;> simp only [windowDone_steps]

theorem now_noFaultLeft (s : State) (m : Mod) : (s.now m).noFaultLeft :=
  (congrArg Steps.todo (leaves_steps s.toMod m.settle)).trans (settle_noFaultLeft m)

/-- A command that waits leaves the module as it was; any other leaves it with its faults charged. -/
theorem after_noFaultLeft {s : State} (h : s.noFaultLeft) (m : Mod) : (s.after m).noFaultLeft := by
  by_cases hw : m.settle.power.phyWait = true
  · rw [Mod.noFaultLeft, State.after_toMod, waitsPhy_waits hw]; exact h
  · rw [Mod.noFaultLeft, State.after_toMod, Mod.waitsPhy, if_neg hw]; exact now_noFaultLeft s m

/-! ## A nanosecond without a command -/

theorem resumeArrays_steps (m : Mod) : m.resumeArrays.steps = m.steps := by
  refine foldl_keeps Mod.steps (fun t n _ => ?_) m
  dsimp only
  split <;> rfl

/-- The time and the activity counters move, and no step does. -/
theorem tick_steps (m : Mod) : m.tick.steps = m.steps := by
  have hcounts : ∀ (l : List Nat) (o : Nat → Nat) (t : Mod), (l.foldl (fun t n => t.count (o n) 1) t).steps = t.steps :=
    fun _ _ => foldl_keeps Mod.steps fun _ _ _ => rfl
  unfold Mod.tick
  simp only [apply_ite Mod.steps, Mod.count_steps, hcounts, ite_self, windowDone_steps, resumeArrays_steps]

theorem idle_noFaultLeft {s : State} (h : s.noFaultLeft) : (idle s).noFaultLeft :=
  (congrArg Steps.todo (tick_steps s.toMod)).trans h

/-- Whichever way a command ends, it leaves no uncharged fault if the state that it found held none. -/
theorem Ends.noFaultLeft {s t : State} {o : Host.Outcome State Fault Refusal} (he : Ends s o) (ho : o = .next t) (hs : s.noFaultLeft) :
    t.noFaultLeft := by
  cases he with
  | waits f => cases ho; exact after_noFaultLeft hs _
  | now f => cases ho; exact now_noFaultLeft s _

/-- Settles O5: a step is an idle nanosecond, which meets no fault, or a command, whose end charges those that it met. -/
theorem noStepLeavesAFault : Obligations.NoStepLeavesAFault := by
  unfold Obligations.NoStepLeavesAFault
  intro s t hs h
  unfold step at h
  split at h
  next => cases h; exact idle_noFaultLeft hs
  next c rest _ => exact (exec_ends c { s with pending := rest }).noFaultLeft h hs

/-- Settles O6: reset states no fault and no command. -/
theorem resetHoldsNoFault : Obligations.ResetHoldsNoFault := ⟨rfl, rfl⟩

end Sys2Proof.Machine
end

section
/-! SUPPORT. Accepted writes of `TKO_CTL` and of `DUP.CFG` (R345, R368, R375, R379, R381): the word, then what its command bits and the role
asked for do. -/

namespace Sys2Proof.Machine

section

variable {m : Mod} {a : Agent} {v : Word}

/-- What the command bits of `TKO_CTL` do, in the order in which a write of several has them done. -/
def Mod.takeoverOrders (m : Mod) (v : Word) : Mod :=
  let m := if DUP.TKO_CTL.ARM.get v ≠ 0 then m.set DUP.ROLE.ARMED 1 else m
  let m := if DUP.TKO_CTL.DISARM.get v ≠ 0 then m.set DUP.ROLE.ARMED 0 else m
  let m := if DUP.TKO_CTL.CONFIRM.get v ≠ 0 then m.set DUP.ROLE.TKO_PENDING 0 else m
  let m := if DUP.TKO_CTL.REVERSE.get v ≠ 0 then (m.set DUP.ROLE.TKO_PENDING 0).startSwap true else m
  let m := if DUP.TKO_CTL.SWAP_GO.get v ≠ 0 then m.startSwap false else m
  if DUP.TKO_CTL.MFILL_GO.get v ≠ 0 then m.startFill 2 else m

/-- `DUP.TKO_CTL`: no other register asks for a role or clears `ENABLE`. -/
theorem regApply_takeoverCtl : m.regApply a DUP.TKO_CTL.o v = (m.withWord a DUP.TKO_CTL.o v).takeoverOrders v := by
  have hask : m.roleAsked (m.regW a DUP.TKO_CTL.o v) = none := if_pos (by rw [regW_off]; decide)
  have hclears : (m.regW a DUP.TKO_CTL.o v).clears DUP.CFG.ENABLE = false := by
    rw [regW_clears, decide_eq_false (by decide), Bool.false_and, Bool.false_and]
  rw [regApply_of (by decide), regAct_DUP (regW_block (by decide))]
  simp (disch := decide) only [actDUP, hask, hclears, regW_one_own, decide_eq_true_eq, Bool.false_eq_true, if_false, Mod.takeoverOrders]

/-- A write of `DUP.CFG` that leaves `ENABLE` as it is gives the role that it asks for (R345). -/
theorem regApply_roleAsked {r : Nat} (hen : DUP.CFG.ENABLE.get v = m.f DUP.CFG.ENABLE)
    (hask : m.roleAsked (m.regW a DUP.CFG.o v) = some r) : m.regApply a DUP.CFG.o v = (m.withWord a DUP.CFG.o v).setRole r := by
  have hclears : (m.regW a DUP.CFG.o v).clears DUP.CFG.ENABLE = false := by
    rw [regW_clears_own (by decide), decide_eq_false_iff_not]
    exact fun h => is_true.1 h.1 (hen.symm.trans h.2)
  rw [regApply_of (by decide), regAct_DUP (regW_block (by decide))]
  simp (disch := decide) only [actDUP, hask, hclears, regW_one_other, Bool.false_eq_true, if_false]

end

/-- Settles O16: each command is the write of `TKO_CTL`, of whose orders the one bit set gives one, or of `DUP.CFG`. -/
theorem duplexRegisterCommandsComplete : Obligations.DuplexRegisterCommandsComplete := by
  unfold Obligations.DuplexRegisterCommandsComplete
  refine fun s => ⟨fun a v h hv hd hc hr hs hf => ?_, fun a v h hv ha hc hr hs hf => ?_, fun a v h hv ha hd hr hs hf => ?_,
    fun a v h hv ha hd hc hs hf => ?_, fun a v h hv ha hd hc hr hf => ?_, fun a v h hv ha hd hc hr hs => ?_,
    fun a v r h hen hask => ?_⟩
  · rw [exec_acceptedWrite rfl h, regApply_takeoverCtl]
    simp only [Mod.takeoverOrders, if_pos hv, hd, hc, hr, hs, hf, ne_eq, not_true_eq_false, if_false]
  · rw [exec_acceptedWrite rfl h, regApply_takeoverCtl]
    simp only [Mod.takeoverOrders, if_pos hv, ha, hc, hr, hs, hf, ne_eq, not_true_eq_false, if_false]
  · rw [exec_acceptedWrite rfl h, regApply_takeoverCtl]
    simp only [Mod.takeoverOrders, if_pos hv, ha, hd, hr, hs, hf, ne_eq, not_true_eq_false, if_false]
  · rw [exec_acceptedWrite rfl h, regApply_takeoverCtl]
    simp only [Mod.takeoverOrders, if_pos hv, ha, hd, hc, hs, hf, ne_eq, not_true_eq_false, if_false]
  · rw [exec_acceptedWrite rfl h, regApply_takeoverCtl]
    simp only [Mod.takeoverOrders, if_pos hv, ha, hd, hc, hr, hf, ne_eq, not_true_eq_false, if_false]
  · rw [exec_acceptedWrite rfl h, regApply_takeoverCtl]
    simp only [Mod.takeoverOrders, if_pos hv, ha, hd, hc, hr, hs, ne_eq, not_true_eq_false, if_false]
  · rw [exec_acceptedWrite rfl h, regApply_roleAsked hen hask]

end Sys2Proof.Machine
end

section
/-! SUPPORT. Tags and the packets that carry them (R352, R353, R364): a tag names its step, a stale packet is dropped, and a marked packet
that its tracker lets through is let through once. -/

namespace Sys2Proof.Machine

section

variable {m : Mod} {k : Nat}

/-! ## Tags (R352) -/

section

variable (ha : m.attempt k < 16)
include ha

theorem tagFor_lt : m.tagFor k < 65536 := by
  unfold Mod.tagFor
  omega

theorem tagFor_mod : m.tagFor k % 16 = m.attempt k := by
  unfold Mod.tagFor
  omega

theorem tagFor_step : m.tagFor k / 16 % 4096 = k % 4096 := by
  unfold Mod.tagFor
  omega

/-- The tag of a step within half the tag's range of the oldest unchecked step names that step. -/
theorem tagStep_tagFor (hlo : m.steps.oldest ≤ k + 2048) (hhi : k < m.steps.oldest + 2048) : m.tagStep (m.tagFor k) = k := by
  simp only [Mod.tagStep, tagFor_step ha]
  split <;> omega

end

/-- An unchecked step's tag is live at its current attempt alone, a checked step's as long as the step is not released. -/
theorem tagLive_unchecked {g : Nat} (h : m.steps.oldest ≤ m.tagStep g) : m.tagLive g = (g % 16 == m.attempt (m.tagStep g)) :=
  if_neg (Nat.not_lt.2 h)

theorem tagLive_checked {g : Nat} (h : m.tagStep g < m.steps.oldest) : m.tagLive g = decide (m.steps.released ≤ m.tagStep g) :=
  if_pos h

end

/-- Settles O55: the attempt fills the low four bits, and the steps within half the range are all different modulo 4096. -/
theorem tagsNameTheirStep : Obligations.TagsNameTheirStep := by
  unfold Obligations.TagsNameTheirStep
  refine fun m ha => ⟨fun k hlo hhi => ?_, fun k hhi hlo => ?_, fun j k hj hj' hk hk' h => ?_⟩
  · have hk := tagStep_tagFor (ha k) (by omega) hhi
    refine ⟨tagFor_lt (ha k), hk, tagFor_mod (ha k), ?_⟩
    rw [tagLive_unchecked (by rwa [hk]), hk, tagFor_mod (ha k), beq_self_eq_true]
  · have hk := tagStep_tagFor (ha k) hlo (by omega)
    refine ⟨hk, ?_⟩
    rw [tagLive_checked (by rwa [hk]), hk, decide_eq_true_iff]
  · rw [← tagStep_tagFor (ha j) (by omega) hj', h, tagStep_tagFor (ha k) (by omega) hk']

/-! ## Stale packets (R353) -/

section

variable {m : Mod}

/-- A tag that names an unchecked step at another attempt, or a released step. -/
def Mod.tagStale (m : Mod) (g : Nat) : Prop :=
  (m.steps.oldest ≤ m.tagStep g ∧ g % 16 ≠ m.attempt (m.tagStep g)) ∨
    (m.tagStep g < m.steps.oldest ∧ m.tagStep g < m.steps.released)

theorem tagLive_stale {g : Nat} (h : m.tagStale g) : m.tagLive g = false := by
  rcases h with ⟨hk, hg⟩ | ⟨hk, hr⟩
  · rw [tagLive_unchecked hk, beq_eq_false_iff_ne.2 hg]
  · rw [tagLive_checked hk, decide_eq_false (Nat.not_le.2 hr)]

theorem tagCurrent_stale {g : Nat} (h : m.tagStale g) : m.tagCurrent g = false := by
  simp only [Mod.tagCurrent]
  rcases h with ⟨_, hg⟩ | ⟨_, hr⟩
  · rw [beq_eq_false_iff_ne.2 hg, Bool.and_false]
  · rw [decide_eq_false (Nat.not_le.2 hr), Bool.false_and]

/-- A stale packet of a step's work is dropped and counted, an ADD answered besides (R256). -/
theorem takeTagged_stale {q : Pkt} (h : m.tagStale (tagOf q)) (hfree : m.tagFree q = false) (port : Nat) :
    m.takeTagged port q =
      if q.cls.toNat = clsSQ then (m.count DUP.SN_GEN_DROP_LO.o 1).dropAdd q else m.count DUP.SN_GEN_DROP_LO.o 1 := by
  simp only [Mod.takeTagged, tagLive_stale h, tagCurrent_stale h, hfree, Bool.or_false, Bool.not_false, and_true, Bool.false_eq_true,
    if_false]

/-- A packet of classes 1 to 7 that passes the checks of the port and is this module's own is judged by its tag. -/
theorem receivePkt_tagged {port : Nat} {q : Pkt} (hup : m.pstate port = pUP) (hf : m.fetching_ = false) (hok : pktOk q = true)
    (hc : q.cls ≠ 0) (hhost : m.hostPort port = false) (hforeign : m.foreign port q = false) (hlate : m.lateWarm q = false)
    (htest : m.is TST.CFG.MODE = false ∨ testCarries q = true) (hparity : m.memside.paths.contains (136 + port) = false)
    (htakes : m.takes port q = true) (hpass : m.passesOn q = false)
    (hserve : ¬(m.boot.serving = some port ∧ q.cls.toNat = 2 ∧ q.typ.toNat ≠ 1 ∧ infoOf q % 2 ^ 24 = m.boot.serveSeq)) :
    m.receivePkt port q = m.takeTagged port q := by
  have hc' : q.cls.toNat ≠ 0 := fun e => hc (BitVec.eq_of_toNat_eq e)
  have htest' : ¬(m.is TST.CFG.MODE = true ∧ (!testCarries q) = true) := by
    rcases htest with h | h <;> simp only [h, Bool.false_eq_true, Bool.not_true, false_and, and_false, not_false_eq_true]
  simp only [Mod.receivePkt, Mod.portPacket, Mod.takeSlice, hup, hf, hok, hc', hhost, hforeign, hlate, hparity, htakes, hpass,
    if_neg htest', if_neg hserve, ne_eq, not_true_eq_false, Bool.false_eq_true, Bool.not_true, and_false, if_false]

end

/-- Settles O56: the checks before its tag let the packet pass, and its tag is stale. -/
theorem stalePacketsAreDropped : Obligations.StalePacketsAreDropped := by
  unfold Obligations.StalePacketsAreDropped
  intro m port q hup hf hok hc hhost hforeign hlate htest hparity htakes hpass hfree hserve hstale
  rw [receivePkt_tagged hup hf hok hc hhost hforeign hlate htest hparity htakes hpass hserve, takeTagged_stale hstale hfree]

/-! ## Marked packets (R356, R364) -/

/-- A counter raised by `n` shows it, modulo 2⁶⁴. -/
theorem cnt_count (m : Mod) (o n : Nat) : (m.count o n).cnt o = (m.cnt o + n) % 2 ^ 64 := by
  simp only [Mod.count, Mod.cnt, Mod.lv_lset]
  rw [if_neg (by omega : o ≠ o + 4)]
  simp only [if_true]
  omega

/-- The tracker that a packet is judged by: of its destination, source, class and the parity of its step. -/
def Mod.trackKey (m : Mod) (p : Pkt) : Nat := ((destOf p * 8192 + srcOf p) * 8 + p.cls.toNat) * 2 + m.tagStep (tagOf p) % 2

/-- The tag and the next sequence number that a tracker holds. -/
def Mod.tracked (m : Mod) (key : Nat) : Nat × Nat := tget (fun _ => (0, 0)) m.ledger.trackers key

@[simp] theorem tracked_setTracker (m : Mod) (key tag w : Nat) : (m.setTracker key tag w).tracked key = (tag, w) :=
  tget_tset_same _ _ _

/-- A tracker as a packet finds it: a current tag other than the one that it holds starts it anew (R364). -/
def Mod.trackerFor (m : Mod) (p : Pkt) : Nat × Nat :=
  let t := m.tracked (m.trackKey p)
  (if m.tagCurrent (tagOf p) then tagOf p else t.1, if t.1 != tagOf p && m.tagCurrent (tagOf p) then 0 else t.2)

section

variable {m : Mod} {p : Pkt} (hen : m.is LDG.CFG.ENABLE = true) (hp : p.marked = true)
include hen hp

/-- With the ledger on, a marked packet is let through where its number is the one that its tracker awaits for its tag. -/
theorem track_marked : m.track p =
    if p.seq.toNat = (m.trackerFor p).2 ∧ (m.trackerFor p).1 = tagOf p then
      (m.setTracker (m.trackKey p) (m.trackerFor p).1 (((m.trackerFor p).2 + 1) % 2 ^ 24), true)
    else
      ((if m.trackerFor p = m.tracked (m.trackKey p) then m
        else m.setTracker (m.trackKey p) (m.trackerFor p).1 (m.trackerFor p).2).count DUP.SN_DUPDISC_LO.o 1, false) :=
  if_neg (by rw [hen, hp]; decide)

/-- A marked packet that is let through moves its tracker on to the next number of its tag. -/
theorem track_applied {m₁ : Mod} (h : m.track p = (m₁, true)) :
    m₁ = m.setTracker (m.trackKey p) (tagOf p) ((p.seq.toNat + 1) % 2 ^ 24) := by
  rw [track_marked hen hp] at h
  split at h
  next hfits =>
    obtain ⟨hseq, htag⟩ := hfits
    rw [← hseq, htag] at h
    exact (congrArg Prod.fst h).symm
  next => exact absurd (congrArg Prod.snd h) Bool.false_ne_true

/-- One whose tracker holds its tag and awaits another number is discarded and counted. -/
theorem track_discarded {w : Nat} (ht : m.tracked (m.trackKey p) = (tagOf p, w)) (hw : p.seq.toNat ≠ w) :
    m.track p = (m.count DUP.SN_DUPDISC_LO.o 1, false) := by
  have hfinds : m.trackerFor p = (tagOf p, w) := by
    simp only [Mod.trackerFor, ht, bne_self_eq_false, Bool.false_and, Bool.false_eq_true, if_false, ite_self]
  rw [track_marked hen hp, hfinds, ht, if_neg fun h => hw h.1, if_pos rfl]

end

theorem trackKey_congr {m m₁ : Mod} {p p' : Pkt} (hsteps : m₁.steps = m.steps) (htag : tagOf p' = tagOf p) (hsrc : p'.src = p.src)
    (hdest : p'.dest = p.dest) (hcls : p'.cls = p.cls) : m₁.trackKey p' = m.trackKey p := by
  simp only [Mod.trackKey, Mod.tagStep, destOf, srcOf, hsteps, htag, hsrc, hdest, hcls]

/-- Settles O57: the tracker that let the packet through holds its tag and awaits the number after its own. -/
theorem markedPacketsApplyOnce : Obligations.MarkedPacketsApplyOnce := by
  unfold Obligations.MarkedPacketsApplyOnce
  intro m m₁ p p' hen hp hp' htrack hen₁ hsteps htag hseq hsrc hdest hcls
  have hkey : m₁.trackKey p' = m.trackKey p := trackKey_congr hsteps htag hsrc hdest hcls
  have hheld : m₁.tracked (m₁.trackKey p') = (tagOf p', (p'.seq.toNat + 1) % 2 ^ 24) := by
    rw [hkey, htag, hseq, track_applied hen hp htrack, tracked_setTracker]
  have hnext : p'.seq.toNat ≠ (p'.seq.toNat + 1) % 2 ^ 24 := by have := p'.seq.isLt; omega
  exact ⟨_, track_discarded hen₁ hp' hheld hnext, cnt_count m₁ _ 1⟩

end Sys2Proof.Machine
end

section
/-! SUPPORT. The events of a pair (R350, R370, R371, R380), each where it is due. -/

namespace Sys2Proof.Machine

theorem exec_recheckDone (s : State) : exec .recheckDone s = .next (s.after s.toMod.recheckDone) := rfl

theorem exec_rmSend (s : State) : exec .rmSend s = .next (s.after s.toMod.rmSend) := rfl

theorem exec_probeWaitExpiry (s : State) : exec .probeWaitExpiry s = .next (s.after s.toMod.probeExpiry) := rfl

theorem exec_fenceAckWaitExpiry (s : State) : exec .fenceAckWaitExpiry s = .next (s.after s.toMod.takeOver) := rfl

section

variable {m m₁ : Mod}

/-- The digests of a recheck that reads every unit of both regions are shown and sent (R350). -/
theorem recheckDone_read {mem : Tbl Byte} (hdue : m.dup.recheck = true) (hsent : m.dup.sentDigest = false)
    (hown : m.fetching 0 [(0, m.extent)] = false) (hmir : m.fetching 1 [(0, m.extent)] = false)
    (hsee : m.see ⟨3, some (m.tagFor m.upd.step), 1, 128⟩ [(0, m.extent), (m.regionBase 2, m.extent)] = (m₁, mem, true)) :
    m.recheckDone =
      (let t := m₁.updOf fun u => { u with
         digOwn := regionDigest mem 0 m.extent, digMir := regionDigest mem (m.regionBase 2) m.extent }
       ((t.showDigests).sendDigest true).dupOf fun d => { d with sentDigest := true }) := by
  have hgo : ¬((!m.dup.recheck) = true ∨ m.dup.sentDigest = true) := by simp [hdue, hsent]
  have hfetch : ¬(m.fetching 0 [(0, m.extent)] || m.fetching 1 [(0, m.extent)]) = true := by simp [hown, hmir]
  simp only [Mod.recheckDone, if_neg hgo, if_neg hfetch, hsee]

/-- A unit of the plan of a fill that can be read goes to the partner; the last one ends the sending (R380). -/
theorem rmSend_read {t o n : Nat} {bs : List Byte} (hp : m.dup.paired = true) (hrm : m.dup.rm = 1 ∨ m.dup.rm = 2)
    (hplan : planAt (m.fillPlan m.dup.rm) m.dup.rmUnit = some (t, o, n))
    (hload : m.load ⟨3, none, 3, 128⟩ (m.fetchBase (1 - t) + o) n = (m₁, some bs)) :
    m.rmSend =
      (let x := m₁.sendDup (m₁.blockTag (1 - t)) 6 (t + 4 * (o / 16)) bs
       let u := x.dup.rmUnit + 1
       let x := (x.dupOf fun d => { d with rmUnit := u }).count DUP.SN_RM_BYTES_LO.o n
       let x := (x.set DUP.RM_STAT.UNITS (planBytes (x.fillPlan x.dup.rm) u / 4096)).progress 151
       if (planAt (x.fillPlan x.dup.rm) u).isNone then x.fillDone x.dup.rm (x.updates (1 - t)) else x) := by
  have hgo : ¬(!m.dup.paired || (m.dup.rm != 1 && m.dup.rm != 2)) = true := by
    rcases hrm with h | h <;> simp [hp, h]
  simp only [Mod.rmSend, if_neg hgo, hplan, hload]

/-! ## A certain loss (R370, R377, R383) -/

/-- The module once a probe has ended. -/
def Mod.probed (m : Mod) : Mod := m.dupOf fun d => { d with probing := none }

theorem probeExpiry_probing {cause : Nat} (h : m.dup.probing = some cause) : m.probeExpiry = m.lossCertain cause := by
  simp only [Mod.probeExpiry, h]

/-- A PAIRED module whose plan is armed fences its partner and waits for the modules that face it. -/
theorem lossCertain_armed (cause : Nat) (hr : m.role = 1) (ha : m.is DUP.ROLE.ARMED = true) :
    m.lossCertain cause =
      m.probed.fencePartner.dupOf fun d => { d with takeover := some cause, awaiting := m.probed.facing m.dup.peerId } :=
  if_pos ⟨hr, ha⟩

/-- A SOLO module whose spare is lost stays SOLO. -/
theorem lossCertain_solo (cause : Nat) (hr : m.role = 2) (hf : m.dup.swapping = true ∨ m.dup.rm ≠ 0) :
    m.lossCertain cause = m.probed.fillFails.partnerGone :=
  (if_neg fun h => absurd (hr.symm.trans h.1) (by decide)).trans (if_pos ⟨hr, hf⟩)

/-- Any other loses both modules of the pair. -/
theorem lossCertain_double (cause : Nat) (hf : m.role = 2 → m.dup.swapping = false ∧ m.dup.rm = 0)
    (ha : m.role = 1 → m.is DUP.ROLE.ARMED = false) : m.lossCertain cause = m.probed.doubleLoss cause := by
  refine (if_neg fun h => ?_).trans (if_neg fun h => ?_)
  · exact Bool.false_ne_true ((ha h.1).symm.trans h.2)
  · obtain ⟨hs, hrm⟩ := hf h.1
    exact h.2.elim (fun h => Bool.false_ne_true (hs.symm.trans h)) fun h => h hrm

/-! ## Takeover (R371–R376) -/

/-- The takeover with a free entry in the table of lost identities (R321). -/
theorem takeOver_entered {cause e : Nat} (h : m.dup.takeover = some cause)
    (he : (List.range 32).find? (fun e => !m.becomeSolo.is (TOR.AL_ID.VALID e)) = some e) :
    m.takeOver =
      (let x := m.becomeSolo
       let ep := x.f DUP.TKO_EPOCH.EPOCH
       let k := m.steps.oldest
       let x := (x.setAlias e m.dup.peerId x.id k ep).bridgeLost m.dup.peerId
       let t := ((x.holeSetChange m.dup.peerId x.id).aliasOut m.dup.peerId x.id k ep).raiseDUP 3 m.dup.peerId cause k
       x.dup.later.foldl (fun t e => t.holeSetChange e.1 e.2) (t.dupOf fun d => { d with later := [] })) := by
  simp only [Mod.takeOver, h, he]

end

/-- Settles O43: each event where the pair is in the state that the event is for. -/
theorem duplexEventsComplete : Obligations.DuplexEventsComplete := by
  unfold Obligations.DuplexEventsComplete
  refine fun s => ⟨fun m mem hdue hsent hown hmir hsee => ?_, fun t o n m bs hp hrm hplan hload => ?_, fun cause hprobe => ?_,
    fun cause e htake he => ?_⟩
  · rw [exec_recheckDone, recheckDone_read hdue hsent hown hmir hsee]
  · rw [exec_rmSend, rmSend_read hp hrm hplan hload]
  · rw [exec_probeWaitExpiry, probeExpiry_probing hprobe]
    refine ⟨fun hr ha => ?_, fun hr hf => ?_, fun hf ha => ?_⟩
    · rw [lossCertain_armed cause hr ha]; rfl
    · rw [lossCertain_solo cause hr hf]; rfl
    · rw [lossCertain_double cause hf ha]; rfl
  · rw [exec_fenceAckWaitExpiry, takeOver_entered htake he]

end Sys2Proof.Machine
end

section
/-! SUPPORT. Steps: the front command alone takes effect, a queue is served in order, and a nanosecond without a command moves the time. -/

namespace Sys2Proof.Machine

/-! ## The front of the queue -/

theorem step_front {s : State} {c : Instr} {rest : List Instr} (h : s.pending = c :: rest) :
    step s = exec c { s with pending := rest } := by
  rw [step, h]

theorem step_idle {s : State} (h : s.pending = []) : step s = .next (idle s) := by
  rw [step, h]

/-- A command leaves the commands that wait behind it. -/
theorem step_next {s : State} {c : Instr} {rest : List Instr} (h : s.pending = c :: rest) :
    ∃ m : Mod, step s = .next { s with toMod := m, pending := rest } := by
  obtain ⟨m, hm⟩ := exec_next c { s with pending := rest }
  exact ⟨m, (step_front h).trans hm⟩

/-- Settles O1: it is the definition's case of a queue that is not empty. -/
theorem stepRunsFrontCommand : Obligations.StepRunsFrontCommand := by
  unfold Obligations.StepRunsFrontCommand
  exact fun _ _ _ => step_front

/-- Settles O3: every command answers a next state and leaves the queue. -/
theorem stepTakesExactlyTheFront : Obligations.StepTakesExactlyTheFront := by
  unfold Obligations.StepTakesExactlyTheFront
  intro s c rest h
  obtain ⟨m, hm⟩ := step_next h
  exact ⟨_, hm, rfl⟩

/-! ## A whole queue -/

theorem run_succ {s t : State} (k : Nat) (h : step s = .next t) : Sys2Proof.core.run (k + 1) s = Sys2Proof.core.run k t := by
  simp only [Host.Core.run, Sys2Proof.core, h]

theorem runInOrder_cons {c : Instr} {rest : List Instr} {s t : State} (h : exec c s = .next t) :
    runInOrder (c :: rest) s = runInOrder rest t := by
  simp only [runInOrder, h]

/-- A command takes no account of the commands that wait behind it. -/
theorem exec_withPending (c : Instr) (s : State) (l : List Instr) :
    ∃ m : Mod, exec c { s with pending := l } = .next { s with toMod := m, pending := l } ∧
      exec c { s with pending := [] } = .next { s with toMod := m, pending := [] } := by
  cases c <;> exact ⟨_, rfl, rfl⟩

/-- Settles O4, by induction on the commands that wait: the front one has the same effect on the module whatever waits behind it. -/
theorem queueIsServedInOrder : Obligations.QueueIsServedInOrder := by
  unfold Obligations.QueueIsServedInOrder
  intro l
  induction l with
  | nil =>
    intro s h
    exact ⟨s, rfl, h, congrArg some (by rw [← h])⟩
  | cons c rest ih =>
    intro s h
    obtain ⟨m, hwait, halone⟩ := exec_withPending c s rest
    obtain ⟨t, hrun, hempty, horder⟩ := ih { s with toMod := m, pending := rest } rfl
    exact ⟨t, (run_succ rest.length ((step_front h).trans hwait)).trans hrun, hempty, (runInOrder_cons halone).trans horder⟩

/-! ## A nanosecond without a command -/

section
variable {γ : Type} (g : Mod → γ)

/-- What no register and no mark of the health engine touches, a window read keeps (R237). -/
theorem windowDone_keeps (hwr : ∀ (t : Mod) o v, g (t.wr o v) = g t) (hhlt : ∀ (t : Mod) f, g (t.hltOf f) = g t) (m : Mod) :
    g m.windowDone = g m := by
  have hsets : ∀ (t : Mod) l, g (t.sets l) = g t := fun t _ => foldl_keeps g (fun b e _ => hwr b e.1.off _) t
  unfold Mod.windowDone
  split
  · simp only [Mod.windowRead, hhlt, hsets]
    exact foldl_keeps g (fun t _ _ => hwr t _ _) m
  · rfl

/-- What no array and no free value has part in, the arrays' return to activity keeps. -/
theorem resumeArrays_keeps (harr : ∀ (t : Mod) n x, g (t.setArr n x) = g t) (hfresh : ∀ t : Mod, g t.fresh.1 = g t) (m : Mod) :
    g m.resumeArrays = g m := by
  refine foldl_keeps g (fun t n _ => ?_) m
  dsimp only
  split
  · rw [harr, hfresh]
  · exact hfresh t

/-- What idling keeps: the arrays, free values, registers, marks of the health engine and counters move, and the time (R337, R484). -/
theorem tick_keeps (hwr : ∀ (t : Mod) o v, g (t.wr o v) = g t) (hhlt : ∀ (t : Mod) f, g (t.hltOf f) = g t)
    (harr : ∀ (t : Mod) n x, g (t.setArr n x) = g t) (hfresh : ∀ t : Mod, g t.fresh.1 = g t)
    (hcount : ∀ (t : Mod) o n, g (t.count o n) = g t) (m : Mod) :
    ∃ t : Mod, g t = g m ∧ m.tick = { t with vine := { t.vine with time := t.vine.time + 1 } } := by
  have hcounts : ∀ (l : List Nat) (o : Nat → Nat) (t : Mod), g (l.foldl (fun t n => t.count (o n) 1) t) = g t :=
    fun _ _ => foldl_keeps g fun t _ _ => hcount t _ _
  refine ⟨_, ?_, rfl⟩
  simp only [apply_ite g, hcount, hcounts, ite_self, windowDone_keeps g hwr hhlt, resumeArrays_keeps g harr hfresh]

end

/-- The parts of a module that idling leaves, but for the time. -/
def Mod.atRest (m : Mod) : Vine × Tbl Byte × Tbl Queue × Tbl Port := (m.vine, m.mem, m.queues, m.ports)

/-- Settles O2: idling moves the time by a nanosecond, and of memory, queues and ports nothing. -/
theorem idleStepIsOneNanosecond : Obligations.IdleStepIsOneNanosecond := by
  unfold Obligations.IdleStepIsOneNanosecond
  intro s h
  obtain ⟨t, hrest, htick⟩ := tick_keeps Mod.atRest (fun _ _ _ => rfl) (fun _ _ => rfl) (fun _ _ _ => rfl) (fun _ => rfl)
    (fun _ _ _ => rfl) s.toMod
  simp only [Mod.atRest, Prod.mk.injEq] at hrest
  obtain ⟨hvine, hmem, hqueues, hports⟩ := hrest
  refine ⟨idle s, step_idle h, h, ?_, ?_, ?_, ?_⟩ <;> simp only [idle, htick, hvine, hmem, hqueues, hports]

end Sys2Proof.Machine
end

section
/-! SUPPORT. Accepted writes of the registers that command the checkpoint engine, recovery, field test and the security block, and of the
registers that store their word and do no more: one equation for each. -/

namespace Sys2Proof.Machine

section

variable {m : Mod} {a : Agent} {v : Word}

/-! ## The checkpoint engine (R394, R403, R407, R408) -/

/-- `BLB.CTL` (R394). -/
theorem regApply_ckptCtl : m.regApply a BLB.CTL.o v =
    if BLB.CTL.NOW.get v ≠ 0 then (m.withWord a BLB.CTL.o v).ckptOf fun c => { c with now := true } else m.withWord a BLB.CTL.o v := by
  rw [regApply_of (by decide), regAct_BLB (regW_block (by decide)), actBLB]
  simp (disch := decide) only [regW_one_own, regW_one_other, decide_eq_true_eq, Bool.false_eq_true, if_false]

/-- `BLB.RS_CTL` (R403). -/
theorem regApply_restoreCtl : m.regApply a BLB.RS_CTL.o v =
    if BLB.RS_CTL.GO.get v ≠ 0 then (m.withWord a BLB.RS_CTL.o v).restoreGo else m.withWord a BLB.RS_CTL.o v := by
  rw [regApply_of (by decide), regAct_BLB (regW_block (by decide)), actBLB]
  simp (disch := decide) only [regW_one_own, regW_one_other, decide_eq_true_eq, Bool.false_eq_true, if_false]

/-- `BLB.DR_CTL`: `GO`, then `ABORT` (R407). -/
theorem regApply_drainCtl : m.regApply a BLB.DR_CTL.o v =
    if BLB.DR_CTL.ABORT.get v ≠ 0 then
      (if BLB.DR_CTL.GO.get v ≠ 0 then (m.withWord a BLB.DR_CTL.o v).drainGo else m.withWord a BLB.DR_CTL.o v).drainEnd none
    else if BLB.DR_CTL.GO.get v ≠ 0 then (m.withWord a BLB.DR_CTL.o v).drainGo
    else m.withWord a BLB.DR_CTL.o v := by
  rw [regApply_of (by decide), regAct_BLB (regW_block (by decide)), actBLB]
  simp (disch := decide) only [regW_one_own, regW_one_other, decide_eq_true_eq, Bool.false_eq_true, if_false]

/-- The orders of `BLB.IM_CTL`: `BEGIN`, then `DONE`, then `ABORT` (R408). -/
def Mod.importOrders (m : Mod) (v : Word) : Mod :=
  let m := if BLB.IM_CTL.BEGIN.get v ≠ 0 then m.importBegin else m
  let m := if BLB.IM_CTL.DONE.get v ≠ 0 then m.importDone else m
  if BLB.IM_CTL.ABORT.get v ≠ 0 then m.importEnd none else m

/-- `BLB.IM_CTL` (R408). -/
theorem regApply_importCtl : m.regApply a BLB.IM_CTL.o v = (m.withWord a BLB.IM_CTL.o v).importOrders v := by
  rw [regApply_of (by decide), regAct_BLB (regW_block (by decide)), actBLB]
  simp (disch := decide) only [regW_one_own, regW_one_other, decide_eq_true_eq, Bool.false_eq_true, if_false, Mod.importOrders]

theorem importOrders_begin (hb : BLB.IM_CTL.BEGIN.get v ≠ 0) (hd : BLB.IM_CTL.DONE.get v = 0) (ha : BLB.IM_CTL.ABORT.get v = 0) :
    m.importOrders v = m.importBegin := by
  simp only [Mod.importOrders, if_pos hb, if_neg (not_not_intro hd), if_neg (not_not_intro ha)]

theorem importOrders_done (hd : BLB.IM_CTL.DONE.get v ≠ 0) (hb : BLB.IM_CTL.BEGIN.get v = 0) (ha : BLB.IM_CTL.ABORT.get v = 0) :
    m.importOrders v = m.importDone := by
  simp only [Mod.importOrders, if_neg (not_not_intro hb), if_pos hd, if_neg (not_not_intro ha)]

theorem importOrders_abort (ha : BLB.IM_CTL.ABORT.get v ≠ 0) (hb : BLB.IM_CTL.BEGIN.get v = 0) (hd : BLB.IM_CTL.DONE.get v = 0) :
    m.importOrders v = m.importEnd none := by
  simp only [Mod.importOrders, if_neg (not_not_intro hb), if_neg (not_not_intro hd), if_pos ha]

/-! ## Recovery (R432, R435, R436) -/

/-- `RST.CTL`: `COLD` whatever `WARM` says (R432, R436). -/
theorem regApply_resetCtl : m.regApply a RST.CTL.o v =
    if RST.CTL.COLD.get v ≠ 0 then (m.withWord a RST.CTL.o v).coldReset.pwr fun p => { p with coldHold := true }
    else if RST.CTL.WARM.get v ≠ 0 then (m.withWord a RST.CTL.o v).warmCause 6 255
    else m.withWord a RST.CTL.o v := by
  have hsel : RST.CTL.o ≠ RST.SP_SEL.o := by decide
  rw [regApply_of (by decide), regAct_RST (regW_block (by decide)), actRST]
  simp (disch := decide) only [regW_one_own, decide_eq_true_eq, regW_off, hsel, if_false]

/-- `RST.SP_SEL` (R435). -/
theorem regApply_sproutSel :
    m.regApply a RST.SP_SEL.o v = (m.withWord a RST.SP_SEL.o v).sproutSelect (RST.SP_SEL.DOMAIN.get v) := by
  rw [regApply_of (by decide), regAct_RST (regW_block (by decide)), actRST]
  simp (disch := decide) only [regW_one_other, Bool.false_eq_true, if_false, regW_off, if_true, regW_new]

/-! ## Field test (R446, R448, R452, R455) -/

/-- `TST.CFG`: clearing `MODE` leaves field-test mode (R441). -/
theorem regApply_testCfg : m.regApply a TST.CFG.o v =
    if m.is TST.CFG.MODE = true ∧ TST.CFG.MODE.get v = 0 then (m.withWord a TST.CFG.o v).leaveTest else m.withWord a TST.CFG.o v := by
  rw [regApply_of (by decide), regAct_TST (regW_block (by decide)), actTST]
  simp (disch := decide) only [regW_clears_own, regW_one_other, decide_eq_true_eq, Bool.false_eq_true, if_false]

theorem regW_clears_other {off : Nat} {f : Field} (h : off ≠ f.off) : (m.regW a off v).clears f = false := by
  rw [regW_clears, decide_eq_false h, Bool.false_and, Bool.false_and]

/-- `TST.RUN_CTL` (R446, R448). -/
theorem regApply_runCtl : m.regApply a TST.RUN_CTL.o v =
    if TST.RUN_CTL.GO.get v ≠ 0 then (m.withWord a TST.RUN_CTL.o v).runGo
    else if TST.RUN_CTL.ABORT.get v ≠ 0 then (m.withWord a TST.RUN_CTL.o v).runAbort
    else m.withWord a TST.RUN_CTL.o v := by
  rw [regApply_of (by decide), regAct_TST (regW_block (by decide)), actTST]
  simp (disch := decide) only [regW_clears_other, regW_one_own, regW_one_other, decide_eq_true_eq, Bool.false_eq_true, if_false]

/-- `TST.CLS_SEL` (R455). -/
theorem regApply_classSel : m.regApply a TST.CLS_SEL.o v =
    if TST.CLS_SEL.GO.get v ≠ 0 then (m.withWord a TST.CLS_SEL.o v).classWindow else m.withWord a TST.CLS_SEL.o v := by
  rw [regApply_of (by decide), regAct_TST (regW_block (by decide)), actTST]
  simp (disch := decide) only [regW_clears_other, regW_one_own, regW_one_other, decide_eq_true_eq, Bool.false_eq_true, if_false]

/-- `TST.CLS_CTL` (R452). -/
theorem regApply_classCtl : m.regApply a TST.CLS_CTL.o v =
    if TST.CLS_CTL.CLEAR.get v ≠ 0 then (m.withWord a TST.CLS_CTL.o v).classClear else m.withWord a TST.CLS_CTL.o v := by
  rw [regApply_of (by decide), regAct_TST (regW_block (by decide)), actTST]
  simp (disch := decide) only [regW_clears_other, regW_one_own, regW_one_other, decide_eq_true_eq, Bool.false_eq_true, if_false]

/-- `TST.HIST_SEL` (R455). -/
theorem regApply_historySel : m.regApply a TST.HIST_SEL.o v =
    if TST.HIST_SEL.GO.get v ≠ 0 then (m.withWord a TST.HIST_SEL.o v).histWindow else m.withWord a TST.HIST_SEL.o v := by
  rw [regApply_of (by decide), regAct_TST (regW_block (by decide)), actTST]
  simp (disch := decide) only [regW_clears_other, regW_one_own, regW_one_other, decide_eq_true_eq, Bool.false_eq_true, if_false]

/-! ## The security block (R506, R507, R509, R510, R512) -/

/-- Below the staging data a write of the security block gives one of its four orders. -/
theorem regAct_security {off : Nat} {r : Option Nat} {t : Mod} (hb : off / 0x1000 = 5) (hlow : off < SEC.STAGE_D.o 0) :
    t.regAct (m.regW a off v) a r =
      if (m.regW a off v).one SEC.STAGE_CTL.ABORT then t.stageClear
      else if (m.regW a off v).one SEC.STAGE_CTL.DONE then t.stageVerify (SEC.STAGE_CTL.KIND.get v) (SEC.STAGE_CTL.SLOT.get v)
      else if (m.regW a off v).one SEC.FETCH_CTL.SERVE then t.serveGo
      else if (m.regW a off v).one SEC.ATT_CTL.GO then t.attestGo
      else t := by
  rw [regAct_SEC (regW_block hb), actSEC, regW_off, if_neg (Nat.not_le.2 hlow), regW_new]

/-- `SEC.STAGE_D` (R506). -/
theorem regApply_stageData {i : Nat} (hi : i < 256) : m.regApply a (SEC.STAGE_D.o i) v =
    (m.withWord a (SEC.STAGE_D.o i) v).stageWord ((m.withWord a (SEC.STAGE_D.o i) v).stageSource a) v := by
  have hblock : SEC.STAGE_D.o i / 0x1000 = 5 := by simp only [SEC.STAGE_D.o]; omega
  have hevt : SEC.EVT.o ≠ SEC.STAGE_D.o i := by simp only [SEC.EVT.o, SEC.STAGE_D.o]; omega
  have hdata : SEC.STAGE_D.o 0 ≤ SEC.STAGE_D.o i := by simp only [SEC.STAGE_D.o]; omega
  have hplain : isEvt (SEC.STAGE_D.o i) = false := by
    rw [isEvt, hblock]; exact beq_eq_false_iff_ne.2 fun h => hevt (Option.some.inj h)
  rw [regApply_of hplain, regAct_SEC (regW_block hblock), actSEC, regW_off, if_pos hdata, regW_new]

/-- `SEC.STAGE_CTL`: `ABORT` whatever `DONE` says (R507, R510). -/
theorem regApply_stageCtl : m.regApply a SEC.STAGE_CTL.o v =
    if SEC.STAGE_CTL.ABORT.get v ≠ 0 then (m.withWord a SEC.STAGE_CTL.o v).stageClear
    else if SEC.STAGE_CTL.DONE.get v ≠ 0 then
      (m.withWord a SEC.STAGE_CTL.o v).stageVerify (SEC.STAGE_CTL.KIND.get v) (SEC.STAGE_CTL.SLOT.get v)
    else m.withWord a SEC.STAGE_CTL.o v := by
  rw [regApply_of (by decide), regAct_security (by decide) (by decide)]
  simp (disch := decide) only [regW_one_own, regW_one_other, decide_eq_true_eq, Bool.false_eq_true, if_false]

/-- `SEC.FETCH_CTL` (R509). -/
theorem regApply_fetchCtl : m.regApply a SEC.FETCH_CTL.o v =
    if SEC.FETCH_CTL.SERVE.get v ≠ 0 then (m.withWord a SEC.FETCH_CTL.o v).serveGo else m.withWord a SEC.FETCH_CTL.o v := by
  rw [regApply_of (by decide), regAct_security (by decide) (by decide)]
  simp (disch := decide) only [regW_one_own, regW_one_other, decide_eq_true_eq, Bool.false_eq_true, if_false]

/-- `SEC.ATT_CTL` (R512). -/
theorem regApply_attestCtl : m.regApply a SEC.ATT_CTL.o v =
    if SEC.ATT_CTL.GO.get v ≠ 0 then (m.withWord a SEC.ATT_CTL.o v).attestGo else m.withWord a SEC.ATT_CTL.o v := by
  rw [regApply_of (by decide), regAct_security (by decide) (by decide)]
  simp (disch := decide) only [regW_one_own, regW_one_other, decide_eq_true_eq, Bool.false_eq_true, if_false]

/-! ## Registers whose word is all, or nearly all, that a write does -/

/-- A write of a block without commands stores its word (R462). -/
theorem regApply_plain {off : Nat} (he : isEvt off = false) (hb : off / 0x1000 ∈ [0, 1, 4, 8, 12, 14]) :
    m.regApply a off v = m.withWord a off v := by
  rw [regApply_of he, regAct_plain (w := m.regW a off v) hb]

theorem regApply_railSet (rail : Fin 3) : m.regApply a (PWR.RAIL_SET.o rail.val) v = m.withWord a (PWR.RAIL_SET.o rail.val) v := by
  have hblock : PWR.RAIL_SET.o rail.val / 0x1000 = 4 := by simp only [PWR.RAIL_SET.o]; omega
  have hevt : PWR.EVT.o ≠ PWR.RAIL_SET.o rail.val := by simp only [PWR.EVT.o, PWR.RAIL_SET.o]; omega
  refine regApply_plain ?_ (by rw [hblock]; decide)
  rw [isEvt, hblock]; exact beq_eq_false_iff_ne.2 fun h => hevt (Option.some.inj h)

/-- `UPD.CFG`. -/
theorem regApply_updCfg : m.regApply a UPD.CFG.o v = m.withWord a UPD.CFG.o v := by
  rw [regApply_of (by decide), regAct_UPD (regW_block (by decide)), actUPD]
  simp (disch := decide) only [regW_one_other, Bool.false_eq_true, if_false]

/-- `DBG.TR_TAIL` (R492). -/
theorem regApply_traceTail : m.regApply a DBG.TR_TAIL.o v = m.withWord a DBG.TR_TAIL.o v := by
  rw [regApply_of (by decide), regAct_DBG (regW_block (by decide)), actDBG]
  simp (disch := decide) only [regW_one_other, regW_sets_other, Bool.false_eq_true, if_false]

/-- `MEM.CFG`: clearing `SQ_EN` refuses the adds that wait (R257). -/
theorem regApply_memCfg : m.regApply a MEM.CFG.o v =
    if m.is MEM.CFG.SQ_EN = true ∧ MEM.CFG.SQ_EN.get v = 0 then (m.withWord a MEM.CFG.o v).refuseWaiting else m.withWord a MEM.CFG.o v := by
  have hwin : ¬(0x100 ≤ (m.regW a MEM.CFG.o v).off % 0x1000 ∧ (m.regW a MEM.CFG.o v).off % 0x1000 < 0x300) := by rw [regW_off]; decide
  rw [regApply_of (by decide), regAct_MEM (regW_block (by decide)), actMEM, if_neg hwin]
  simp (disch := decide) only [regW_clears_own, decide_eq_true_eq]

/-! ## The clearing of an event (R471) -/

theorem evtOff_lt {b o : Nat} (h : evtOff b = some o) : o / 0x1000 = b := by
  unfold evtOff at h
  split at h
  case h_18 =>
    split at h
    next hb =>
      have ho : CORE.EVT.o (b - 256) = o := Option.some.inj h
      simp only [CORE.EVT.o] at ho; omega
    next => cases h
  all_goals exact (Option.some.inj h) ▸ by decide

/-- A block's EVT is the register at its offset. -/
theorem isEvt_evtOff {b o : Nat} (h : evtOff b = some o) : isEvt o = true := by
  rw [isEvt, evtOff_lt h, h]; exact beq_self_eq_true _

/-- A write that judging lets pass is of a register that some table defines (R463). -/
theorem findReg_of_judge {off : Nat} (h : m.regJudge a off v = none) : ∃ r, findReg (off / 0x1000) (off % 0x1000) = some r := by
  unfold Mod.regJudge at h
  split at h
  next => cases h
  next r hr => exact ⟨r, hr⟩

/-- An EVT is cleared by a write of its `SEQ` where a code stands, and otherwise left. -/
theorem regApply_evt {off : Nat} {r : RegDef} (he : isEvt off = true) (hr : findReg (off / 0x1000) (off % 0x1000) = some r) :
    m.regApply a off v =
      if v.toNat % 0x10000 = (m.rd off).toNat % 0x10000 ∧ (m.rd off).toNat / 0x10000 % 256 ≠ 0 then m.wr off (m.rd off &&& 0xFF00FFFF)
      else m := by
  have hrow : (m.regW a off v).row = some r := hr
  simp only [Mod.regApply, he, if_true, RegW.acts, hrow, regW_off, regW_old, regW_new, Bool.and_eq_true, beq_iff_eq, bne_iff_ne]

end

/-- Settles O17: each command is the write of its register, whose equation says what the bit set does. -/
theorem checkpointRegisterCommandsComplete : Obligations.CheckpointRegisterCommandsComplete := by
  unfold Obligations.CheckpointRegisterCommandsComplete
  refine fun s => ⟨fun a v h hv => ?_, fun a v h hv => ?_, fun a v h hg ha => ?_, fun a v h hg ha => ?_, fun a v h hb hd ha => ?_,
    fun a v h hd hb ha => ?_, fun a v h ha hb hd => ?_⟩
  · rw [exec_acceptedWrite rfl h, regApply_ckptCtl, if_pos hv]
  · rw [exec_acceptedWrite rfl h, regApply_restoreCtl, if_pos hv]
  · rw [exec_acceptedWrite rfl h, regApply_drainCtl, if_neg (not_not_intro ha), if_pos hg]
  · rw [exec_acceptedWrite rfl h, regApply_drainCtl, if_pos ha, if_neg (not_not_intro hg)]
  · rw [exec_acceptedWrite rfl h, regApply_importCtl, importOrders_begin hb hd ha]
  · rw [exec_acceptedWrite rfl h, regApply_importCtl, importOrders_done hd hb ha]
  · rw [exec_acceptedWrite rfl h, regApply_importCtl, importOrders_abort ha hb hd]

/-- Settles O18: each command is the write of its register, whose equation says what the bit set does. -/
theorem parsnipRegisterCommandsComplete : Obligations.ParsnipRegisterCommandsComplete := by
  unfold Obligations.ParsnipRegisterCommandsComplete
  refine fun s => ⟨fun a v h hw hc => ?_, fun a v h hc => ?_, fun a v h => ?_, fun a v h hg => ?_, fun a v h hg ha => ?_,
    fun a v h hg => ?_, fun a v h hc => ?_, fun a v h hg => ?_, fun a i v h => ?_, fun a v h ha hd => ?_, fun a v h ha => ?_,
    fun a v h hs => ?_, fun a v h hg => ?_⟩
  · rw [exec_acceptedWrite rfl h, regApply_resetCtl, if_neg (not_not_intro hc), if_pos hw]
  · rw [exec_acceptedWrite rfl h, regApply_resetCtl, if_pos hc]
  · rw [exec_acceptedWrite rfl h, regApply_sproutSel]
  · rw [exec_acceptedWrite rfl h, regApply_runCtl, if_pos hg]
  · rw [exec_acceptedWrite rfl h, regApply_runCtl, if_neg (not_not_intro hg), if_pos ha]
  · rw [exec_acceptedWrite rfl h, regApply_classSel, if_pos hg]
  · rw [exec_acceptedWrite rfl h, regApply_classCtl, if_pos hc]
  · rw [exec_acceptedWrite rfl h, regApply_historySel, if_pos hg]
  · rw [exec_acceptedWrite rfl h, regApply_stageData i.isLt]
  · rw [exec_acceptedWrite rfl h, regApply_stageCtl, if_neg (not_not_intro ha), if_pos hd]
  · rw [exec_acceptedWrite rfl h, regApply_stageCtl, if_pos ha]
  · rw [exec_acceptedWrite rfl h, regApply_fetchCtl, if_pos hs]
  · rw [exec_acceptedWrite rfl h, regApply_attestCtl, if_pos hg]

theorem judge_of_accepts {m : Mod} {a : Agent} {off : Nat} {v : Word} (h : m.accepts a off v = true) : m.regJudge a off v = none := by
  unfold Mod.accepts at h
  rw [Bool.and_eq_true, Option.isNone_iff_eq_none] at h
  exact h.2

/-- A block that has an EVT is where its clearing writes. -/
theorem exec_evtClear {s : State} {a : Agent} {block : BitVec 12} {v : Word} {o : Nat} (h : evtOff block.toNat = some o) :
    exec (.evtClear a block v) s = runNow (fun m => m.writeFrom a o v) s := by
  have htarget : evtTarget block.toNat = o := by rw [evtTarget, h]; rfl
  exact congrArg (fun o => runNow (fun m => m.writeFrom a o v) s) htarget

/-- Settles O12: the equation of each register, an EVT's first. -/
theorem plainRegisterWritesComplete : Obligations.PlainRegisterWritesComplete := by
  unfold Obligations.PlainRegisterWritesComplete
  refine fun s => ⟨fun a off v h he => ?_, fun a block v o hb h hseq hcode => ?_, fun a v h => ?_, fun a rail v h => ?_, fun a v h => ?_,
    fun a v h => ?_, fun a v h => ?_, fun a v h hwas hv => ?_, fun a v h hwas hv => ?_, fun a v h hwas hv => ?_⟩
  · rw [exec_acceptedWrite rfl h, regApply_of he]
  · obtain ⟨r, hr⟩ := findReg_of_judge (judge_of_accepts h)
    rw [exec_acceptedWrite (exec_evtClear hb) h, regApply_evt (isEvt_evtOff hb) hr, if_pos ⟨hseq, hcode⟩]
  · rw [exec_acceptedWrite rfl h, regApply_plain (by decide) (by decide)]
  · rw [exec_acceptedWrite rfl h, regApply_railSet]
  · rw [exec_acceptedWrite rfl h, regApply_plain (by decide) (by decide)]
  · rw [exec_acceptedWrite rfl h, regApply_updCfg]
  · rw [exec_acceptedWrite rfl h, regApply_traceTail]
  · rw [exec_acceptedWrite rfl h, regApply_testCfg, if_neg fun hc => hv hc.2]
  · rw [exec_acceptedWrite rfl h, regApply_testCfg, if_pos ⟨hwas, hv⟩]
  · rw [exec_acceptedWrite rfl h, regApply_memCfg, if_pos ⟨hwas, hv⟩]

end Sys2Proof.Machine
end

section
/-! SUPPORT. What a register write leaves in the registers (R462–R471): a rejection its record, an event its code, a plain write its word. -/

namespace Sys2Proof.Machine

section
variable {m : Mod} {a : Agent} {off : Nat} {v : Word}

theorem regWrite_rejected {code : Nat} (h : m.regJudge a off v = some code) :
    m.regWrite a off v = (m.meetUnread off code).reject a off code := by
  simp only [Mod.regWrite, h]

theorem regWrite_accepted (h : m.regJudge a off v = none) : m.regWrite a off v = m.regApply a off v := by
  simp only [Mod.regWrite, h]

/-! ## The record of a rejection (R469) -/

/-- The bit of `WERR` and the module of `WERR_SRC` that name an agent. -/
def senderOf : Agent → Nat × Nat
  | .mgmt => (0, 0)
  | .fabric src _ => (1, src.toNat)

theorem reject_eq (code : Nat) : m.reject a off code =
    ((m.wr GEN.WERR.o (BitVec.ofNat 32 (nextSeq ((m.rd GEN.WERR.o).toNat % 0x10000) + 0x10000 * code + 0x1000000 * (senderOf a).1))).wr
      GEN.WERR_ADDR.o (BitVec.ofNat 32 off)).wr GEN.WERR_SRC.o (BitVec.ofNat 32 (senderOf a).2) := by
  cases a <;> rfl

theorem reject_werr (code : Nat) : (m.reject a off code).rd GEN.WERR.o =
    BitVec.ofNat 32 (nextSeq ((m.rd GEN.WERR.o).toNat % 0x10000) + 0x10000 * code + 0x1000000 * (senderOf a).1) := by
  rw [reject_eq, Mod.rd_wr_other _ _ (by decide), Mod.rd_wr_other _ _ (by decide), Mod.rd_wr_same]

theorem reject_addr (code : Nat) : (m.reject a off code).rd GEN.WERR_ADDR.o = BitVec.ofNat 32 off := by
  rw [reject_eq, Mod.rd_wr_other _ _ (by decide), Mod.rd_wr_same]

theorem reject_src (code : Nat) : (m.reject a off code).rd GEN.WERR_SRC.o = BitVec.ofNat 32 (senderOf a).2 := by
  rw [reject_eq, Mod.rd_wr_same]

/-- A rejection writes the three registers of its record and nothing else. -/
theorem reject_frame (code : Nat) : m.reject a off code = { m with regs := (m.reject a off code).regs } ∧
    ∀ o, o ≠ GEN.WERR.o → o ≠ GEN.WERR_ADDR.o → o ≠ GEN.WERR_SRC.o → (m.reject a off code).rd o = m.rd o := by
  rw [reject_eq]
  refine ⟨rfl, fun o h1 h2 h3 => ?_⟩
  rw [Mod.rd_wr_other _ _ h3, Mod.rd_wr_other _ _ h2, Mod.rd_wr_other _ _ h1]

/-- `SEQ`, a code and the agent share a word without touching one another. -/
theorem werr_fields {seq code agent : Nat} (hs : seq < 0x10000) (hc : code < 256) (ha : agent < 2) :
    GEN.WERR.SEQ.get (BitVec.ofNat 32 (seq + 0x10000 * code + 0x1000000 * agent)) = seq ∧
    GEN.WERR.CODE.get (BitVec.ofNat 32 (seq + 0x10000 * code + 0x1000000 * agent)) = code ∧
    GEN.WERR.AGENT.get (BitVec.ofNat 32 (seq + 0x10000 * code + 0x1000000 * agent)) = agent := by
  simp only [Field.get, GEN.WERR.SEQ, GEN.WERR.CODE, GEN.WERR.AGENT, BitVec.toNat_ofNat]
  refine ⟨?_, ?_, ?_⟩ <;> omega

theorem nextSeq_lt {n : Nat} : nextSeq n < 0x10000 := by
  unfold nextSeq
  split <;> omega

theorem senderOf_lt (a : Agent) : (senderOf a).1 < 2 ∧ (senderOf a).2 < 2 ^ 13 := by
  cases a with
  | mgmt => decide
  | fabric src port => exact ⟨Nat.one_lt_two, src.isLt⟩

theorem get_low16 (f : Field) (hlo : f.lo = 0) (hw : f.w = 16) (x : Word) : f.get x = x.toNat % 0x10000 := by
  rw [Field.get, hlo, hw, Nat.pow_zero, Nat.div_one]; rfl

theorem reject_fields {off : Nat} {code : Nat} (ho : off < 2 ^ 24) (hc : code < 256) :
    (m.reject a off code).f GEN.WERR.SEQ = nextSeq (m.f GEN.WERR.SEQ) ∧ (m.reject a off code).f GEN.WERR.CODE = code ∧
    (m.reject a off code).f GEN.WERR.AGENT = (senderOf a).1 ∧ (m.reject a off code).f GEN.WERR_ADDR.OFFSET = off ∧
    (m.reject a off code).f GEN.WERR_SRC.MODULE = (senderOf a).2 := by
  obtain ⟨hagent, hmodule⟩ := senderOf_lt a
  obtain ⟨hseq, hcode, hag⟩ := werr_fields (nextSeq_lt (n := (m.rd GEN.WERR.o).toNat % 0x10000)) hc hagent
  have hmf : m.f GEN.WERR.SEQ = (m.rd GEN.WERR.o).toNat % 0x10000 := get_low16 _ rfl rfl _
  refine ⟨?_, ?_, ?_, ?_, ?_⟩
  · rw [hmf]; exact (congrArg _ (reject_werr code)).trans hseq
  · exact (congrArg _ (reject_werr code)).trans hcode
  · exact (congrArg _ (reject_werr code)).trans hag
  · refine (congrArg _ (reject_addr code)).trans ?_
    simp only [Field.get, GEN.WERR_ADDR.OFFSET, BitVec.toNat_ofNat]; omega
  · refine (congrArg _ (reject_src code)).trans ?_
    simp only [Field.get, GEN.WERR_SRC.MODULE, BitVec.toNat_ofNat]; omega

/-! ## The clearing of an event (R469, R471) -/

/-- The word that a clearing write leaves: `SEQ` stands. -/
theorem cleared_seq (x : Word) : (x &&& 0xFF00FFFF).toNat % 0x10000 = x.toNat % 0x10000 := by
  rw [BitVec.toNat_and, show (0x10000 : Nat) = 2 ^ 16 from rfl, Nat.and_mod_two_pow]
  exact (Nat.and_two_pow_sub_one_eq_mod _ 16).trans (Nat.mod_mod _ _)

/-- The code is zero. -/
theorem cleared_code (x : Word) : (x &&& 0xFF00FFFF).toNat / 0x10000 % 256 = 0 := by
  rw [BitVec.toNat_and, show (0x10000 : Nat) = 2 ^ 16 from rfl, Nat.and_div_two_pow, show (256 : Nat) = 2 ^ 8 from rfl, Nat.and_mod_two_pow]
  exact Nat.and_zero _

/-- An accepted write of an EVT with its `SEQ` leaves `SEQ` and every other register, and no code. -/
theorem regApply_evt_matching (he : isEvt off = true) (hj : m.regJudge a off v = none) (hv : v.toNat % 0x10000 = (m.rd off).toNat % 0x10000) :
    ((m.regApply a off v).rd off).toNat % 0x10000 = (m.rd off).toNat % 0x10000 ∧ ((m.regApply a off v).rd off).toNat / 0x10000 % 256 = 0 ∧
      (∀ o, o ≠ off → (m.regApply a off v).rd o = m.rd o) ∧ m.regApply a off v = { m with regs := (m.regApply a off v).regs } := by
  obtain ⟨r, hr⟩ := findReg_of_judge hj
  by_cases hcode : (m.rd off).toNat / 0x10000 % 256 = 0
  · rw [regApply_evt he hr, if_neg fun h => h.2 hcode]
    exact ⟨rfl, hcode, fun _ _ => rfl, rfl⟩
  · rw [regApply_evt he hr, if_pos ⟨hv, hcode⟩, Mod.rd_wr_same]
    exact ⟨cleared_seq _, cleared_code _, fun o ho => Mod.rd_wr_other _ _ ho, rfl⟩

/-- With another `SEQ` it changes nothing. -/
theorem regApply_evt_other (he : isEvt off = true) (hj : m.regJudge a off v = none) (hv : v.toNat % 0x10000 ≠ (m.rd off).toNat % 0x10000) :
    m.regApply a off v = m := by
  obtain ⟨r, hr⟩ := findReg_of_judge hj
  rw [regApply_evt he hr, if_neg fun h => hv h.1]

end

/-- Settles O51: the record's words, and the clearing that `WERR` shares with every EVT. -/
theorem rejectionsAreRecorded : Obligations.RejectionsAreRecorded := by
  unfold Obligations.RejectionsAreRecorded
  refine ⟨fun m a off v code h => regWrite_rejected h, fun m a off code => ?_, fun m a v hj => ?_⟩
  · obtain ⟨hseq, hcode, hagent, hoff, hmodule⟩ := reject_fields (m := m) (a := a) off.isLt code.isLt
    refine ⟨hseq, hcode, hoff, fun ha => ?_, fun src port ha => ?_⟩ <;> subst ha <;> exact ⟨hagent, hmodule⟩
  · have he : isEvt GEN.WERR.o = true := by decide
    have hseq : ∀ x, GEN.WERR.SEQ.get x = x.toNat % 0x10000 := get_low16 _ rfl rfl
    rw [regWrite_accepted hj]
    by_cases hv : v.toNat % 0x10000 = (m.rd GEN.WERR.o).toNat % 0x10000
    · obtain ⟨hs, hc, hother, -⟩ := regApply_evt_matching he hj hv
      refine ⟨?_, hother _ (by decide), hother _ (by decide), fun _ => hc, fun hne => absurd ?_ hne⟩
      · exact (hseq _).trans (hs.trans (hseq _).symm)
      · exact (hseq _).trans (hv.trans (hseq _).symm)
    · have hsame := regApply_evt_other he hj hv
      dsimp only
      rw [hsame]
      exact ⟨rfl, rfl, rfl, fun heq => absurd ((hseq _).symm.trans (heq.trans (hseq _))) hv, fun _ => rfl⟩

/-! ## An event raised (R470, R489) -/

/-- A trace record touches no register but the debug unit's own EVT (R490). -/
theorem traceRec_rd {m : Mod} {o : Nat} (ho : o ≠ DBG.EVT.o) (unit q kind tag gen : Nat) (data : List Byte) :
    (m.traceRec unit q kind tag gen data).rd o = m.rd o := by
  have hdrop : ∀ t : Mod, t.traceDrop.rd o = t.rd o := fun _ => rfl
  have hlost : ∀ t : Mod, t.traceLost.rd o = t.rd o := fun t => by
    unfold Mod.traceLost
    dsimp only
    split
    · exact (hdrop _).trans (Mod.rd_wr_other _ _ ho)
    · exact Mod.rd_wr_other _ _ ho
  unfold Mod.traceRec Mod.tracePut
  dsimp only
  split
  · split
    · rfl
    · split
      · exact (hlost _).trans (hdrop m)
      · exact hdrop m
  · rfl

/-- The EVT word of an event: its code with the next `SEQ`. -/
theorem raiseAt_evt {m : Mod} {evt : Nat} (he : evt ≠ DBG.EVT.o) (infos : List Nat) (unit code : Nat) (fields : List (Field × Nat)) :
    (m.raiseAt evt infos unit code fields).rd evt = BitVec.ofNat 32 (nextSeq ((m.rd evt).toNat % 0x10000) + 0x10000 * code) := by
  simp only [Mod.raiseAt, apply_ite (fun t : Mod => t.rd evt), traceRec_rd he, Mod.rd_wr_same, ite_self]

/-- Settles O54: the word that an event leaves, and its clearing. -/
theorem eventsStandUntilCleared : Obligations.EventsStandUntilCleared := by
  unfold Obligations.EventsStandUntilCleared
  refine ⟨fun m code => ?_, fun m a o v he hj => ?_⟩
  · have hword : (m.raiseRST code.val 0 0).rd RST.EVT.o = BitVec.ofNat 32 (nextSeq (m.f RST.EVT.SEQ) + 0x10000 * code.val) :=
      (raiseAt_evt (by decide) _ _ _ _).trans (by rw [← get_low16 RST.EVT.SEQ rfl rfl]; rfl)
    have hseq := nextSeq_lt (n := m.f RST.EVT.SEQ)
    have hcode := code.isLt
    refine ⟨(congrArg _ hword).trans ?_, (congrArg _ hword).trans ?_⟩
    · refine Eq.trans ?_ (show nextSeq (m.f RST.EVT.SEQ) = _ from rfl)
      simp only [Field.get, RST.EVT.SEQ, BitVec.toNat_ofNat] at hseq ⊢; omega
    · simp only [Field.get, RST.EVT.CODE, BitVec.toNat_ofNat]; omega
  · rw [regWrite_accepted hj]
    exact ⟨regApply_evt_matching he hj, regApply_evt_other he hj⟩

/-! ## The frame of a rejected write (R463, R464, R468) -/

section
variable {m : Mod} {a : Agent} {off : Nat} {v : Word}

theorem meetUnread_other {code : Nat} (h : ¬(off = UPD.TW_GO.o ∧ code = cBusy ∧ m.twUnread m.twWrite = true)) :
    m.meetUnread off code = m := if_neg h

theorem regJudge_undefined (h : findReg (off / 0x1000) (off % 0x1000) = none) : m.regJudge a off v = some 5 := by
  simp only [Mod.regJudge, h, cRange]

/-- The judgement of a register other than `ACC_SEL`, in the order of R468. -/
theorem regJudge_defined {r : RegDef} (h : findReg (off / 0x1000) (off % 0x1000) = some r) (ho : off ≠ DBG.ACC_SEL.o) :
    m.regJudge a off v =
      if v &&& ~~~(BitVec.ofNat 32 (r.rw ||| r.ro ||| r.wo ||| r.w1s)) ≠ 0 then some cReserved
      else if m.lockedWrite (m.regW a off v) = true then some cLocked
      else worstCause ((m.down (m.regDom off), cBusy) :: rejBlock m (m.withWord a off v) (m.regW a off v) a) := by
  simp only [Mod.regJudge, h, if_neg ho, Mod.withWord]

/-- Among causes of which one is that the block is busy, a code is found. -/
theorem worstCause_busy (l : List Cause) : (worstCause ((true, cBusy) :: l)).isSome = true := by
  rw [worstCause, List.find?_isSome]
  exact ⟨cBusy, by decide, by rw [List.any_cons]; rfl⟩

/-- It is that one where no cause before it holds. -/
theorem worstCause_busy_first {l : List Cause} (h : (l.all fun x => !x.1 || !([cReserved, cLocked, cState].contains x.2)) = true) :
    worstCause ((true, cBusy) :: l) = some cBusy := by
  have hnone : ∀ c ∈ [cReserved, cLocked, cState], (((true, cBusy) :: l).any fun x => x.1 && x.2 == c) = false := by
    intro c hc
    have hne : (cBusy == c) = false := by
      revert hc c; decide
    rw [List.any_cons, hne, Bool.and_false, Bool.false_or, List.any_eq_false]
    intro x hx hxc
    rw [Bool.and_eq_true, beq_iff_eq] at hxc
    obtain ⟨hx1, hx2⟩ := hxc
    have := List.all_eq_true.1 h x hx
    rw [hx1, hx2, List.contains_iff_mem.2 hc] at this
    cases this
  have hbusy : (((true, cBusy) :: l).any fun x => x.1 && x.2 == cBusy) = true := by rw [List.any_cons]; rfl
  rw [worstCause, List.find?_cons_of_neg (by rw [hnone _ (by decide)]; decide), List.find?_cons_of_neg (by rw [hnone _ (by decide)]; decide),
    List.find?_cons_of_neg (by rw [hnone _ (by decide)]; decide), List.find?_cons_of_pos]
  exact hbusy

end

/-- Settles O52: the record's frame, and the two causes that the register map and the domains give. -/
theorem rejectedWritesOnlyRecord : Obligations.RejectedWritesOnlyRecord := by
  unfold Obligations.RejectedWritesOnlyRecord
  refine fun m a off v => ⟨fun code hj hu => ?_, fun hr => ⟨regJudge_undefined hr, ?_, ?_⟩, fun r hr hd => ⟨?_, ?_, fun ho => ⟨?_, ?_⟩⟩⟩
  · rw [regWrite_rejected hj, meetUnread_other hu]
    exact reject_frame code
  · simp only [Mod.regRead, hr]
  · rw [Mod.readStatus, hr]; rfl
  · simp only [Mod.regRead, hr, if_pos hd]
  · rw [Mod.readStatus, hr, Option.isNone_some, if_neg Bool.false_ne_true, if_pos hd]
  · rw [regJudge_defined hr ho, hd]
    split
    · rfl
    · split
      · rfl
      · exact worstCause_busy _
  · intro hv hl hc
    rw [regJudge_defined hr ho, hd, if_neg (not_not_intro hv), if_neg (by rw [hl]; decide), worstCause_busy_first hc]
    rfl

/-! ## Plain writes read back (R462) -/

theorem winDue_of_still {m : Mod} (h : m.still = true) : m.health.winDue = false := by
  unfold Mod.still at h
  simp only [Bool.and_eq_true, Bool.not_eq_true'] at h
  exact h.1.2

/-- An effect that leaves nothing to be done has no consequence. -/
theorem now_still {s : State} {m : Mod} (h : m.still = true) (hw : s.health.winDue = false) : s.now m = s.become m := by
  unfold Mod.still at h
  simp only [Bool.and_eq_true, Bool.not_eq_true'] at h
  obtain ⟨⟨hcalm, -⟩, hphy⟩ := h
  rw [State.now, settle_calm hcalm, leaves_same hphy hw]; rfl

/-- A stored word, by access type: RW bits as written, RO bits as they were, W1S bits joined. -/
theorem stored_bits {w : RegW} {r : RegDef} (h : w.row = some r) :
    w.stored &&& BitVec.ofNat 32 r.rw = w.new &&& BitVec.ofNat 32 r.rw ∧
    w.stored &&& ~~~(BitVec.ofNat 32 (r.rw ||| r.w1s)) = w.old &&& ~~~(BitVec.ofNat 32 (r.rw ||| r.w1s)) ∧
    w.stored &&& BitVec.ofNat 32 r.w1s &&& ~~~(BitVec.ofNat 32 r.rw) =
      (w.old ||| w.new) &&& BitVec.ofNat 32 r.w1s &&& ~~~(BitVec.ofNat 32 r.rw) := by
  have hjoin : BitVec.ofNat 32 (r.rw ||| r.w1s) = BitVec.ofNat 32 r.rw ||| BitVec.ofNat 32 r.w1s := BitVec.ofNat_or
  simp only [RegW.stored, h, hjoin]
  generalize BitVec.ofNat 32 r.rw = rw
  generalize BitVec.ofNat 32 r.w1s = w1s
  refine ⟨?_, ?_, ?_⟩ <;>
  · ext i hi
    simp only [BitVec.getElem_and, BitVec.getElem_or, BitVec.getElem_not]
    cases w.old[i] <;> cases w.new[i] <;> cases rw[i] <;> cases w1s[i] <;> rfl

/-- An accepted write whose word is all that it does, in a state where nothing is left to be done. -/
theorem exec_plainWrite {s : State} {a : Agent} {v : Word} {c : Instr} {off : Nat} (hc : exec c s = runNow (fun m => m.writeFrom a off v) s)
    (happly : s.regApply a off v = s.withWord a off v) (h : s.accepts a off v = true) (hstill : (s.withWord a off v).still = true) :
    exec c s = .next (s.become (s.withWord a off v)) := by
  have hwin : s.health.winDue = false := winDue_of_still (m := s.withWord a off v) hstill
  rw [exec_acceptedWrite hc h, happly, now_still hstill hwin]

/-- Settles O53: each of the writes stores its word and does no more. -/
theorem plainWritesReadBack : Obligations.PlainWritesReadBack := by
  unfold Obligations.PlainWritesReadBack
  intro s a v c off hmem h hstill
  have hc : exec c s = .next (s.become (s.withWord a off v)) := by
    simp only [List.mem_cons, Prod.mk.injEq, List.not_mem_nil, or_false] at hmem
    rcases hmem with ⟨rfl, rfl⟩ | ⟨rfl, rfl⟩ | ⟨rfl, rfl⟩ | ⟨rfl, rfl⟩ | ⟨rfl, rfl⟩ | ⟨rfl, rfl⟩ | ⟨rfl, rfl⟩
    · exact exec_plainWrite rfl (regApply_plain (by decide) (by decide)) h hstill
    · exact exec_plainWrite rfl (regApply_plain (by decide) (by decide)) h hstill
    · exact exec_plainWrite rfl regApply_updCfg h hstill
    · exact exec_plainWrite rfl regApply_traceTail h hstill
    · exact exec_plainWrite rfl (regApply_railSet 0) h hstill
    · exact exec_plainWrite rfl (regApply_railSet 1) h hstill
    · exact exec_plainWrite rfl (regApply_railSet 2) h hstill
  obtain ⟨r, hr⟩ := findReg_of_judge (judge_of_accepts h)
  refine ⟨_, r, hc, hr, rfl, fun o ho => Mod.rd_wr_other _ _ ho, ?_⟩
  rw [State.become_toMod, Mod.withWord, Mod.rd_wr_same]
  exact stored_bits (w := s.regW a off v) hr

end Sys2Proof.Machine
end

section
/-! SUPPORT. The management connector (R458, R513, R514): what each transaction drives and changes, and that no consequence follows from it. -/

namespace Sys2Proof.Machine

/-! ## The commands -/

theorem exec_smbBlockWrite (addr : BitVec 24) (data : Word) (pec : Byte) (s : State) :
    exec (.smbBlockWrite addr data pec) s = .next (s.now (s.toMod.smbusWrite addr data pec)) := rfl

theorem exec_smbBlockRead (addr : BitVec 24) (s : State) : exec (.smbBlockRead addr) s = .next (s.now (s.toMod.smbusRead addr)) := rfl

theorem exec_smbAlertResponse (s : State) : exec .smbAlertResponse s = .next (s.now s.toMod.alertResponse) := rfl

theorem exec_page (p pec : Byte) (s : State) : exec (.page p pec) s = .next (s.now (s.toMod.pmPage p pec)) := rfl

theorem exec_clearFaults (pec : Byte) (s : State) : exec (.clearFaults pec) s = .next (s.now (s.toMod.pmClear pec)) := rfl

/-- The PMBus reads, with the command byte of each (R514). -/
def pmReads : List (Instr × Byte) :=
  [(.statusWord, 0x79), (.readVin, 0x88), (.readIin, 0x89), (.readVout, 0x8B), (.readIout, 0x8C), (.readTemperature1, 0x8D), (.readPin, 0x97)]

theorem exec_pmRead (s : State) : ∀ cmd ∈ pmReads, exec cmd.1 s = .next (s.now (s.toMod.pmRead cmd.2)) := by
  simp only [pmReads, List.forall_mem_cons, List.not_mem_nil, false_imp_iff, implies_true, and_true]
  exact ⟨rfl, rfl, rfl, rfl, rfl, rfl, rfl⟩

theorem exec_pmbusNack (cmd : Byte) (s : State) : exec (.pmbusNack cmd) s = .next (s.now (s.toMod.pmOther cmd)) := rfl

theorem exec_idcode (s : State) : exec .idcode s = .next (s.now s.toMod.scanIdcode) := rfl

theorem exec_bypass (s : State) : exec .bypass s = .next (s.now s.toMod.scanBypass) := rfl

theorem exec_scanInstruction (ir : Nat) (s : State) : exec (.scanInstruction ir) s = .next (s.now (s.toMod.scanOther ir)) := rfl

/-! ## What each of them makes of the module -/

section
variable {m : Mod}

/-- The PEC that a Block Write of a register is to carry (R458). -/
def blockWritePec (addr : BitVec 24) (data : Word) : Byte := pec8 ([smbRegs, 0x10, 7] ++ leBytes 3 addr.toNat ++ leBytes 4 data.toNat)

theorem smbusWrite_accepted {addr : BitVec 24} {data : Word} {pec : Byte} (hs : m.mgmtServes addr.toNat data = true)
    (hp : blockWritePec addr data = pec) (hj : (m.driveOut []).regJudge .mgmt addr.toNat data = none) :
    m.smbusWrite addr data pec = (m.driveOut []).regApply .mgmt addr.toNat data := by
  rw [Mod.smbusWrite, if_neg (by rw [hs]; decide)]
  exact (if_neg (not_not_intro hp)).trans (regWrite_accepted hj)

/-- A write that Parsnip does not serve is ignored, and so is one whose PEC fails. -/
theorem smbusWrite_badPec {addr : BitVec 24} {data : Word} {pec : Byte} (h : blockWritePec addr data ≠ pec) :
    m.smbusWrite addr data pec = m.silent := by
  rw [Mod.smbusWrite]
  split
  · rfl
  · exact if_pos h

theorem not_down (h : m.parsnipUp = true) : ¬(!m.parsnipUp) = true := by rw [h]; decide

theorem smbusRead_up (h : m.parsnipUp = true) (addr : BitVec 24) : m.smbusRead addr =
    (let st := m.readStatus addr.toNat
     let out := [5, BitVec.ofNat 8 st] ++ leBytes 4 (if st = 0 then (m.regRead addr.toNat).toNat else 0)
     m.driveOut (out ++ [pec8 ([smbRegs, 0x11, 3] ++ leBytes 3 addr.toNat ++ [smbRegs + 1] ++ out)])) := if_neg (not_down h)

theorem alertResponse_low (h : m.parsnipUp = true) (ha : m.alertLow = true) :
    m.alertResponse = m.driveOut [smbRegs, pec8 [0x19, smbRegs]] := by
  rw [Mod.alertResponse, h, ha]; rfl

theorem pmPage_valid {p pec : Byte} (h : m.parsnipUp = true) (hpec : pec = pec8 [smbPmbus, 0x00, p]) (hp : p.toNat ≤ 2) :
    m.pmPage p pec = { m with mgmt := { m.mgmt with page := p.toNat, out := [], nack := false } } := by
  rw [Mod.pmPage, if_neg (not_down h), if_neg (not_not_intro hpec), if_neg (Nat.not_lt.2 hp)]

theorem pmClear_valid {pec : Byte} (h : m.parsnipUp = true) (hpec : pec = pec8 [smbPmbus, 0x03]) :
    m.pmClear pec = { m with mgmt := { m.mgmt with regFault := 0, out := [], nack := false } } := by
  rw [Mod.pmClear, if_neg (not_down h), if_neg (not_not_intro hpec)]

theorem pmRead_up (h : m.parsnipUp = true) (cmd : Byte) : m.pmRead cmd =
    (let bs := Config.pmbus cmd.toNat m.mgmt.page (m.free :: m.pmReadings)
     m.fresh.1.driveOut (bs ++ [pec8 ([smbPmbus, cmd, smbPmbus + 1] ++ bs)])) := if_neg (not_down h)

theorem pmOther_unknown {cmd : Byte} (h : pmCommands.contains cmd.toNat = false) : m.pmOther cmd = m.silent := by
  rw [Mod.pmOther, h, Bool.and_false]; rfl

theorem scanIdcode_ok (h : m.scanOk true = true) :
    m.scanIdcode = { m with mgmt := { m.mgmt with ir := irIDCODE, tdo := bitList 32 0x08812A8B } } := if_pos h

theorem scanBypass_ok (h : m.scanOk true = true) : m.scanBypass = { m with mgmt := { m.mgmt with ir := irBYPASS, tdo := [false] } } := if_pos h

theorem scanOther_ok (h : m.scanOk false = true) (ir : Nat) :
    m.scanOther ir = { m with mgmt := { m.mgmt with ir := ir + 3, tdo := [] } } := if_pos h

end

/-- Settles O11: each transaction where the module answers it. -/
theorem managementCommandsComplete : Obligations.ManagementCommandsComplete := by
  unfold Obligations.ManagementCommandsComplete
  refine fun s => ⟨fun addr data pec hs hp hj => ?_, fun addr hup => ?_, fun hup ha => ?_, fun p pec hup hp hle => ?_, fun pec hup hp => ?_,
    fun cmd hmem hup => ?_, fun cmd h => ?_, fun h => ?_, fun h => ?_, fun ir h => ?_⟩
  · rw [exec_smbBlockWrite, smbusWrite_accepted hs hp hj]
  · rw [exec_smbBlockRead, smbusRead_up hup]
  · rw [exec_smbAlertResponse, alertResponse_low hup ha]
  · rw [exec_page, pmPage_valid hup hp hle]
  · rw [exec_clearFaults, pmClear_valid hup hp]
  · rw [exec_pmRead s cmd hmem, pmRead_up hup]
  · rw [exec_pmbusNack, pmOther_unknown h]
  · rw [exec_idcode, scanIdcode_ok h]
  · rw [exec_bypass, scanBypass_ok h]
  · rw [exec_scanInstruction, scanOther_ok h]

/-! ## The frame -/

/-- The module `t` differs from `m` at most in the connector's own state and in the free values taken. -/
def Mod.onlyMgmt (m t : Mod) : Prop := t = { m with mgmt := t.mgmt, free := t.free }

/-- Neither leaves anything to be done. -/
theorem still_mgmt (m : Mod) (g : Mgmt) (k : Nat) : ({ m with mgmt := g, free := k } : Mod).still = m.still := rfl

/-- A transaction that changes no more than that has no consequence. -/
theorem now_onlyMgmt {s : State} {t : Mod} (hs : s.still = true) (ht : s.toMod.onlyMgmt t) : s.now t = s.become t := by
  have hstill : t.still = true := by rw [ht, still_mgmt]; exact hs
  exact now_still hstill (winDue_of_still hs)

section
variable (m : Mod)

theorem onlyMgmt_self : m.onlyMgmt m := rfl

theorem onlyMgmt_driveOut (bs : List Byte) : m.onlyMgmt (m.driveOut bs) := rfl

theorem onlyMgmt_silent : m.onlyMgmt m.silent := rfl

theorem onlyMgmt_smbusRead (addr : BitVec 24) : m.onlyMgmt (m.smbusRead addr) := by
  unfold Mod.smbusRead
  split
  · exact onlyMgmt_silent m
  · exact onlyMgmt_driveOut m _

theorem onlyMgmt_alertResponse : m.onlyMgmt m.alertResponse := by
  unfold Mod.alertResponse
  split
  · exact onlyMgmt_driveOut m _
  · exact onlyMgmt_silent m

theorem onlyMgmt_pmPage (p pec : Byte) : m.onlyMgmt (m.pmPage p pec) := by
  unfold Mod.pmPage
  split
  · exact onlyMgmt_silent m
  · split
    · exact onlyMgmt_self m
    · split
      · exact onlyMgmt_silent m
      · rfl

theorem onlyMgmt_pmClear (pec : Byte) : m.onlyMgmt (m.pmClear pec) := by
  unfold Mod.pmClear
  split
  · exact onlyMgmt_silent m
  · split
    · exact onlyMgmt_self m
    · rfl

/-- The bytes of a PMBus read have a free value in them. -/
theorem onlyMgmt_pmRead (cmd : Byte) : m.onlyMgmt (m.pmRead cmd) := by
  unfold Mod.pmRead
  split
  · exact onlyMgmt_silent m
  · rfl

theorem onlyMgmt_pmOther (cmd : Byte) : m.onlyMgmt (m.pmOther cmd) := by
  unfold Mod.pmOther
  split
  · exact onlyMgmt_self m
  · exact onlyMgmt_silent m

theorem onlyMgmt_scanIdcode : m.onlyMgmt m.scanIdcode := by
  unfold Mod.scanIdcode
  split
  · rfl
  · exact onlyMgmt_self m

theorem onlyMgmt_scanBypass : m.onlyMgmt m.scanBypass := by
  unfold Mod.scanBypass
  split
  · rfl
  · exact onlyMgmt_self m

theorem onlyMgmt_scanOther (ir : Nat) : m.onlyMgmt (m.scanOther ir) := by
  unfold Mod.scanOther
  split
  · rfl
  · exact onlyMgmt_self m

end

/-- A command whose effect touches the connector alone, in a state where nothing is left to be done. -/
theorem exec_onlyMgmt {s : State} {c : Instr} {m : Mod} (hs : s.still = true) (hc : exec c s = .next (s.now m)) (hm : s.toMod.onlyMgmt m) :
    ∃ t, exec c s = .next t ∧ t = s.become { s.toMod with mgmt := t.mgmt, free := t.free } :=
  ⟨s.become m, by rw [hc, now_onlyMgmt hs hm], congrArg s.become hm⟩

/-- Settles O58: each command's effect touches the connector alone, and nothing follows from it. -/
theorem managementFrame : Obligations.ManagementFrame := by
  unfold Obligations.ManagementFrame
  refine fun s hs => ⟨fun c hc => ?_, fun addr data pec hp => ?_⟩
  · have hreads : ∀ cmd ∈ pmReads, ∃ t, exec cmd.1 s = .next t ∧ t = s.become { s.toMod with mgmt := t.mgmt, free := t.free } :=
      fun cmd hmem => exec_onlyMgmt hs (exec_pmRead s cmd hmem) (onlyMgmt_pmRead s.toMod cmd.2)
    simp only [List.mem_cons, List.not_mem_nil, or_false] at hc
    rcases hc with ⟨addr, rfl⟩ | rfl | ⟨p, pec, rfl⟩ | ⟨pec, rfl⟩ | (rfl | rfl | rfl | rfl | rfl | rfl | rfl | rfl | rfl) | ⟨cmd, rfl⟩ | ⟨ir, rfl⟩
    · exact exec_onlyMgmt hs (exec_smbBlockRead addr s) (onlyMgmt_smbusRead s.toMod addr)
    · exact exec_onlyMgmt hs (exec_smbAlertResponse s) (onlyMgmt_alertResponse s.toMod)
    · exact exec_onlyMgmt hs (exec_page p pec s) (onlyMgmt_pmPage s.toMod p pec)
    · exact exec_onlyMgmt hs (exec_clearFaults pec s) (onlyMgmt_pmClear s.toMod pec)
    · exact hreads (.statusWord, 0x79) (by decide)
    · exact hreads (.readVin, 0x88) (by decide)
    · exact hreads (.readIin, 0x89) (by decide)
    · exact hreads (.readVout, 0x8B) (by decide)
    · exact hreads (.readIout, 0x8C) (by decide)
    · exact hreads (.readTemperature1, 0x8D) (by decide)
    · exact hreads (.readPin, 0x97) (by decide)
    · exact exec_onlyMgmt hs (exec_idcode s) (onlyMgmt_scanIdcode s.toMod)
    · exact exec_onlyMgmt hs (exec_bypass s) (onlyMgmt_scanBypass s.toMod)
    · exact exec_onlyMgmt hs (exec_pmbusNack cmd s) (onlyMgmt_pmOther s.toMod cmd)
    · exact exec_onlyMgmt hs (exec_scanInstruction ir s) (onlyMgmt_scanOther s.toMod ir)
  · have hsilent := onlyMgmt_silent s.toMod
    exact ⟨s.become s.toMod.silent, by rw [exec_smbBlockWrite, smbusWrite_badPec hp, now_onlyMgmt hs hsilent], rfl⟩

end Sys2Proof.Machine
end

section
/-! SUPPORT. The state after reset (R239, R345, R422, R470, R498): every word is its register's reset word, and memory lists nothing. -/

namespace Sys2Proof.Machine

theorem reset_rd (o : Nat) : State.reset.rd o = resetWord o := rfl

/-- No register of a core resets to anything but zero, save the one that numbers the core. -/
theorem resetWord_core {off n : Nat} (hb : off / 0x1000 = 256 + n) (hn : n < 128) (ho : off % 0x1000 ≠ 0) : resetWord off = 0 := by
  have hcol : ∀ r ∈ regMapCORE, r.reset = 0 := by decide
  have hmap : regMap (256 + n) = regMapCORE := if_pos (by omega)
  simp only [resetWord, hb, findReg, hmap]
  rw [if_neg (by omega), if_neg (by omega), if_neg (by omega), if_neg (by omega)]
  split
  next r hr => rw [hcol r (List.mem_of_find?_eq_some hr)]; rfl
  next => rfl

/-- No EVT register resets to an event. -/
theorem resetWord_evt {b o : Nat} (h : evtOff b = some o) : (resetWord o).toNat / 0x10000 % 256 = 0 := by
  unfold evtOff at h
  split at h
  case h_18 =>
    split at h
    next hb =>
      have ho : CORE.EVT.o (b - 256) = o := Option.some.inj h
      simp only [CORE.EVT.o] at ho
      rw [resetWord_core (n := b - 256) (by omega) (by omega) (by omega)]; rfl
    next => cases h
  all_goals exact (Option.some.inj h) ▸ by decide

theorem reset_hasEvent (b : Nat) : State.reset.hasEvent b = false := by
  unfold Mod.hasEvent
  split
  next o ho => rw [reset_rd, resetWord_evt ho]; rfl
  next => rfl

theorem reset_pstate : ∀ p : Fin 8, State.reset.pstate p.val = pDISABLED := by decide

theorem reset_enabled (n : Fin 128) (q : Fin 4) : State.reset.enabled n.val q.val = false := by
  have hoff : resetWord (CORE.Q_CTL.o n.val q.val) = 0 :=
    resetWord_core (n := n.val) (by simp only [CORE.Q_CTL.o]; omega) n.isLt (by simp only [CORE.Q_CTL.o]; omega)
  refine is_false.2 ?_
  rw [Mod.f, reset_rd]
  exact (congrArg (CORE.Q_CTL.ENABLE n.val q.val).get hoff).trans (by simp [Field.get])

/-- Settles O7: the reset words, and a memory that lists nothing. -/
theorem resetValues : Obligations.ResetValues := by
  unfold Obligations.ResetValues
  exact ⟨reset_hasEvent, by decide, by decide, by decide, reset_pstate, reset_enabled, fun _ => rfl⟩

end Sys2Proof.Machine
end

section
/-! SUPPORT. Start-up (R498, R505, R511, R512): each event where the start sequence awaits it. -/

namespace Sys2Proof.Machine

/-! ## The commands -/

theorem exec_powerOnStart (s : State) : exec .powerOnStart s = .next (s.now s.toMod.powerOn) := rfl

theorem exec_idReconstructDone (ok : Bool) (s : State) : exec (.idReconstructDone ok) s = .next (s.now (s.toMod.identityDone ok)) := rfl

theorem exec_imageVerifyDone (s : State) : exec .imageVerifyDone s = .next (s.now s.toMod.imagesJudged) := rfl

theorem exec_powerInputsReady (cv : BitVec 16) (s : State) :
    exec (.powerInputsReady cv) s = .next (s.now (s.toMod.inputsReady cv.toNat)) := rfl

theorem exec_railRampDone (s : State) : exec .railRampDone s = .next (s.now s.toMod.railsUp) := rfl

theorem exec_dieLinkTrainDone (s : State) : exec .dieLinkTrainDone s = .next (s.now s.toMod.dieLinksUp) := rfl

theorem exec_hbmTrainDone (repaired : List Nat) (s : State) :
    exec (.hbmTrainDone repaired) s = .next (s.now (s.toMod.hbmUp repaired)) := rfl

theorem exec_seedSetVerify (slot : Fin 4) (s : State) : exec (.seedSetVerify slot) s = .next (s.now (s.toMod.seedDone slot.val)) := rfl

theorem exec_attestationDone (s : State) : exec .attestationDone s = .next (s.now s.toMod.attestDone) := rfl

section
variable {m : Mod}

/-! ## The ROM and the images (R498, R505, R511) -/

/-- After the loss of the auxiliary input the module starts from a cold reset. -/
theorem powerOn_lost (ha : m.is PWR.STAT.AUX_OK = false) (hd : m.power.hotDies = []) : m.powerOn =
    (let t := m.coldReset.set PWR.STAT.AUX_OK 1
     ({ t with power := { t.power with resetNLow := false, coldHold := false } } : Mod).startRom) := by
  have hcool : (m.coldReset.set PWR.STAT.AUX_OK 1).power.hotDies = [] := hd
  simp only [Mod.powerOn, ha, Bool.not_false, Bool.not_true, Bool.and_false, Bool.false_eq_true, if_false, if_true, hcool, List.isEmpty_nil]

/-- A module that has not started starts as it is. -/
theorem powerOn_fresh (hs : m.boot.started = false) (ha : m.is PWR.STAT.AUX_OK = true) (hd : m.power.hotDies = []) :
    m.powerOn = ({ m with power := { m.power with resetNLow := false, coldHold := false } } : Mod).startRom := by
  simp only [Mod.powerOn, hs, ha, Bool.not_true, Bool.false_and, Bool.false_eq_true, if_false, hd, List.isEmpty_nil, if_true]

theorem identityDone_due (hup : m.parsnipUp = true) (hs : m.boot.started = true) (hb : m.bootState = bROM) (ok : Bool) :
    m.identityDone ok = (if ok then m.set SEC.STAT.ID_OK 1 else (m.set SEC.STAT.ID_OK 0).raiseSEC 6 []).setBoot bVERIFY := by
  rw [Mod.identityDone, hup, hs, hb]; rfl

/-- The judging of both images, by the row of R505 that applies. -/
theorem imagesJudged_due (hup : m.parsnipUp = true) (hs : m.boot.started = true) (hb : m.bootState = bVERIFY) : m.imagesJudged =
    (let fw := imgArea 1 0
     let cf := imgArea 2 0
     if m.imgWhy 1 fw.1 fw.2 = 0 then
       let t := m.takeFirmware
       if t.cfgWhy cf.1 cf.2 = 0 then t.takeConfig
       else if t.cfgWhy stageBase cf.2 = 0 then (t.install 2 0).coldReset
       else (t.setBoot bHALT).raiseSEC 2 [(SEC.EVT_INFO.WHY, t.cfgWhy cf.1 cf.2)]
     else if m.imgWhy 1 stageBase fw.2 = 0 then (m.install 1 0).coldReset
     else (m.setBoot bFETCH).raiseSEC 1 [(SEC.EVT_INFO.WHY, m.imgWhy 1 fw.1 fw.2)]) := by
  have hdue : (!m.parsnipUp || !m.boot.started || m.bootState != bVERIFY) = false := by rw [hup, hs, hb]; rfl
  rw [Mod.imagesJudged, hdue, if_neg Bool.false_ne_true]
  dsimp only
  split
  next hfw =>
    rw [if_pos hfw]
    split
    next hcf => rw [if_pos hcf]
    next hcf => rw [if_neg hcf]
  next hfw => rw [if_neg hfw]

/-! ## Power and training (R497, R498, R506) -/

theorem bootState_set (m : Mod) {f : Field} (h : f.off ≠ SEC.STAT.o) (n : Nat) : (m.set f n).bootState = m.bootState :=
  Mod.f_set_other m f SEC.STAT.BOOT (Ne.symm h) n

theorem inputsReady_waits {cv : Nat} (hup : m.parsnipUp = true) (hlo : 4000 ≤ cv) (hhi : cv ≤ 6000) (hb : m.bootState = bWAIT) :
    m.inputsReady cv =
      (({ m with power := { m.power with inCv := cv } } : Mod).sets
        [(PWR.STAT.IN_OK, 1), (PWR.STAT.PWR_EN, 1), (PWR.IN_MEAS.CV, cv)]).setBoot bPOWERUP := by
  have hdue : (!m.parsnipUp || !decide (4000 ≤ cv) || !decide (cv ≤ 6000)) = false := by
    rw [hup, decide_eq_true hlo, decide_eq_true hhi]; rfl
  have hboot : (({ m with power := { m.power with inCv := cv } } : Mod).sets
      [(PWR.STAT.IN_OK, 1), (PWR.STAT.PWR_EN, 1), (PWR.IN_MEAS.CV, cv)]).bootState = bWAIT := by
    simp only [Mod.sets, List.foldl_cons, List.foldl_nil]
    rw [bootState_set _ (by decide), bootState_set _ (by decide), bootState_set _ (by decide)]
    exact hb
  rw [Mod.inputsReady, hdue, if_neg Bool.false_ne_true]
  exact if_pos hboot

section
variable (hup : m.parsnipUp = true) (hin : m.is PWR.STAT.IN_OK = true) (hen : m.is PWR.STAT.PWR_EN = true) (htrip : m.power.tripLatch = false)
  (hst : m.rstState ≠ stFAILED)
include hup hin hen htrip hst

theorem rails_due : (!m.parsnipUp || !m.is PWR.STAT.IN_OK || !m.is PWR.STAT.PWR_EN || m.power.tripLatch || m.rstState == stFAILED) = false := by
  rw [hup, hin, hen, htrip, beq_eq_false_iff_ne.2 hst]; rfl

/-- In POWERUP every rail reaches its set point, and training begins. -/
theorem railsUp_powerup (hb : m.bootState = bPOWERUP) (hres : m.power.resonator = true) : m.railsUp =
    (let t := [0, 1, 2].foldl (fun t r => t.setRail r (t.railSet r)) m
     ({ t with power := { t.power with railsOn := [0, 1, 2] } } : Mod).setBoot bTRAIN) := by
  rw [Mod.railsUp, rails_due hup hin hen htrip hst, if_neg Bool.false_ne_true, if_pos hb]
  exact if_pos hres

/-- In FETCH and HALT the H rail alone is raised, and P6 and P7 are enabled (R506). -/
theorem railsUp_fetching (hb : m.bootState ≠ bPOWERUP) (hf : m.fetching_ = true) (hoff : m.power.railsOn = []) :
    ∃ mv, 580 ≤ mv ∧ mv ≤ 900 ∧ m.railsUp =
      (let t := ({ m with free := m.free + 1, power := { m.power with railsOn := [0] }, doms := { m.doms with except := [142, 143] } } : Mod).setRail 0 mv
       [6, 7].foldl (fun m p => (m.set (LNK.PORT_CTL.ENABLE p) 1).enablePort p) t) := by
  have hgo : (m.fetching_ && m.power.railsOn.isEmpty) = true := by rw [hf, hoff]; rfl
  refine ⟨580 + Config.freeNat m.free % 321, by omega, by omega, ?_⟩
  rw [Mod.railsUp, rails_due hup hin hen htrip hst, if_neg Bool.false_ne_true, if_neg hb]
  exact if_pos hgo

end

theorem dieLinksUp_start (hup : m.parsnipUp = true) (hres : m.power.resonator = true) (hb : m.bootState = bTRAIN) (hst : m.rstState = stRUN) :
    m.dieLinksUp = m.recovOf fun r => { r with linksTrained := true } := by
  have hdue : (!m.parsnipUp || !m.power.resonator) = false := by rw [hup, hres]; rfl
  rw [Mod.dieLinksUp, hdue, if_neg Bool.false_ne_true, if_neg (by rw [hst]; decide), if_pos ⟨hb, hst⟩]

theorem hbmUp_start (hup : m.parsnipUp = true) (hb : m.bootState = bTRAIN) (hst : m.rstState = stRUN) (hl : m.recov.linksTrained = true)
    (repaired : List Nat) : m.hbmUp repaired = m.becomeReady repaired := by
  rw [Mod.hbmUp, if_neg (not_down hup), if_neg (by rw [hst]; decide), if_pos ⟨hb, hst, hl⟩]

/-! ## Seed sets and attestation (R444, R505, R512) -/

theorem seedDone_pending {slot : Nat} (ha : m.acts = true) (hr : m.ready = true) (hp : m.boot.seedPending.contains slot = true) :
    m.seedDone slot = (m.bootOf fun b => { b with seedPending := b.seedPending.filter (· != slot) }).verifySeed slot := by
  rw [Mod.seedDone, ha, hr, hp]; rfl

/-- The report is formed, and `DONE` says so. -/
theorem attestDone_busy (h : m.boot.attBusy = true) :
    m.attestDone.boot.attBusy = false ∧ m.attestDone.f SEC.ATT_STAT.DONE = 1 := by
  have hend : m.attestDone = m.attestEnd := if_neg (by rw [h]; decide)
  rw [hend, Mod.attestEnd]
  refine ⟨?_, ?_⟩
  · rw [Mod.progress_boot, Mod.set_boot, Mod.bootOf_boot]
  · rw [Mod.f, Mod.progress_rd]
    exact Mod.f_set_same _ SEC.ATT_STAT.DONE (by decide) 1

end

/-- Settles O8: each event where the start sequence awaits it. -/
theorem startUpCommandsComplete : Obligations.StartUpCommandsComplete := by
  unfold Obligations.StartUpCommandsComplete
  refine fun s => ⟨fun ha hd => ?_, fun hs ha hd => ?_, fun ok hup hs hb => ?_, fun hup hs hb => ?_, fun cv hup hlo hhi hb => ?_,
    fun hup hin hen htrip hst hb hres => ?_, fun hup hin hen htrip hst hb hf hoff => ?_, fun hup hres hb hst => ?_,
    fun repaired hup hb hst hl => ?_, fun slot ha hr hp => ?_, fun h => ⟨exec_attestationDone s, attestDone_busy h⟩⟩
  · rw [exec_powerOnStart, powerOn_lost ha hd]
  · rw [exec_powerOnStart, powerOn_fresh hs ha hd]
  · rw [exec_idReconstructDone, identityDone_due hup hs hb]
  · rw [exec_imageVerifyDone, imagesJudged_due hup hs hb]
  · rw [exec_powerInputsReady, inputsReady_waits hup hlo hhi hb]
  · rw [exec_railRampDone, railsUp_powerup hup hin hen htrip hst hb hres]
  · obtain ⟨mv, hlo, hhi, hrails⟩ := railsUp_fetching hup hin hen htrip hst hb hf hoff
    exact ⟨mv, hlo, hhi, by rw [exec_railRampDone, hrails]⟩
  · rw [exec_dieLinkTrainDone, dieLinksUp_start hup hres hb hst]
  · rw [exec_hbmTrainDone, hbmUp_start hup hb hst hl]
  · rw [exec_seedSetVerify, seedDone_pending ha hr hp]

end Sys2Proof.Machine
end

section
/-! SUPPORT. Supply faults, thermal trips and losses of supply (R432, R500, R526, R527, R533). -/

namespace Sys2Proof.Machine

/-! ## The commands -/

theorem exec_inLow (cv : BitVec 16) (s : State) : exec (.inLow cv) s = .next (s.now (s.toMod.inputLow cv.toNat)) := rfl

theorem exec_pwrEnFall (s : State) : exec .pwrEnFall s = .next (s.now s.toMod.enableFell) := rfl

theorem exec_inputOvervoltage (cv : BitVec 16) (s : State) : exec (.inputOvervoltage cv) s = .next (s.now (s.toMod.inputHigh cv.toNat)) := rfl

theorem exec_unmateSwitchOpen (cv : BitVec 16) (s : State) : exec (.unmateSwitchOpen cv) s = .next (s.now (s.toMod.unmated cv.toNat)) := rfl

theorem exec_dieCooled (s : State) : exec .dieCooled s = .next (s.now s.toMod.diesCooled) := rfl

section
variable {m : Mod}

/-! ## What a supply fault is judged by -/

/-- The inputs' own fields say nothing of Parsnip. -/
theorem parsnipUp_set (m : Mod) {f : Field} (hf : f.lo + f.w ≤ 32) (h : f.off = PWR.STAT.o → 1 ≤ f.lo) (n : Nat) :
    (m.set f n).parsnipUp = m.parsnipUp := by
  have haux : (m.set f n).f PWR.STAT.AUX_OK = m.f PWR.STAT.AUX_OK := by
    by_cases ho : f.off = PWR.STAT.o
    · exact Mod.f_set_apart m f PWR.STAT.AUX_OK hf (.inl (h ho)) n
    · exact Mod.f_set_other m f PWR.STAT.AUX_OK (Ne.symm ho) n
  simp only [Mod.parsnipUp, Mod.is, haux, Mod.set_dup, Mod.set_power]

theorem ready_set (m : Mod) {f : Field} (h : f.off ≠ SEC.STAT.o) (n : Nat) : (m.set f n).ready = m.ready := by
  rw [Mod.ready, bootState_set m h, Mod.ready]

/-- After READY a supply fault fences the ports and fails the module; before it, start-up waits for its inputs again. -/
theorem supplyFault_ready (hup : m.parsnipUp = true) (hr : m.ready = true) : m.supplyFault = (m.fenceAll.failNow).raisePWR 3 := by
  rw [Mod.supplyFault, if_neg (not_down hup), if_pos hr]

theorem supplyFault_starting (hup : m.parsnipUp = true) (hr : m.ready = false) : m.supplyFault = m.startUnpowered := by
  rw [Mod.supplyFault, if_neg (not_down hup), if_neg (by rw [hr]; decide)]

theorem noteInput_parsnipUp (cv : Nat) : ((m.noteInput cv).set PWR.STAT.IN_OK 0).parsnipUp = m.parsnipUp := by
  rw [parsnipUp_set _ (by decide) (by decide), Mod.noteInput, parsnipUp_set _ (by decide) (by decide)]; rfl

theorem noteInput_ready (cv : Nat) : ((m.noteInput cv).set PWR.STAT.IN_OK 0).ready = m.ready := by
  rw [ready_set _ (by decide), Mod.noteInput, ready_set _ (by decide)]; rfl

theorem inputLow_ready {cv : Nat} (hcv : ¬(4000 ≤ cv ∧ cv ≤ 6000)) (hup : m.parsnipUp = true) (hr : m.ready = true) : m.inputLow cv =
    (let t := (m.noteInput cv).set PWR.STAT.IN_OK 0
     (({ t with mgmt := { t.mgmt with regFault := 1 } } : Mod).fenceAll.failNow).raisePWR 3) := by
  rw [Mod.inputLow, if_neg hcv]
  exact supplyFault_ready ((noteInput_parsnipUp cv).trans hup) ((noteInput_ready cv).trans hr)

theorem enableFell_ready (hup : m.parsnipUp = true) (hr : m.ready = true) :
    m.enableFell = (((m.set PWR.STAT.PWR_EN 0).fenceAll.failNow).raisePWR 3) :=
  supplyFault_ready ((parsnipUp_set m (by decide) (by decide) 0).trans hup) ((ready_set m (by decide) 0).trans hr)

theorem enableFell_starting (hup : m.parsnipUp = true) (hr : m.ready = false) :
    m.enableFell = (m.set PWR.STAT.PWR_EN 0).startUnpowered :=
  supplyFault_starting ((parsnipUp_set m (by decide) (by decide) 0).trans hup) ((ready_set m (by decide) 0).trans hr)

theorem inputHigh_above {cv : Nat} (h : 6500 < cv) :
    m.inputHigh cv = (m.pwr fun p => { p with switchClosed := false }).inputLow cv := if_neg (by omega)

theorem unmated_below {cv : Nat} (h : cv < 3600) :
    m.unmated cv = (m.pwr fun p => { p with switchClosed := false }).inputLow cv := if_neg (by omega)

/-! ## Thermal trips (R533, R534) -/

theorem railsOff_power (m : Mod) : m.railsOff.power = { m.power with railsOn := [], railMv := [], trim := 0 } := by
  rw [Mod.railsOff, Mod.set_power]; rfl

theorem failNow_power (m : Mod) : m.failNow.power = { m.power with railsOn := [], railMv := [], trim := 0 } := by
  rw [Mod.failNow, Mod.set_power, railsOff_power]

theorem failNow_rstState (m : Mod) : m.failNow.rstState = stFAILED := Mod.f_set_same _ RST.STAT.STATE (by decide) stFAILED

/-- The module with its trip latched, its rails off and the regulator's fault noted. -/
def Mod.tripped (m : Mod) (die : Nat) : Mod :=
  let t := (m.pwr fun p => { p with
    tripLatch := true, hotDies := if p.hotDies.contains die then p.hotDies else p.hotDies ++ [die] }).railsOff
  { t with mgmt := { t.mgmt with regFault := 1 } }

/-- A run that the trip ends leaves no result. -/
def Mod.runLost (m : Mod) : Mod :=
  if m.testing then (m.tst fun t => { t with results := [], heater := false, abort := false }).sets [(TST.STAT.STATE, 0), (TST.STAT.POINT, 0)]
  else m

theorem thermalTrip_eq (m : Mod) (die : Nat) :
    m.thermalTrip die = if m.boot.started = true then (m.tripped die).runLost.failNow else m.tripped die := rfl

theorem runLost_power (m : Mod) : m.runLost.power = m.power := by
  unfold Mod.runLost
  split <;> rfl

theorem tripped_power (m : Mod) (die : Nat) : (m.tripped die).power =
    { m.power with
      tripLatch := true, hotDies := if m.power.hotDies.contains die then m.power.hotDies else m.power.hotDies ++ [die],
      railsOn := [], railMv := [], trim := 0 } := railsOff_power _

/-- A trip latches and takes the rails down, whether the module has started or not. -/
theorem thermalTrip_power (m : Mod) (die : Nat) : (m.thermalTrip die).power.tripLatch = true ∧ (m.thermalTrip die).power.railsOn = [] := by
  rw [thermalTrip_eq]
  split
  · rw [failNow_power, runLost_power, tripped_power]; exact ⟨rfl, rfl⟩
  · rw [tripped_power]; exact ⟨rfl, rfl⟩

theorem thermalTrip_started (hs : m.boot.started = true) (die : Nat) : (m.thermalTrip die).rstState = stFAILED := by
  rw [thermalTrip_eq, if_pos hs, failNow_rstState]

/-- In a module that has started the latch outlasts the heat. -/
theorem diesCooled_started (hs : m.boot.started = true) (hp : m.power.startPending = false) :
    m.diesCooled = m.pwr fun p => { p with hotDies := [] } := by
  simp only [Mod.diesCooled, hs, Bool.and_true, Mod.pwr_power, hp, Bool.false_eq_true, if_false]

end

/-- Settles O9: each event where it is one. -/
theorem supplyEventsComplete : Obligations.SupplyEventsComplete := by
  unfold Obligations.SupplyEventsComplete
  refine fun s => ⟨fun cv hcv hup hr => ?_, fun hup hr => ?_, fun hup hr => ?_, rfl, fun cv => rfl, fun cv h => ?_, fun cv h => ?_, rfl,
    fun die => ⟨rfl, ?_, ?_, fun hs => ?_⟩, fun hs hp => ?_⟩
  · rw [exec_inLow, inputLow_ready hcv hup hr]
  · rw [exec_pwrEnFall, enableFell_ready hup hr]
  · rw [exec_pwrEnFall, enableFell_starting hup hr]
  · rw [exec_inputOvervoltage, inputHigh_above h]
  · rw [exec_unmateSwitchOpen, unmated_below h]
  · exact (thermalTrip_power s.toMod die.val).1
  · exact (thermalTrip_power s.toMod die.val).2
  · exact thermalTrip_started hs die.val
  · rw [exec_dieCooled, diesCooled_started hs hp]

end Sys2Proof.Machine
end

section
/-! SUPPORT. Warm recovery (R416, R420–R426) and Parsnip's keep-alive (R429): each event where it is due. -/

namespace Sys2Proof.Machine

/-! ## The commands -/

theorem exec_sprout (d : Nat) (s : State) : exec (.sprout d) s = .next (s.now (s.toMod.sproutExpiry d)) := rfl

theorem exec_quiesceAck (d : Nat) (s : State) : exec (.quiesceAck d) s = .next (s.now (s.toMod.quiesceAck d)) := rfl

theorem exec_quiesceWaitExpiry (s : State) : exec .quiesceWaitExpiry s = .next (s.now s.toMod.quiesceExpiry) := rfl

theorem exec_selfRefreshEntered (s : State) : exec .selfRefreshEntered s = .next (s.now s.toMod.selfRefreshIn) := rfl

theorem exec_resetHoldEnd (s : State) : exec .resetHoldEnd s = .next (s.now s.toMod.resetHoldEnd) := rfl

theorem exec_warmDone (s : State) : exec .warmDone s = .next (s.now s.toMod.warmDone) := rfl

theorem exec_recovStall (s : State) : exec .recovStall s = .next (s.now s.toMod.recovStall) := rfl

theorem exec_keepAlive (s : State) : exec .keepAlive s = .next (s.now s.toMod.keepAlive) := rfl

section
variable {m : Mod}

/-! ## The watch (R416, R419) -/

/-- A window can run out on a domain that is watched and busy, or whose quiesce a recovery still awaits. -/
theorem expires_iff {d : Nat} : m.expires d = true ↔ m.watched d = true ∧ m.busy d = true ∨
    m.rstState = stQUIESCE ∧ m.recov.expiring.contains d = true ∧ m.quiesced d = false := by
  simp only [Mod.expires, Bool.or_eq_true, Bool.and_eq_true, Bool.not_eq_true', beq_iff_eq, and_assoc]

theorem sproutExpiry_due {d : Nat} (h : m.expires d = true) : m.sproutExpiry d =
    (let t := m.recovOf fun r => { r with expiring := r.expiring.filter (· != d) }
     let t := (t.count RST.SN_SPROUT_LO.o 1).charge 0x07 d 0 0 0 0
     (if t.rstState = stRUN then t.raiseRST 1 d 0 else t).warmCause 1 d) := if_neg (by rw [h]; decide)

/-! ## Quiesce and self refresh (R422, R423, R425) -/

section
variable (hup : m.parsnipUp = true) (hst : m.rstState = stQUIESCE)
include hup hst

theorem quiesceAck_due {d : Nat} (hw : m.recov.waited = false) (hd : d < 156) (hq : m.quiesced d = false) :
    m.quiesceAck d = (m.abandon d).recovOf fun r => { r with acked := r.acked ++ [d] } := by
  rw [Mod.quiesceAck, hup, hst, hw, decide_eq_true hd, hq]; rfl

theorem quiesceExpiry_due (hw : m.recov.waited = false) : m.quiesceExpiry =
    (let t := (List.range 5).foldl (fun t i => t.set (RST.DOM_OFF.OFF i) 0) m
     (((List.range 156).filter fun d => !t.quiesced d).foldl Mod.switchOff t).recovOf fun r => { r with waited := true }) := by
  rw [Mod.quiesceExpiry, hup, hst, hw]; rfl

/-- After the wait the domains that did not answer have been switched off. -/
theorem selfRefreshIn_waited (hw : m.recov.waited = true) : m.selfRefreshIn =
    (let t := (m.recovOf fun r => { r with selfRefresh := true }).closeTags
     ({ t with doms := { t.doms with held := true, except := [] } } : Mod).set RST.STAT.STATE stRESET) := by
  have hdue : (!m.parsnipUp || m.rstState != stQUIESCE || !(m.recov.waited || (List.range 156).all m.quiesced)) = false := by
    rw [hup, hst, hw]; rfl
  rw [Mod.selfRefreshIn, hdue, if_neg Bool.false_ne_true, if_pos hw]

/-- Before it every domain must have answered, and none is switched off. -/
theorem selfRefreshIn_answered (hw : m.recov.waited = false) (hall : (List.range 156).all m.quiesced = true) : m.selfRefreshIn =
    (let t := (List.range 5).foldl (fun t i => t.set (RST.DOM_OFF.OFF i) 0) m
     let t := (t.recovOf fun r => { r with selfRefresh := true }).closeTags
     ({ t with doms := { t.doms with held := true, except := [] } } : Mod).set RST.STAT.STATE stRESET) := by
  have hdue : (!m.parsnipUp || m.rstState != stQUIESCE || !(m.recov.waited || (List.range 156).all m.quiesced)) = false := by
    rw [hup, hst, hw, hall]; rfl
  rw [Mod.selfRefreshIn, hdue, if_neg Bool.false_ne_true, if_neg (by rw [hw]; decide)]

end

/-! ## Reset and retraining (R422, R424, R425) -/

theorem resetHoldEnd_due (hup : m.parsnipUp = true) (hst : m.rstState = stRESET) : m.resetHoldEnd =
    (let t := m.zeroStores.warmBlocks
     let boot := t.bootState
     let t := ({ t with doms := ⟨boot != bREADY, if 6 ≤ boot then [142, 143] else [], [], true, true⟩ } : Mod).set RST.STAT.STATE stRETRAIN
     (t.recovOf fun r => { r with acked := [], linksTrained := false }).portsStart) := by
  rw [Mod.resetHoldEnd, hup, hst]; rfl

theorem dieLinksUp_retrain (hup : m.parsnipUp = true) (hres : m.power.resonator = true) (hst : m.rstState = stRETRAIN) :
    m.dieLinksUp = ({ m with doms := { m.doms with linkRetrain := false } } : Mod).recovOf fun r => { r with linksTrained := true } := by
  have hdue : (!m.parsnipUp || !m.power.resonator) = false := by rw [hup, hres]; rfl
  rw [Mod.dieLinksUp, hdue, if_neg Bool.false_ne_true, if_pos hst]
  exact if_pos hres

theorem hbmUp_retrain (hup : m.parsnipUp = true) (hst : m.rstState = stRETRAIN) (hl : m.recov.linksTrained = true) (repaired : List Nat) :
    m.hbmUp repaired =
      (let t := if m.recov.lost.isEmpty then m else m.loadRepairs m.recov.lost repaired
       ({ t with doms := { t.doms with memRetrain := false } } : Mod).recovOf fun r => { r with selfRefresh := false, lost := [] }) := by
  rw [Mod.hbmUp, if_neg (not_down hup), if_pos hst]
  exact if_pos hl

theorem warmDone_due (hup : m.parsnipUp = true) (hst : m.rstState = stRETRAIN) (hl : m.recov.linksTrained = true) :
    m.warmDone = ((m.memRetrained []).set RST.STAT.STATE stRUN).raiseRST 4 255 m.recov.cause := by
  rw [Mod.warmDone, hup, hst, hl]; rfl

/-! ## A stall, and the keep-alive (R426, R429) -/

theorem recovStall_due (hup : m.parsnipUp = true) (hrun : m.rstState ≠ stRUN) (hfail : m.rstState ≠ stFAILED) : m.recovStall =
    (let t := (m.set RST.STAT.STATE stFAILED).raiseRST 5 255 m.recov.cause
     let t := (List.range 8).foldl (fun t p => if t.pstate p = pUP then t.lastFence p else t) t
     t.fenceAll.charge 0x09 254 3 0 0 0) := by
  rw [Mod.recovStall, hup, beq_eq_false_iff_ne.2 hrun, beq_eq_false_iff_ne.2 hfail]; rfl

theorem keepAlive_up (hup : m.parsnipUp = true) : m.keepAlive = m.dupOf fun d => { d with aliveAt := m.vine.time.toNat } := if_pos hup

end

/-- Settles O19: each event where it is due. -/
theorem recoveryEventsComplete : Obligations.RecoveryEventsComplete := by
  unfold Obligations.RecoveryEventsComplete
  refine fun s => ⟨fun d h => ?_, fun d hup hst hw hd hq => ?_, fun hup hst hw => ?_, fun hup hst hw => ?_, fun hup hst hw hall => ?_,
    fun hup hst => ?_, fun hup hres hst => ?_, fun repaired hup hst hl => ?_, fun hup hst hl => ?_, fun hup hrun hfail => ?_, rfl,
    fun hup => ?_⟩
  · rw [exec_sprout, sproutExpiry_due (expires_iff.2 h)]
  · rw [exec_quiesceAck, quiesceAck_due hup hst hw hd hq]
  · rw [exec_quiesceWaitExpiry, quiesceExpiry_due hup hst hw]
  · rw [exec_selfRefreshEntered, selfRefreshIn_waited hup hst hw]
  · rw [exec_selfRefreshEntered, selfRefreshIn_answered hup hst hw hall]
  · rw [exec_resetHoldEnd, resetHoldEnd_due hup hst]
  · rw [exec_dieLinkTrainDone, dieLinksUp_retrain hup hres hst]
  · rw [exec_hbmTrainDone, hbmUp_retrain hup hst hl]
  · rw [exec_warmDone, warmDone_due hup hst hl]
  · rw [exec_recovStall, recovStall_due hup hrun hfail]
  · rw [exec_keepAlive, keepAlive_up hup]

end Sys2Proof.Machine
end

section
/-! SUPPORT. Field test, the health history and the classes of units (R443, R446, R448, R451, R452): each event where it is due. -/

namespace Sys2Proof.Machine

theorem exec_heatTargetReached (s : State) : exec .heatTargetReached s = .next (s.now s.toMod.heatReached) := rfl

theorem exec_noHeat (s : State) : exec .noHeat s = .next (s.now s.toMod.noHeat) := rfl

theorem exec_heaterTrip (tj : Byte) (s : State) : exec (.heaterTrip tj) s = .next (s.now (s.toMod.heaterTrip tj.toNat)) := rfl

theorem exec_pointEnd (fails : List (Nat × Nat)) (s : State) : exec (.pointEnd fails) s = .next (s.now (s.toMod.pointEnd fails)) := rfl

theorem exec_classWindowExpiry (u : Nat) (s : State) : exec (.classWindowExpiry u) s = .next (s.now (s.toMod.classExpires u)) := rfl

section
variable {m : Mod}

/-- At the target the first point begins (R443). -/
theorem heatReached_heating (h : m.f TST.STAT.STATE = 1) : m.heatReached = m.runPoints.set TST.STAT.TJ (m.planField 2 TST.T_TARGET.C) :=
  if_neg (not_not_intro h)

theorem noHeat_heating (h : m.f TST.STAT.STATE = 1) : m.noHeat = m.runOver 5 := if_neg (not_not_intro h)

/-- With a target set, the heater follows the junction temperature: off from 103 °C, on again at 100 °C (R443). -/
theorem heaterTrip_testing (ht : m.testing = true) (hc : m.planField 2 TST.T_TARGET.C ≠ 0) (tj : Nat) : m.heaterTrip tj =
    if 103 ≤ tj then (m.set TST.STAT.TJ tj).tst fun t => { t with heater := false }
    else if tj ≤ 100 then (m.set TST.STAT.TJ tj).tst fun t => { t with heater := true }
    else m.set TST.STAT.TJ tj := by
  rw [Mod.heaterTrip, ht, beq_eq_false_iff_ne.2 hc]; rfl

/-- A point during which no trim was in force counts: its units are tested, its failures noted, and the next point follows (R446). -/
theorem pointEnd_counts (h : m.f TST.STAT.STATE = 2) (ht : m.test.trimmed = false) (fails : List (Nat × Nat)) : m.pointEnd fails =
    (let us := m.underTest.filter m.patternsRun
     let t := us.foldl (fun t u => (t.setResult u { t.resultOf u with tested := true }).progress u) m
     (fails.foldl (fun t e => if us.contains e.1 ∧ t.patternRuns e.1 e.2 then t.noteFail e.1 e.2 false else t) t).nextPoint) := by
  rw [Mod.pointEnd, if_neg (not_not_intro h), if_neg (by rw [ht]; decide)]

theorem classExpires_due {u : Nat} (hc : m.unitClass u = 2) (hr : m.recent u = 0) : m.classExpires u = m.setClass u 0 := if_pos ⟨hc, hr⟩

end

/-- Settles O21: each event where it is due. -/
theorem fieldTestEventsComplete : Obligations.FieldTestEventsComplete := by
  unfold Obligations.FieldTestEventsComplete
  refine fun s => ⟨fun h => ?_, fun h => ?_, fun tj ht hc => ⟨fun hhot => ?_, fun hcool => ?_⟩, fun fails h ht => ?_, fun u hc hr => ?_,
    rfl, rfl⟩
  · rw [exec_heatTargetReached, heatReached_heating h]; rfl
  · rw [exec_noHeat, noHeat_heating h]
  · rw [exec_heaterTrip, heaterTrip_testing ht hc, if_pos hhot]
  · rw [exec_heaterTrip, heaterTrip_testing ht hc, if_neg (by omega), if_pos hcool]
  · rw [exec_pointEnd, pointEnd_counts h ht]
  · rw [exec_classWindowExpiry, classExpires_due hc hr]

end Sys2Proof.Machine
end

section
/-! SUPPORT. Packets of the checkpoint engine (R396, R399, R405, R408, R409) that reach it: what each brings, and what is answered. -/

namespace Sys2Proof.Machine

section
variable {m : Mod} {p : Pkt}

/-! ## PULL (R399) -/

/-- Where the slice of a PULL begins in this module's generation. -/
def Mod.pullAt (m : Mod) (p : Pkt) : Nat := stripeOf m.gpos (payNat p 4 1 % 8) * m.stripe + payNat p 0 4 * sliceLen

/-- A PULL, judged with the manifests read again. -/
theorem takePull_up (h : m.down 148 = false) : m.takePull p =
    (let c := infoOf p % 2 ^ 32
     let o := m.pullAt p
     let t := m.readManifests
     if ¬(t.pullReady c = true ∧ payNat p 0 4 < t.sliceCount) then t.ckptSend (srcOf p) 3 c []
     else if t.is (BLB.GEN_STAT.DAMAGED (c % 2)) = true then t.ckptSend (srcOf p) 3 (c + 2 ^ 32) []
     else if t.extent ≤ o then t.ckptSend (srcOf p) 2 (dataInfo t.id c 0 o) []
     else match t.load byCkpt (t.genBase c + o) (min sliceLen (t.extent - o)) with
       | (t, none) => t.ckptSend (srcOf p) 3 (c + 2 ^ 32) []
       | (t, some bs) => (t.sendParts (srcOf p) 1 t.id c 0 o bs).progress 148) := by
  have hready : ∀ t : Mod, (¬(t.pullReady (infoOf p % 2 ^ 32) = true ∧ payNat p 0 4 < t.sliceCount)) ↔
      ((!t.pullReady (infoOf p % 2 ^ 32)) = true ∨ t.sliceCount ≤ payNat p 0 4) := fun t => by
    rw [not_and_or, Bool.not_eq_true', Bool.not_eq_true, Nat.not_lt]
  rw [Mod.takePull, if_neg (by rw [h]; decide)]
  simp only [hready, Bool.toNat_true, Bool.toNat_false, Nat.mul_zero, Nat.mul_one, Nat.add_zero]
  rfl

section
variable (h : m.down 148 = false)
include h

theorem takePull_notReady (hr : ¬(m.readManifests.pullReady (infoOf p % 2 ^ 32) = true ∧ payNat p 0 4 < m.readManifests.sliceCount)) :
    m.takePull p = m.readManifests.ckptSend (srcOf p) 3 (infoOf p % 2 ^ 32) [] := by
  rw [takePull_up h]; exact if_pos hr

section
variable (hr : m.readManifests.pullReady (infoOf p % 2 ^ 32) = true) (hn : payNat p 0 4 < m.readManifests.sliceCount)
include hr hn

theorem takePull_damaged (hd : m.readManifests.is (BLB.GEN_STAT.DAMAGED (infoOf p % 2 ^ 32 % 2)) = true) :
    m.takePull p = m.readManifests.ckptSend (srcOf p) 3 (infoOf p % 2 ^ 32 + 2 ^ 32) [] := by
  rw [takePull_up h]
  exact (if_neg (not_not_intro ⟨hr, hn⟩)).trans (if_pos hd)

section
variable (hd : m.readManifests.is (BLB.GEN_STAT.DAMAGED (infoOf p % 2 ^ 32 % 2)) = false)
include hd

theorem takePull_beyond (he : m.readManifests.extent ≤ m.pullAt p) : m.takePull p =
    m.readManifests.ckptSend (srcOf p) 2 (dataInfo m.readManifests.id (infoOf p % 2 ^ 32) 0 (m.pullAt p)) [] := by
  rw [takePull_up h]
  exact (if_neg (not_not_intro ⟨hr, hn⟩)).trans ((if_neg (by rw [hd]; decide)).trans (if_pos he))

/-- Below the extent the slice's bytes are read. -/
theorem takePull_reads (he : m.pullAt p < m.readManifests.extent) : m.takePull p =
    (match m.readManifests.load byCkpt (m.readManifests.genBase (infoOf p % 2 ^ 32) + m.pullAt p)
        (min sliceLen (m.readManifests.extent - m.pullAt p)) with
     | (t, none) => t.ckptSend (srcOf p) 3 (infoOf p % 2 ^ 32 + 2 ^ 32) []
     | (t, some bs) => (t.sendParts (srcOf p) 1 t.id (infoOf p % 2 ^ 32) 0 (m.pullAt p) bs).progress 148) := by
  rw [takePull_up h]
  exact (if_neg (not_not_intro ⟨hr, hn⟩)).trans ((if_neg (by rw [hd]; decide)).trans (if_neg (Nat.not_le.2 he)))

end
end
end

/-! ## PART, ZERO and NOT_READY (R399, R405) -/

theorem takePart_other (h : infoModule (infoOf p) ≠ m.id) : m.takePart p =
    m.sliceAnswer p m.extent fun pos o s => { s with parts := s.parts ++ [(pos, o, p.payload)] } := if_neg h

section
variable (h : infoModule (infoOf p) = m.id)
include h

/-- A stripe of this module's own shard, where that is being rebuilt. -/
theorem takePart_rebuilt {t : Mod} (hr : m.isRebuilt = true ∧ infoArea (infoOf p) = 0 ∧ infoGen (infoOf p) = m.ckpt.cand.getD 0 % 2)
    (he : infoOff (infoOf p) + p.payload.length ≤ m.extent)
    (hs : m.store byCkpt (m.genBase (infoGen (infoOf p)) + infoOff (infoOf p)) p.payload = (t, true)) : m.takePart p =
      t.ckptOf fun x => { x with rebuilt := joinRange x.rebuilt (0, infoOff (infoOf p), infoOff (infoOf p) + p.payload.length) } := by
  rw [Mod.takePart, if_pos h, if_pos hr, Mod.takeRebuilt, if_neg (Nat.not_lt.2 he), hs]

theorem takePart_unwanted (hr : ¬(m.isRebuilt = true ∧ infoArea (infoOf p) = 0 ∧ infoGen (infoOf p) = m.ckpt.cand.getD 0 % 2)) :
    m.takePart p = m.protoError p := by
  rw [Mod.takePart, if_pos h, if_neg hr]

end

/-- A NOT_READY ends the oldest slice that its sender has yet to answer. -/
theorem takeNotReady_asked {pos : Nat} {x : Slice} (hp : m.posOf (srcOf p) = some pos)
    (hx : m.ckpt.slices.find? (fun x => m.sliceC x == infoOf p % 2 ^ 32 && !x.zeros.contains pos && !x.parts.any (·.1 == pos)) = some x) :
    m.takeNotReady p =
      (let t := (m.ckptOf fun y => { y with slices := y.slices.filter (·.n != x.n) }).count BLB.SN_SLICE_RETRY_LO.o 1
       if (infoOf p).testBit 32 then (if x.rebuild then t.restoreFail else t.voteCommit false) else t) := by
  simp only [Mod.takeNotReady, hp, hx]

/-! ## SHA, EXPORT and IMPORT (R396, R408, R409) -/

/-- A SHA that belongs to no earlier attempt than the running one takes its place. -/
theorem takeSha_current (hen : m.is BLB.CFG.ENABLE = true)
    (hc : m.ckpt.order = 0 ∨ infoOf p % 2 ^ 32 ≠ m.ckpt.c ∨ m.ckpt.step < m.tagStep (tagOf p)) : m.takeSha p =
      (let k := 8 * (infoOf p % 2 ^ 32) + payNat p 48 1 % 8
       m.ckptOf fun x => { x with shas := (x.shas.filter (·.1 != k)) ++ [(k, m.tagStep (tagOf p), p.payload.take 48)] }) := by
  refine if_neg ?_
  rintro (hoff | ⟨horder, hsame, hold⟩)
  · rw [hen] at hoff; cases hoff
  · rcases hc with hc | hc | hc
    · exact horder hc
    · exact hc hsame
    · omega

theorem takeExport_bridge (h : m.bridging = true) :
    m.takeExport p = m.sendOut 7 (m.peer 7) (tagOf p) clsCKPT 5 (infoOf p) p.payload := if_pos h

/-- An IMPORT for the generation that is being imported is written at its target. -/
theorem takeImport_written {port : Nat} {t : Mod} (hport : port ≠ 7) (hph : m.ckptPhase = 6) (hid : infoModule (infoOf p) = m.id)
    (hgen : infoGen (infoOf p) = m.f BLB.STAT.GEN) (harea : infoArea (infoOf p) = 0)
    (he : infoOff (infoOf p) + p.payload.length ≤ m.extent)
    (hs : m.store byCkpt (m.genBase (infoGen (infoOf p)) + infoOff (infoOf p)) p.payload = (t, true)) :
    m.takeImport port p = t.progress 148 := by
  have hfits : ¬(m.ckptPhase ≠ 6 ∨ infoModule (infoOf p) ≠ m.id ∨ infoGen (infoOf p) ≠ m.f BLB.STAT.GEN ∨ infoArea (infoOf p) ≠ 0 ∨
      m.extent < infoOff (infoOf p) + p.payload.length) := by
    rintro (h | h | h | h | h)
    · exact h hph
    · exact h hid
    · exact h hgen
    · exact h harea
    · omega
  simp only [Mod.takeImport, if_neg hport, if_neg hfits, hs]

end

/-- Settles O41: each packet by the judgement that the engine gives it. -/
theorem checkpointPacketsComplete : Obligations.CheckpointPacketsComplete := by
  unfold Obligations.CheckpointPacketsComplete
  refine fun s port p m => ⟨fun m' bs h hup hr hn hd => ⟨fun he => ?_, fun he hl => ?_, fun he hl => ?_⟩,
    fun h hup => ⟨fun hr => ?_, fun hr hd => ?_⟩, fun h => ⟨fun t hown hre he hs => ?_, fun hown hre => ?_, fun hown => ?_⟩,
    fun h => ?_, fun pos x h hp hx => ?_, fun h hen hc => ?_, fun h hb => ?_, fun t h hport hph hid hgen harea he hs => ?_⟩
  · rw [exec_pull h, takePull_beyond hup hr hn hd he]; rfl
  · rw [exec_pull h, takePull_reads hup hr hn hd he]
    exact congrArg _ (congrArg s.after (by rw [Mod.pullAt, hl]))
  · rw [exec_pull h, takePull_reads hup hr hn hd he]
    exact congrArg _ (congrArg s.after (by rw [Mod.pullAt, hl]))
  · rw [exec_pull h, takePull_notReady hup hr]
  · rw [exec_pull h, takePull_damaged hup hr.1 hr.2 hd]
  · rw [exec_part h, takePart_rebuilt hown hre he hs]
  · rw [exec_part h, takePart_unwanted hown hre]
  · rw [exec_part h, takePart_other hown]
  · rw [exec_zero h, Mod.takeZero]
  · rw [exec_notReady h, takeNotReady_asked hp hx]
  · rw [exec_sha h, takeSha_current hen hc]
  · rw [exec_exportPkt h, takeExport_bridge hb]
  · rw [exec_importPkt h, takeImport_written hport hph hid hgen harea he hs]

end Sys2Proof.Machine
end
